-- ==== Sys2Proof/Word.lean ====
section
/-! DEFINITION. The word types of the PN-8 and their plainest readings.
Registers are 64 bits (R133), vector registers 512 (R161), bytes 8, addresses in memory 52 bits kept as Nat. -/

namespace Sys2Proof

/-- A byte of memory. -/
abbrev Byte := BitVec 8

/-- A scalar register, a mask register, a virtual address or a CSR value. -/
abbrev Word := BitVec 64

/-- A vector register (R161). -/
abbrev VReg := BitVec 512

/-- A 5-bit register field (R39). -/
abbrev Reg := BitVec 5

/-- A 3-bit mask-register field (R39). -/
abbrev KReg := BitVec 3

/-- A lookahead count (R54). -/
abbrev La := BitVec 4

/-- The number read in two's complement at width w (the helper Sext of R8). -/
def sext (x w : Nat) : Int :=
  if x % 2 ^ w < 2 ^ (w - 1) then ((x % 2 ^ w : Nat) : Int) else ((x % 2 ^ w : Nat) : Int) - ((2 ^ w : Nat) : Int)

/-- The low w bits of an integer, as a number (an assignment to a field of width w, R8). -/
def low (x : Int) (w : Nat) : Nat := (x % ((2 ^ w : Nat) : Int)).toNat

/-- Bits h down to l of a number (the field x[h:l] of R4). -/
def bits (x h l : Nat) : Nat := x / 2 ^ l % 2 ^ (h + 1 - l)

/-- Bit n of a number (x[n] of R4). -/
def bit (x n : Nat) : Bool := x / 2 ^ n % 2 == 1

/-- A boolean as a one-bit number. -/
def ofBool (b : Bool) : Nat := if b then 1 else 0

/-- The number x with the field of `n` bits at position l replaced by v. -/
def setBits (x l n v : Nat) : Nat := x - x / 2 ^ l % 2 ^ n * 2 ^ l + v % 2 ^ n * 2 ^ l

/-- Serial-number order of R305 and R275: `a` is at or after `b` modulo 2^w, with a window of 2^(w-1). -/
def serialGe (w a b : Nat) : Bool := (a + (2 ^ w - b % 2 ^ w)) % 2 ^ w < 2 ^ (w - 1)

/-- The greater of two numbers in serial-number order (R305). -/
def serialMax (w a b : Nat) : Nat := if serialGe w a b then a % 2 ^ w else b % 2 ^ w

/-- Number of one bits among the low n bits. -/
def popcount : Nat → Nat → Nat
  | 0, _ => 0
  | n + 1, x => x % 2 + popcount n (x / 2)

/-- Index of the lowest one bit among the low n bits, n if there is none. -/
def ctz : Nat → Nat → Nat
  | 0, _ => 0
  | n + 1, x => if x % 2 = 1 then 0 else 1 + ctz n (x / 2)

/-- Number of bits a number needs: 0 for 0, otherwise one more than the position of its highest one bit. -/
def bitLen (x : Nat) : Nat := if x = 0 then 0 else Nat.log2 x + 1

/-- x rounded up to a multiple of m. -/
def roundUp (x m : Nat) : Nat := (x + m - 1) / m * m

end Sys2Proof
end

