-- ==== Sys2Proof/Syntax.lean ====
section
/-! DEFINITION. The instruction set as syntax: element types, the operand records of events, and `Instr`, the one inductive with one
constructor per row of spec/opcode_table.json: 256 encoded instructions (02_encoding R43, R50) and the 110 events that happen at the
machine's units. An instruction's fields are those of its encoding; an event's operands say where it happens. -/

namespace Sys2Proof

/-- The element types of R41. -/
inductive ElTy where
  | i8 | i16 | i32 | i64 | bf16 | fp32 | fp64 | l6
  deriving DecidableEq, Repr

/-- The type of a three-bit code (R41). -/
def ElTy.ofCode (c : BitVec 3) : ElTy :=
  match c.toNat with
  | 0 => .i8 | 1 => .i16 | 2 => .i32 | 3 => .i64 | 4 => .bf16 | 5 => .fp32 | 6 => .fp64 | _ => .l6

/-- The code of a type (R41). -/
def ElTy.code : ElTy → Nat
  | .i8 => 0 | .i16 => 1 | .i32 => 2 | .i64 => 3 | .bf16 => 4 | .fp32 => 5 | .fp64 => 6 | .l6 => 7

/-- Bits of an element (R162). -/
def ElTy.width : ElTy → Nat
  | .i8 | .l6 => 8
  | .i16 | .bf16 => 16
  | .i32 | .fp32 => 32
  | .i64 | .fp64 => 64

/-- Elements of a vector register (R162). -/
def ElTy.lanes (t : ElTy) : Nat := 512 / t.width

/-- INT8 to INT64. -/
def ElTy.isInt : ElTy → Bool
  | .i8 | .i16 | .i32 | .i64 => true
  | _ => false

/-- BF16, FP32 and FP64. -/
def ElTy.isFloat : ElTy → Bool
  | .bf16 | .fp32 | .fp64 => true
  | _ => false

/-- What a slice is asked to do with one translated access (R289). -/
inductive AccessKind where
  | load | store | atomic | fill
  deriving DecidableEq, Repr

/-- One access of a context on its way to a slice: the context's key, the virtual address, its size in bytes, what it does and the
data of a store, little-endian. -/
structure AccessReq where
  k : Nat
  va : Nat
  size : Nat
  kind : AccessKind
  data : Nat
  deriving DecidableEq, Repr

/-- What CREATE_QUEUE fixes (R480). -/
structure QueueSpec where
  ring : Nat
  entries : Nat
  format : Nat
  level : Nat
  asid : Nat
  conc : Nat
  evq : Nat
  signal : Bool
  deriving DecidableEq, Repr

/-- What SET_ROUTE gives for one destination package: one link number for each plinth (R493). -/
structure RouteSpec where
  pkg : Nat
  links : List Nat
  deriving DecidableEq, Repr

/-- One constructor per row of spec/opcode_table.json: the encoded instructions in the table's order, those without operands after the
others, then the events. -/
inductive Instr where
  /-- ADD (R137): Adds two scalar registers modulo 2^64. -/
  | add (l : La) (d : Reg) (a : Reg) (b : Reg)
  /-- SUB (R137): Subtracts sB from sA modulo 2^64. -/
  | sub (l : La) (d : Reg) (a : Reg) (b : Reg)
  /-- MUL (R137): Writes the low 64 bits of the product. -/
  | mul (l : La) (d : Reg) (a : Reg) (b : Reg)
  /-- MULH (R137): Writes the high 64 bits of the signed 128-bit product. -/
  | mulh (l : La) (d : Reg) (a : Reg) (b : Reg)
  /-- MULHU (R137): Writes the high 64 bits of the unsigned 128-bit product. -/
  | mulhu (l : La) (d : Reg) (a : Reg) (b : Reg)
  /-- DIV (R138): Signed division truncated toward zero; traps 0x05 on a zero divisor. -/
  | div (l : La) (d : Reg) (a : Reg) (b : Reg)
  /-- DIVU (R138): Unsigned division; traps 0x05 on a zero divisor. -/
  | divu (l : La) (d : Reg) (a : Reg) (b : Reg)
  /-- REM (R138): Signed remainder with the sign of the dividend; traps 0x05 on a zero divisor. -/
  | rem (l : La) (d : Reg) (a : Reg) (b : Reg)
  /-- REMU (R138): Unsigned remainder; traps 0x05 on a zero divisor. -/
  | remu (l : La) (d : Reg) (a : Reg) (b : Reg)
  /-- AND (R137): Bitwise AND of two registers. -/
  | and (l : La) (d : Reg) (a : Reg) (b : Reg)
  /-- OR (R137): Bitwise OR of two registers. -/
  | or (l : La) (d : Reg) (a : Reg) (b : Reg)
  /-- XOR (R137): Bitwise XOR of two registers. -/
  | xor (l : La) (d : Reg) (a : Reg) (b : Reg)
  /-- ANDN (R137): Writes sA AND NOT sB. -/
  | andn (l : La) (d : Reg) (a : Reg) (b : Reg)
  /-- SHL (R137): Shifts left by sB[5:0]. -/
  | shl (l : La) (d : Reg) (a : Reg) (b : Reg)
  /-- SHR (R137): Logical shift right by sB[5:0]. -/
  | shr (l : La) (d : Reg) (a : Reg) (b : Reg)
  /-- SAR (R137): Arithmetic shift right by sB[5:0]. -/
  | sar (l : La) (d : Reg) (a : Reg) (b : Reg)
  /-- ROTR (R137): Rotates right by sB[5:0]. -/
  | rotr (l : La) (d : Reg) (a : Reg) (b : Reg)
  /-- MIN (R137): Signed minimum. -/
  | min (l : La) (d : Reg) (a : Reg) (b : Reg)
  /-- MAX (R137): Signed maximum. -/
  | max (l : La) (d : Reg) (a : Reg) (b : Reg)
  /-- MINU (R137): Unsigned minimum. -/
  | minu (l : La) (d : Reg) (a : Reg) (b : Reg)
  /-- MAXU (R137): Unsigned maximum. -/
  | maxu (l : La) (d : Reg) (a : Reg) (b : Reg)
  /-- SLT (R137): Writes 1 if sA is less than sB as signed values, else 0. -/
  | slt (l : La) (d : Reg) (a : Reg) (b : Reg)
  /-- SLTU (R137): Writes 1 if sA is less than sB as unsigned values, else 0. -/
  | sltu (l : La) (d : Reg) (a : Reg) (b : Reg)
  /-- SEQ (R137): Writes 1 if the two registers are equal, else 0. -/
  | seq (l : La) (d : Reg) (a : Reg) (b : Reg)
  /-- CLZ (R137): Counts leading zero bits; gives 64 for zero. -/
  | clz (l : La) (d : Reg) (a : Reg)
  /-- CTZ (R137): Counts trailing zero bits; gives 64 for zero. -/
  | ctz (l : La) (d : Reg) (a : Reg)
  /-- POPC (R137): Counts the set bits. -/
  | popc (l : La) (d : Reg) (a : Reg)
  /-- SEXT (R139): Sign-extends from a width of 8, 16 or 32 bits, given as a width code in the B field. -/
  | sext (l : La) (d : Reg) (a : Reg) (w : BitVec 5)
  /-- ZEXT (R139): Zero-extends from a width of 8, 16 or 32 bits, given as a width code in the B field. -/
  | zext (l : La) (d : Reg) (a : Reg) (w : BitVec 5)
  /-- BFX (R139): Extracts the bit field that the control word in sB describes. -/
  | bfx (l : La) (d : Reg) (a : Reg) (b : Reg)
  /-- BFI (R139): Inserts the low bits of sA into sD at the field that sB describes. -/
  | bfi (l : La) (d : Reg) (a : Reg) (b : Reg)
  /-- ADDSAT (R137): Adds two registers and clamps to the signed 64-bit range, setting no flag. -/
  | addsat (l : La) (d : Reg) (a : Reg) (b : Reg)
  /-- ADDI (R140): Adds a sign-extended 12-bit immediate. -/
  | addi (d : Reg) (a : Reg) (i : BitVec 12)
  /-- ANDI (R140): ANDs with a sign-extended 12-bit immediate. -/
  | andi (d : Reg) (a : Reg) (i : BitVec 12)
  /-- ORI (R140): ORs with a sign-extended 12-bit immediate. -/
  | ori (d : Reg) (a : Reg) (i : BitVec 12)
  /-- XORI (R140): XORs with a sign-extended 12-bit immediate. -/
  | xori (d : Reg) (a : Reg) (i : BitVec 12)
  /-- SLTI (R140): Signed compare against an immediate. -/
  | slti (d : Reg) (a : Reg) (i : BitVec 12)
  /-- SLTIU (R140): Unsigned compare against a sign-extended immediate. -/
  | sltiu (d : Reg) (a : Reg) (i : BitVec 12)
  /-- SHIFTI (R141): Shifts or rotates by an immediate amount, of the kind in IMM12[7:6]. -/
  | shifti (k : BitVec 2) (d : Reg) (a : Reg) (n : BitVec 6)
  /-- MULI (R140): Multiplies by a signed immediate and keeps the low 64 bits. -/
  | muli (d : Reg) (a : Reg) (i : BitVec 12)
  /-- LUI (R142): Writes the sign-extended 20-bit immediate shifted left by 12. -/
  | lui (d : Reg) (i : BitVec 20)
  /-- AUIPC (R142): Writes the instruction address plus the 20-bit immediate shifted left by 12. -/
  | auipc (d : Reg) (i : BitVec 20)
  /-- LD_B (R143): Loads a byte and sign-extends it. -/
  | ldB (l : La) (d : Reg) (a : Reg) (p : BitVec 8)
  /-- LD_BU (R143): Loads a byte and zero-extends it. -/
  | ldBu (l : La) (d : Reg) (a : Reg) (p : BitVec 8)
  /-- LD_H (R143): Loads a halfword and sign-extends it. -/
  | ldH (l : La) (d : Reg) (a : Reg) (p : BitVec 8)
  /-- LD_HU (R143): Loads a halfword and zero-extends it. -/
  | ldHu (l : La) (d : Reg) (a : Reg) (p : BitVec 8)
  /-- LD_W (R143): Loads a word and sign-extends it. -/
  | ldW (l : La) (d : Reg) (a : Reg) (p : BitVec 8)
  /-- LD_WU (R143): Loads a word and zero-extends it. -/
  | ldWu (l : La) (d : Reg) (a : Reg) (p : BitVec 8)
  /-- LD_D (R143): Loads a doubleword. -/
  | ldD (l : La) (d : Reg) (a : Reg) (p : BitVec 8)
  /-- ST_B (R144): Stores a byte. -/
  | stB (a : Reg) (s : Reg) (p : BitVec 8)
  /-- ST_H (R144): Stores a halfword. -/
  | stH (a : Reg) (s : Reg) (p : BitVec 8)
  /-- ST_W (R144): Stores a word. -/
  | stW (a : Reg) (s : Reg) (p : BitVec 8)
  /-- ST_D (R144): Stores a doubleword. -/
  | stD (a : Reg) (s : Reg) (p : BitVec 8)
  /-- BEQ (R147): Branches if the two registers are equal. -/
  | beq (a : Reg) (b : Reg) (p : BitVec 12)
  /-- BNE (R147): Branches if the two registers differ. -/
  | bne (a : Reg) (b : Reg) (p : BitVec 12)
  /-- BLT (R147): Branches if sA is less than sB, signed. -/
  | blt (a : Reg) (b : Reg) (p : BitVec 12)
  /-- BGE (R147): Branches if sA is greater than or equal to sB, signed. -/
  | bge (a : Reg) (b : Reg) (p : BitVec 12)
  /-- BLTU (R147): Branches if sA is less than sB, unsigned. -/
  | bltu (a : Reg) (b : Reg) (p : BitVec 12)
  /-- BGEU (R147): Branches if sA is greater than or equal to sB, unsigned. -/
  | bgeu (a : Reg) (b : Reg) (p : BitVec 12)
  /-- BKANY (R148): Branches if any bit of the mask register is set. -/
  | bkany (k : KReg) (p : BitVec 12)
  /-- BKNONE (R148): Branches if no bit of the mask register is set. -/
  | bknone (k : KReg) (p : BitVec 12)
  /-- JL (R149): Writes the link address and jumps PC-relative within 1 MiB. -/
  | jl (d : Reg) (i : BitVec 20)
  /-- JLR (R150): Jumps to the address in sA and links; an odd target traps 0x03. -/
  | jlr (d : Reg) (a : Reg)
  /-- FOLLOW (R226): Makes the issuing task context a follower of the named leader thread in a hoist. -/
  | follow (d : Reg) (a : Reg)
  /-- REJOIN (R228): Parks the context until its remembered leader's stream reaches the label, then follows again. -/
  | rejoin (d : Reg) (p : BitVec 10)
  /-- AMO_ADD (R321): Atomically adds to a doubleword and returns the old value. -/
  | amoAdd (l : La) (d : Reg) (a : Reg) (b : Reg)
  /-- AMO_AND (R321): Atomic AND returning the old value. -/
  | amoAnd (l : La) (d : Reg) (a : Reg) (b : Reg)
  /-- AMO_OR (R321): Atomic OR returning the old value. -/
  | amoOr (l : La) (d : Reg) (a : Reg) (b : Reg)
  /-- AMO_XOR (R321): Atomic XOR returning the old value. -/
  | amoXor (l : La) (d : Reg) (a : Reg) (b : Reg)
  /-- AMO_MIN (R321): Atomic signed minimum returning the old value. -/
  | amoMin (l : La) (d : Reg) (a : Reg) (b : Reg)
  /-- AMO_MAX (R321): Atomic signed maximum returning the old value. -/
  | amoMax (l : La) (d : Reg) (a : Reg) (b : Reg)
  /-- AMO_MINU (R321): Atomic unsigned minimum returning the old value. -/
  | amoMinu (l : La) (d : Reg) (a : Reg) (b : Reg)
  /-- AMO_MAXU (R321): Atomic unsigned maximum returning the old value. -/
  | amoMaxu (l : La) (d : Reg) (a : Reg) (b : Reg)
  /-- AMO_SWAP (R321): Atomically swaps a doubleword. -/
  | amoSwap (l : La) (d : Reg) (a : Reg) (b : Reg)
  /-- AMO_CAS (R321): Atomic compare-and-swap against the old value of sD. -/
  | amoCas (l : La) (d : Reg) (a : Reg) (b : Reg)
  /-- AMO_ADDN (R322): Atomically adds and sends a message to the notify destination when the result is zero. -/
  | amoAddn (l : La) (d : Reg) (a : Reg) (b : Reg)
  /-- LD_ACQ (R323): Acquire load of a doubleword. -/
  | ldAcq (l : La) (d : Reg) (a : Reg)
  /-- ST_REL (R323): Release store of a doubleword, performed at the home. -/
  | stRel (a : Reg) (b : Reg)
  /-- LD_SC (R323): Sequentially consistent load with a place in the total order S. -/
  | ldSc (l : La) (d : Reg) (a : Reg)
  /-- ST_SC (R323): Sequentially consistent store with a place in the total order S. -/
  | stSc (a : Reg) (b : Reg)
  /-- FENCE (R314): Waits for earlier accesses at the chosen scope and, for die scope or wider, acts as release and acquire. -/
  | fence (s : Reg)
  /-- CSRR (R154): Reads a CSR. -/
  | csrr (d : Reg) (c : BitVec 12)
  /-- CSRW (R154): Writes a CSR and returns its old value; this row also covers writes to CSRs that have no row of their own. -/
  | csrw (d : Reg) (a : Reg) (c : BitVec 12)
  /-- CSRSET (R154): Sets CSR bits and returns the old value; writes nothing when A = 0. -/
  | csrset (d : Reg) (a : Reg) (c : BitVec 12)
  /-- CSRCLR (R154): Clears CSR bits and returns the old value; writes nothing when A = 0. -/
  | csrclr (d : Reg) (a : Reg) (c : BitVec 12)
  /-- TRAP (R502): Raises program trap 0x14 with s[A] in TVAL. -/
  | trap (a : Reg)
  /-- SREPLY_RESUME (R504): Sends a RESUME reply to a faulting thread or unit. -/
  | sreplyResume (a : Reg)
  /-- SREPLY_SIGNAL (R504): Sends a SIGNAL reply to a faulting thread or unit. -/
  | sreplySignal (a : Reg)
  /-- SREPLY_KILL (R504): Sends a KILL reply to a faulting thread or unit. -/
  | sreplyKill (a : Reg)
  /-- BIASFLIP_HOST (R319): Flips the page holding s[A] to host bias. -/
  | biasflipHost (a : Reg)
  /-- BIASFLIP_DEVICE (R319): Flips the page holding s[A] to device bias. -/
  | biasflipDevice (a : Reg)
  /-- SPAWN (R243): Pushes the continuation onto the deque and enters the child. -/
  | spawn (a : Reg)
  /-- PUBF (R242): Publishes a snapshot of the frame at s[A]. -/
  | pubf (a : Reg)
  /-- DONATE (R257): Offers a frame to a donation queue of a package and returns a status. -/
  | donate (d : Reg) (a : Reg) (b : Reg)
  /-- JINIT (R246): Release-stores the initial value of a join counter. -/
  | jinit (a : Reg) (b : Reg)
  /-- JDEC (R246): Decrements a join counter as a release read-modify-write. -/
  | jdec (d : Reg) (a : Reg)
  /-- SEND (R216): Sends a message of up to 64 bytes to a core, thread, die or host destination. -/
  | send (a : Reg) (b : Reg) (v : Reg)
  /-- SENDM (R216): Sends one copy of a message to each masked core of a cluster on class 5. -/
  | sendm (a : Reg) (b : Reg) (v : Reg)
  /-- HSET (R222): Writes a handler-table entry. -/
  | hset (d : Reg) (a : Reg) (b : Reg)
  /-- HCLR (R222): Empties a handler-table entry. -/
  | hclr (a : Reg)
  /-- HOLD (R218): ORs classes into the context's hold mask. -/
  | hold (d : Reg) (a : Reg)
  /-- RELS (R218): Clears classes from the context's hold mask. -/
  | rels (d : Reg) (a : Reg)
  /-- HMASK (R224): Atomically clears and sets bits of HMASK. -/
  | hmask (d : Reg) (a : Reg) (b : Reg)
  /-- MBXW (R218): Takes a pending message of a held class, or parks until one arrives or the timeout passes. -/
  | mbxw (d : Reg) (a : Reg) (b : Reg)
  /-- BARA (R269): Arrives at a named barrier. -/
  | bara (d : Reg) (n : BitVec 5) (m : BitVec 1)
  /-- BARW (R269): Waits for the completion of the phase of the context's last arrival. -/
  | barw (d : Reg) (n : BitVec 5) (m : BitVec 1)
  /-- BARX (R269): Arrives with a new partition word and waits for the phase to complete. -/
  | barx (d : Reg) (n : BitVec 5) (m : BitVec 1)
  /-- TEAM (R265): Proposes a team and parks until it forms, fails or times out. -/
  | team (d : Reg) (a : Reg) (b : Reg)
  /-- GEOSUB (R273): Computes the core's tile counts and edge masks for an M×N×K problem. -/
  | geosub (d : Reg) (a : Reg) (b : Reg)
  /-- VLD (R172): Loads a vector register from scratch. -/
  | vld (t : ElTy) (k : KReg) (d : Reg) (a : Reg)
  /-- VST (R172): Stores a vector register to scratch. -/
  | vst (t : ElTy) (k : KReg) (d : Reg) (a : Reg)
  /-- VLDS (R172): Strided vector load from scratch. -/
  | vlds (t : ElTy) (k : KReg) (d : Reg) (a : Reg) (b : Reg)
  /-- VSTS (R172): Strided vector store to scratch. -/
  | vsts (t : ElTy) (k : KReg) (d : Reg) (a : Reg) (b : Reg)
  /-- VLDB (R172): Reads one element once and broadcasts it to every active element. -/
  | vldb (t : ElTy) (k : KReg) (d : Reg) (a : Reg)
  /-- VLDI (R172): Indexed vector load from scratch. -/
  | vldi (t : ElTy) (k : KReg) (d : Reg) (a : Reg) (b : Reg)
  /-- VSTI (R172): Indexed vector store to scratch. -/
  | vsti (t : ElTy) (k : KReg) (d : Reg) (a : Reg) (b : Reg)
  /-- VADD (R175): Element-wise integer add, wrapping. -/
  | vadd (t : ElTy) (k : KReg) (d : Reg) (a : Reg) (b : Reg)
  /-- VSUB (R175): Element-wise integer subtract. -/
  | vsub (t : ElTy) (k : KReg) (d : Reg) (a : Reg) (b : Reg)
  /-- VMUL (R175): Element-wise low product. -/
  | vmul (t : ElTy) (k : KReg) (d : Reg) (a : Reg) (b : Reg)
  /-- VMULH (R175): Element-wise high half of the signed product. -/
  | vmulh (t : ElTy) (k : KReg) (d : Reg) (a : Reg) (b : Reg)
  /-- VMIN (R175): Element-wise signed minimum. -/
  | vmin (t : ElTy) (k : KReg) (d : Reg) (a : Reg) (b : Reg)
  /-- VMAX (R175): Element-wise signed maximum. -/
  | vmax (t : ElTy) (k : KReg) (d : Reg) (a : Reg) (b : Reg)
  /-- VMINU (R175): Element-wise unsigned minimum. -/
  | vminu (t : ElTy) (k : KReg) (d : Reg) (a : Reg) (b : Reg)
  /-- VMAXU (R175): Element-wise unsigned maximum. -/
  | vmaxu (t : ElTy) (k : KReg) (d : Reg) (a : Reg) (b : Reg)
  /-- VABS (R175): Element-wise absolute value. -/
  | vabs (t : ElTy) (k : KReg) (d : Reg) (a : Reg)
  /-- VAND (R175): Element-wise AND. -/
  | vand (t : ElTy) (k : KReg) (d : Reg) (a : Reg) (b : Reg)
  /-- VOR (R175): Element-wise OR. -/
  | vor (t : ElTy) (k : KReg) (d : Reg) (a : Reg) (b : Reg)
  /-- VXOR (R175): Element-wise XOR. -/
  | vxor (t : ElTy) (k : KReg) (d : Reg) (a : Reg) (b : Reg)
  /-- VSHL (R175): Element-wise shift left. -/
  | vshl (t : ElTy) (k : KReg) (d : Reg) (a : Reg) (b : Reg)
  /-- VSHR (R175): Element-wise logical shift right. -/
  | vshr (t : ElTy) (k : KReg) (d : Reg) (a : Reg) (b : Reg)
  /-- VSAR (R175): Element-wise arithmetic shift right. -/
  | vsar (t : ElTy) (k : KReg) (d : Reg) (a : Reg) (b : Reg)
  /-- VCMP (R176): Integer compare of the elements into a mask register. -/
  | vcmp (t : ElTy) (k : KReg) (a : Reg) (b : Reg) (c : BitVec 3)
  /-- VFADD (R177): Element-wise floating-point add. -/
  | vfadd (t : ElTy) (k : KReg) (d : Reg) (a : Reg) (b : Reg)
  /-- VFSUB (R177): Element-wise floating-point subtract. -/
  | vfsub (t : ElTy) (k : KReg) (d : Reg) (a : Reg) (b : Reg)
  /-- VFMUL (R177): Element-wise floating-point multiply. -/
  | vfmul (t : ElTy) (k : KReg) (d : Reg) (a : Reg) (b : Reg)
  /-- VFDIV (R177): Element-wise correctly rounded division. -/
  | vfdiv (t : ElTy) (k : KReg) (d : Reg) (a : Reg) (b : Reg)
  /-- VFSQRT (R177): Element-wise square root. -/
  | vfsqrt (t : ElTy) (k : KReg) (d : Reg) (a : Reg)
  /-- VFMIN (R177): Element-wise floating-point minimum. -/
  | vfmin (t : ElTy) (k : KReg) (d : Reg) (a : Reg) (b : Reg)
  /-- VFMAX (R177): Element-wise floating-point maximum. -/
  | vfmax (t : ElTy) (k : KReg) (d : Reg) (a : Reg) (b : Reg)
  /-- VFABS (R177): Clears the sign of each element. -/
  | vfabs (t : ElTy) (k : KReg) (d : Reg) (a : Reg)
  /-- VFNEG (R177): Inverts the sign of each element. -/
  | vfneg (t : ElTy) (k : KReg) (d : Reg) (a : Reg)
  /-- VFCMP (R178): Floating-point compare of the elements into a mask register. -/
  | vfcmp (t : ElTy) (k : KReg) (a : Reg) (b : Reg) (c : BitVec 3)
  /-- VFRSQ (R177): Element-wise reciprocal square root. -/
  | vfrsq (t : ElTy) (k : KReg) (d : Reg) (a : Reg)
  /-- VFEXP2 (R177): Element-wise 2 to the power a. -/
  | vfexp2 (t : ElTy) (k : KReg) (d : Reg) (a : Reg)
  /-- VFLOG2 (R177): Element-wise base-2 logarithm. -/
  | vflog2 (t : ElTy) (k : KReg) (d : Reg) (a : Reg)
  /-- VFLSE (R177): Element-wise log2(2^a + 2^b). -/
  | vflse (t : ElTy) (k : KReg) (d : Reg) (a : Reg) (b : Reg)
  /-- VFRND (R179): Rounds each element to an integral value by the given rounding code. -/
  | vfrnd (t : ElTy) (k : KReg) (d : Reg) (a : Reg) (r : BitVec 2)
  /-- VFCLASS (R180): Classifies each element into a one-hot class word. -/
  | vfclass (t : ElTy) (k : KReg) (d : Reg) (a : Reg)
  /-- VCVT (R182): Converts elements between types under a control word. -/
  | vcvt (t : ElTy) (k : KReg) (d : Reg) (a : Reg) (b : Reg)
  /-- VBCAST (R181): Broadcasts a scalar to the active elements. -/
  | vbcast (t : ElTy) (k : KReg) (d : Reg) (a : Reg)
  /-- VEXT (R185): Extracts one element to a scalar register. -/
  | vext (t : ElTy) (d : Reg) (a : Reg) (b : Reg)
  /-- VINS (R185): Inserts a scalar into one element. -/
  | vins (t : ElTy) (d : Reg) (a : Reg) (b : Reg)
  /-- VIOTA (R181): Writes to each active element the count of set mask bits below it. -/
  | viota (t : ElTy) (k : KReg) (d : Reg)
  /-- VPACK (R186): Narrows two registers into one, or packs L6 codes. -/
  | vpack (t : ElTy) (k : KReg) (d : Reg) (a : Reg) (b : Reg)
  /-- VUNPK (R186): Widens one half of a register, or unpacks L6 codes. -/
  | vunpk (t : ElTy) (k : KReg) (d : Reg) (a : Reg) (h : BitVec 5)
  /-- VPERM (R187): Permutes elements by an index vector. -/
  | vperm (t : ElTy) (k : KReg) (d : Reg) (a : Reg) (b : Reg)
  /-- VSLIDE (R187): Slides elements by a scalar offset. -/
  | vslide (t : ElTy) (k : KReg) (d : Reg) (a : Reg) (b : Reg)
  /-- VSEL (R187): Selects each element from vA or vB by the mask. -/
  | vsel (t : ElTy) (k : KReg) (d : Reg) (a : Reg) (b : Reg)
  /-- VREDADD (R188): Integer sum reduction in a fixed tree. -/
  | vredadd (t : ElTy) (k : KReg) (d : Reg) (a : Reg)
  /-- VREDMIN (R188): Minimum reduction. -/
  | vredmin (t : ElTy) (k : KReg) (d : Reg) (a : Reg)
  /-- VREDMAX (R188): Maximum reduction. -/
  | vredmax (t : ElTy) (k : KReg) (d : Reg) (a : Reg)
  /-- VFREDADD (R188): Floating-point sum reduction in a fixed tree. -/
  | vfredadd (t : ElTy) (k : KReg) (d : Reg) (a : Reg)
  /-- VSCAN (R104): Serial inclusive prefix sum. -/
  | vscan (t : ElTy) (k : KReg) (d : Reg) (a : Reg)
  /-- VCOMPR (R189): Compresses the active elements to the low positions. -/
  | vcompr (t : ElTy) (k : KReg) (d : Reg) (a : Reg)
  /-- VEXPND (R189): Expands low elements into the active positions. -/
  | vexpnd (t : ElTy) (k : KReg) (d : Reg) (a : Reg)
  /-- KAND (R190): AND of two mask registers. -/
  | kand (d : KReg) (a : KReg) (b : KReg)
  /-- KOR (R190): OR of two mask registers. -/
  | kor (d : KReg) (a : KReg) (b : KReg)
  /-- KXOR (R190): XOR of two mask registers. -/
  | kxor (d : KReg) (a : KReg) (b : KReg)
  /-- KANDN (R190): kA AND NOT kB. -/
  | kandn (d : KReg) (a : KReg) (b : KReg)
  /-- KNOT (R190): NOT of a mask register. -/
  | knot (d : KReg) (a : KReg)
  /-- KFROM (R190): Copies a scalar register into a mask register. -/
  | kfrom (d : KReg) (a : Reg)
  /-- KTO (R190): Copies a mask register into a scalar register. -/
  | kto (d : Reg) (a : KReg)
  /-- KPOP (R190): Counts the set bits of a mask. -/
  | kpop (d : Reg) (a : KReg)
  /-- KFIRST (R190): Index of the lowest set mask bit, or 64. -/
  | kfirst (d : Reg) (a : KReg)
  /-- KFILL (R190): Sets the low s[A] bits of a mask. -/
  | kfill (d : KReg) (a : Reg)
  /-- MLEASE (R375): Requests the cluster matrix array for N commands and parks until the grant. -/
  | mlease (l : La) (d : Reg) (a : Reg)
  /-- MCLAIM (R384): Claims c free operand slots, or none. -/
  | mclaim (l : La) (d : Reg) (a : Reg)
  /-- MFREE (R388): Frees the owned operand slots in a mask. -/
  | mfree (a : Reg)
  /-- MZERO (R391): Writes the clean state to an accumulator tile. -/
  | mzero (l : La) (d : Reg)
  /-- MSTAT (R389): Reads the status of an operand slot. -/
  | mstat (l : La) (d : Reg) (a : Reg)
  /-- MWAIT (R390): Waits until the named slots have stopped filling and the context's commands and MSTC stores are done. -/
  | mwait (l : La) (d : Reg) (a : Reg)
  /-- SLD (R420): Reads the current value of a sparse coordinate. -/
  | sld (l : La) (d : Reg) (a : Reg) (b : Reg)
  /-- SST (R420): Stores a value at a sparse coordinate, inserting it, or deleting it when the value is zero. -/
  | sst (d : Reg) (a : Reg) (b : Reg)
  /-- SADD (R421): Indivisibly adds to the value of a sparse coordinate. -/
  | sadd (d : Reg) (a : Reg) (b : Reg)
  /-- SCLOSE (R433): Frees a cursor record. -/
  | sclose (a : Reg)
  /-- SSTAT (R434): Reads the node and coordinate counts of a shard or region. -/
  | sstat (l : La) (d : Reg) (a : Reg) (b : Reg)
  /-- LDG (R453): Loads a grid cell under a step tag; may wait for the halo or trap. -/
  | ldg (l : La) (d : Reg) (a : Reg) (b : Reg)
  /-- STG (R451): Writes an interior cell into the back slot under a tag. -/
  | stg (d : Reg) (a : Reg) (b : Reg)
  /-- GSTEP (R454): Commits K steps of a part and pushes its halo to the neighbours. -/
  | gstep (l : La) (d : Reg) (a : Reg) (b : Reg)
  /-- GWAIT (R457): Waits for every ghost segment of a part to hold a tag. -/
  | gwait (l : La) (d : Reg) (a : Reg) (b : Reg)
  /-- GSTAT (R458): Reads a part's state, its PSTRIDE or its ghost summary. -/
  | gstat (l : La) (d : Reg) (a : Reg) (b : Reg)
  /-- PREF (R326): Prefetches a line to the L1 or the slice. -/
  | pref (a : Reg) (b : Reg)
  /-- RES (R327): Marks the lines of a range resident at their slices. -/
  | res (a : Reg) (b : Reg)
  /-- UNRES (R327): Clears residency for a range. -/
  | unres (a : Reg) (b : Reg)
  /-- FLUSH (R328): Writes a line back from the L1s, or also home. -/
  | flush (a : Reg) (b : Reg)
  /-- INV (R329): Drops an L1 line, or translations of a page, an ASID or every ASID. -/
  | inv (a : Reg) (b : Reg)
  /-- DINV (R330): Drops descriptor-cache entries of a descriptor, or of the whole launch. -/
  | dinv (a : Reg)
  /-- COPY (R342): Engine copy of LEN bytes, counted on a completion counter. -/
  | copy (l : La) (d : Reg) (a : Reg) (n : BitVec 7)
  /-- COPYM (R342): Engine multicast copy into the private scratch of the masked cores. -/
  | copym (l : La) (d : Reg) (a : Reg) (n : BitVec 7)
  /-- GET (R342): Engine gather of indexed elements into a contiguous destination. -/
  | get (l : La) (d : Reg) (a : Reg) (n : BitVec 7)
  /-- PUT (R342): Engine scatter of contiguous elements to indexed destinations. -/
  | put (l : La) (d : Reg) (a : Reg) (n : BitVec 7)
  /-- DENSE (R435): Engine densifying copy of a sparse box. -/
  | dense (l : La) (d : Reg) (a : Reg) (n : BitVec 7)
  /-- CTRX (R348): Adds a total to a completion counter and arms it. -/
  | ctrx (l : La) (d : Reg) (a : Reg) (n : BitVec 7)
  /-- CTRW (R349): Waits for a counter's DONE, with a timeout. -/
  | ctrw (l : La) (d : Reg) (a : Reg) (n : BitVec 7)
  /-- CTRR (R350): Reads a counter word. -/
  | ctrr (l : La) (d : Reg) (n : BitVec 7)
  /-- CTRR_CLEAR (R350): Reads a counter word and resets the counter in one operation. -/
  | ctrrClear (l : La) (d : Reg) (n : BitVec 7)
  /-- MFMT (R378): Sets the core's format context after the queued commands complete. -/
  | mfmt (a : Reg)
  /-- MLDA (R386): Fills an operand slot with A rows. -/
  | mlda (a : Reg) (b : Reg) (c : Reg) (n : BitVec 4)
  /-- MLDB (R386): Fills an operand slot with B rows. -/
  | mldb (a : Reg) (b : Reg) (c : Reg) (n : BitVec 4)
  /-- MLDC (R392): Loads an accumulator tile raw from memory. -/
  | mldc (l : La) (d : Reg) (a : Reg) (b : Reg)
  /-- MMA (R396): Leased matrix multiply-accumulate of two slots into a tile. -/
  | mma (l : La) (d : Reg) (a : Reg) (b : Reg)
  /-- MSTC (R393): Leased store of a tile, raw or read out, under row and column masks. -/
  | mstc (d : Reg) (a : Reg) (b : Reg) (c : Reg) (r : BitVec 1)
  /-- MPROG (R397): Loads the core's microprogram. -/
  | mprog (a : Reg)
  /-- MRUN (R399): Leased run of the microprogram over two slots into a tile. -/
  | mrun (l : La) (d : Reg) (a : Reg) (b : Reg)
  /-- VFMA (R192): Fused multiply-add rounded once. -/
  | vfma (l : La) (t : ElTy) (k : KReg) (d : Reg) (a : Reg) (b : Reg) (c : Reg)
  /-- VFMS (R192): Fused multiply-subtract rounded once. -/
  | vfms (l : La) (t : ElTy) (k : KReg) (d : Reg) (a : Reg) (b : Reg) (c : Reg)
  /-- VMAD (R192): Integer multiply-add, wrapping or saturating. -/
  | vmad (l : La) (t : ElTy) (k : KReg) (d : Reg) (a : Reg) (b : Reg) (c : Reg) (r : BitVec 1)
  /-- VTOPK (R193): Selects the kk top-ranked active elements and their indices. -/
  | vtopk (l : La) (t : ElTy) (k : KReg) (d : Reg) (a : Reg) (c : Reg) (n : BitVec 7)
  /-- VGATHER (R195): Gathers elements from translated memory or scratch. -/
  | vgather (l : La) (t : ElTy) (k : KReg) (d : Reg) (a : Reg) (b : Reg)
  /-- VSCATTER (R196): Scatters elements in a check phase and then a write phase. -/
  | vscatter (t : ElTy) (k : KReg) (d : Reg) (a : Reg) (b : Reg)
  /-- VDOTL (R199): L6 dot products into eight W48 lanes. -/
  | vdotl (l : La) (k : KReg) (d : Reg) (a : Reg) (b : Reg) (c : Reg)
  /-- VDOTB (R200): BF16 dot products in groups of four into FP32 lanes. -/
  | vdotb (l : La) (k : KReg) (d : Reg) (a : Reg) (b : Reg) (c : Reg)
  /-- SDECL (R415): Declares a sparse region and initialises its pool header and roots. -/
  | sdecl (l : La) (d : Reg) (a : Reg)
  /-- SDECL_FREE (R416): Releases a sparse region and frees its nodes. -/
  | sdeclFree (a : Reg)
  /-- SITER (R429): Opens a cursor over a box of a region. -/
  | siter (l : La) (d : Reg) (a : Reg) (b : Reg)
  /-- SNEXT (R430): Returns the next batch of up to 16 coordinates of a cursor. -/
  | snext (l : La) (d : Reg) (a : Reg) (b : Reg) (c : Reg)
  /-- GDECL (R460): Declares a grid and initialises the parts owned on this package. -/
  | gdecl (l : La) (d : Reg) (a : Reg)
  /-- GDECL_FREE (R462): Releases a grid. -/
  | gdeclFree (a : Reg)
  /-- ADDI_N (R50): Compact ADDI of a 6-bit immediate to a register. -/
  | addiN (d : Reg) (i : BitVec 6)
  /-- LI_N (R50): Compact load of a small immediate. -/
  | liN (d : Reg) (i : BitVec 6)
  /-- SHLI_N (R50): Compact shift left by an immediate. -/
  | shliN (d : Reg) (i : BitVec 6)
  /-- ADD_N (R50): Compact ADD of a register into a register. -/
  | addN (d : Reg) (a : Reg)
  /-- SUB_N (R50): Compact SUB of a register from a register. -/
  | subN (d : Reg) (a : Reg)
  /-- MV_N (R50): Compact register move. -/
  | mvN (d : Reg) (a : Reg)
  /-- LDD_N (R50): Compact doubleword load from s1 to s8. -/
  | lddN (d : KReg) (a : KReg) (i : BitVec 5)
  /-- STD_N (R50): Compact doubleword store. -/
  | stdN (d : KReg) (a : KReg) (i : BitVec 5)
  /-- LDW_N (R50): Compact word load. -/
  | ldwN (d : KReg) (a : KReg) (i : BitVec 5)
  /-- STW_N (R50): Compact word store. -/
  | stwN (d : KReg) (a : KReg) (i : BitVec 5)
  /-- BEQZ_N (R50): Compact branch if a register is zero. -/
  | beqzN (a : KReg) (p : BitVec 8)
  /-- BNEZ_N (R50): Compact branch if a register is non-zero. -/
  | bnezN (a : KReg) (p : BitVec 8)
  /-- J_N (R50): Compact PC-relative jump. -/
  | jN (p : BitVec 11)
  /-- JR_N (R50): Compact jump to a register. -/
  | jrN (a : Reg)
  /-- LDSP_N (R50): Compact doubleword load relative to s30. -/
  | ldspN (d : Reg) (i : BitVec 6)
  /-- STSP_N (R50): Compact doubleword store relative to s30. -/
  | stspN (d : Reg) (i : BitVec 6)
  /-- LEAVE (R227): Ends a follower's following and resumes its own fetch after the LEAVE. -/
  | leave
  /-- YIELD (R152): Lets every other ready context of the core issue before this context issues again. -/
  | yield
  /-- NOP (R153): Does nothing. -/
  | nop
  /-- HINT (R153): Executes as NOP for any field values. Its D, A, B and LA fields may hold anything (R46) and are not kept. -/
  | hint
  /-- FENCE_SC (R315): Sequentially consistent fence with a place in the total order S. -/
  | fenceSc
  /-- ERET (R503): Returns from a trap handler, re-issuing the instruction at EPC and passing over the instructions marked in the skip mask. -/
  | eret
  /-- UIRET (R355): Returns from a completion handler to UIEPC and clears ACTIVE. -/
  | uiret
  /-- WFI (R505): Parks the context until a pending class, a completion interrupt, a held message or 64 µs. -/
  | wfi
  /-- SYNC (R245): Joins the children of the published frame, parking on its join counter. -/
  | sync
  /-- TASKEND (R244): Ends the running task: pops the deque, writes back tiles, decrements the parent's join counter, or ends the launch. -/
  | taskend
  /-- HRET (R225): Ends the handler and frees its context. -/
  | hret
  /-- MREL (R376): Ends or withdraws the core's lease. -/
  | mrel
  /-- RESULT_ARRIVAL (R56), an event: A long-latency result arrives and is written or held until its window closes. -/
  | resultArrival (k : Nat) (i : Nat)
  /-- TRAP_ENTRY (R498), an event: After outstanding instructions settle, the oldest fault is taken through the mode's vector. -/
  | trapEntry (k : Nat)
  /-- TRANSLATED_ACCESS (R289), an event: A slice receives a translated access, translates it and performs it. -/
  | translatedAccess (r : AccessReq)
  /-- PAGE_WALK (R287), an event: A walker, once free, walks the four-level page table. -/
  | pageWalk (die : Nat) (asid : Nat) (va : Nat)
  /-- PAGE_FAULT_ANSWER (R293), an event: A FAULT answer reaches the load-store unit, which posts a page-fault message or joins the outstanding fault. -/
  | pageFaultAnswer (k : Nat)
  /-- REPLY_RESUME (R293), an event: A RESUME reply reaches a thread: MBX.WAIT clears and the waiting accesses retry. -/
  | replyResume (k : Nat)
  /-- REPLY_SIGNAL (R293), an event: A SIGNAL reply makes the oldest waiting instruction trap with 0x13. -/
  | replySignal (k : Nat)
  /-- REPLY_KILL (R293), an event: A KILL reply ends the launch. -/
  | replyKill (k : Nat)
  /-- UNIT_FAULT_REPLY (R361), an event: A reply carrying a fault handle reaches a streamer, index engine or halo engine, which continues, fails or kills the faulted piece. -/
  | unitFaultReply (handle : Nat) (code : Nat)
  /-- RANGE_LOCK_GRANT (R358), an event: A waiting registration at the head of the range-lock table is granted its entries. -/
  | rangeLockGrant (die : Nat)
  /-- RENEWAL (R302), an event: A home renews a guest copy's lease and returns value, wts and rts. -/
  | renewal (k : Nat) (pa : Nat)
  /-- WRITE_BACK (R302), an event: A write-back reaches the home and sets the line's wts and rts. -/
  | writeBack (die : Nat) (line : Nat)
  /-- RECALL (R300), an event: The home recalls an owned line from the owning die. -/
  | recallLine (line : Nat)
  /-- OWNED_LINE_TIMEOUT (R300), an event: 1 µs after the first store since the last write-back, the owning slice writes the line home. -/
  | ownedLineTimeout (die : Nat) (line : Nat)
  /-- TOKEN_RETURN (R281), an event: A home returns a handshake token covering performed write packets, within 256 ns or at a fence's request. -/
  | tokenReturn (home : Nat) (src : Nat)
  /-- TOKEN_ARRIVAL (R282), an event: A token reaches the writing die and satisfies waiting fences and releases. -/
  | tokenArrival (home : Nat) (src : Nat)
  /-- LTIME_TICK (R303), an event: At each LTPERIOD multiple of TCLK every pts and the die's H advance by 1. -/
  | ltimeTick (die : Nat)
  /-- LINE_TIMESTAMP_VISIT (R305), an event: The home visits a line and resets a lagging wts and rts to H. -/
  | lineTimestampVisit (line : Nat)
  /-- SC_WINDOW_CLOSE (R315), an event: The notification network closes a 32-cycle window and stamps its SC operations. -/
  | scWindowClose (die : Nat)
  /-- SC_COMPLETION (R315), an event: An SC operation completes once TCLK passes the end of its window plus 12 ns. -/
  | scCompletion (k : Nat)
  /-- MESSAGE_ARRIVAL (R208), an event: A message is accepted into the receive store and is pended, bounced, parked or spilled. -/
  | messageArrival (core : Nat)
  /-- BOUNCE (R220), an event: A bounced message reaches the sender's core and pends as class 0 or is dropped. -/
  | bounce (core : Nat)
  /-- HANDLER_START (R213), an event: The selector starts the best pending class in the lowest free handler context. -/
  | handlerStart (core : Nat)
  /-- DISTRIBUTOR_OFFER (R215), an event: The die's message distributor offers a die-addressed message to worker cores from its pointer. -/
  | distributorOffer (die : Nat)
  /-- HOST_MESSAGE (R490), an event: A SEND to HOST is accepted and written as a MESSAGE event, or bounced with QUOTA. -/
  | hostMessage (evq : Nat)
  /-- FOLLOWER_EXECUTE (R229), an event: A follower executes a decoded instruction that the halyard delivered from its leader. -/
  | followerExecute (k : Nat)
  /-- STEAL_PROBE (R247), an event: The steal engine sends the next probe of its round to a victim. -/
  | stealProbe (core : Nat)
  /-- STEAL_CLAIM (R240), an event: A victim deque marks its oldest eligible PRESENT entry CLAIMED and sends the join-counter increment. -/
  | stealClaim (core : Nat)
  /-- CLAIM_INCREMENT_DONE (R240), an event: The claim's increment completes and the entry becomes STOLEN, or it faults and the claim is undone. -/
  | claimIncrementDone (core : Nat)
  /-- STEAL_DISPATCH (R248), an event: When the tiles have landed, the continuation is dispatched on the thief's reserved context. -/
  | stealDispatch (core : Nat)
  /-- STEAL_BACKOFF (R247), an event: BACKOFF × 64 ns after a failed round, the steal engine begins a new round. -/
  | stealBackoff (core : Nat)
  /-- ROOT_DISPATCH (R248), an event: The root frame is read and dispatched on context 0 of the root core. -/
  | rootDispatch (slot : Nat)
  /-- DONATION_ENTRY (R258), an event: A donated entry reaches its target queue and is accepted or refused. -/
  | donationEntry (q : Nat)
  /-- SYNC_WAKE (R252), an event: A counter's home wakes a parked SYNC with a class-7 message when the counter becomes 0. -/
  | syncWake (k : Nat)
  /-- SYNC_POLL (R252), an event: Every 256 ns a SYNC without a watch re-reads its counter. -/
  | syncPoll (k : Nat)
  /-- OVERFLOW_SPILL (R253), an event: The overflow engine spills entries of a full bounded queue to its ring. -/
  | overflowSpill (core : Nat) (kind : Nat)
  /-- OVERFLOW_REFILL (R254), an event: The overflow engine refills a queue's hardware part from its ring. -/
  | overflowRefill (core : Nat) (kind : Nat)
  /-- TEAM_TIMEOUT (R265), an event: A TEAM proposal's timeout passes and it ends with TIMEOUT. -/
  | teamTimeout (core : Nat)
  /-- BARX_RELEASE (R130), an event: After engines and L1 write-backs finish, the members' new partition words are applied. -/
  | barxRelease (cluster : Nat) (team : Nat) (b : Nat)
  /-- MBXW_TIMEOUT (R218), an event: A parked MBXW's timeout passes and it returns 0. -/
  | mbxwTimeout (k : Nat)
  /-- CTRW_TIMEOUT (R349), an event: A CTRW's timeout passes without DONE. -/
  | ctrwTimeout (k : Nat)
  /-- WFI_TIMEOUT (R505), an event: 64 µs after issue a parked WFI completes. -/
  | wfiTimeout (k : Nat)
  /-- COPY_SEGMENT (R342), an event: A streamer serves a COPY segment request. -/
  | copySegment (die : Nat) (unit : Nat)
  /-- COPYM_UNIT (R477), an event: A COPYM unit is read at its point of performance, merged where allowed, and multicast. -/
  | copymUnit (die : Nat) (unit : Nat)
  /-- GET_CHUNK (R363), an event: A streamer gathers a chunk of 16 elements in list order. -/
  | getChunk (die : Nat) (unit : Nat)
  /-- PUT_CHUNK (R363), an event: A streamer scatters a chunk of 16 elements in list order. -/
  | putChunk (die : Nat) (unit : Nat)
  /-- DENSE_SHARD (R435), an event: A shard's index engine writes the box elements of its shard. -/
  | denseShard (die : Nat)
  /-- BYTE_ACKNOWLEDGEMENT (R346), an event: An acknowledgement subtracts its bytes from the counter and raises CC-WTS. -/
  | byteAcknowledgement (core : Nat)
  /-- ENGINE_RESUME (R362), an event: A resume request continues a faulted piece from its fault offset. -/
  | engineResume (die : Nat) (unit : Nat)
  /-- COMPLETION_INTERRUPT (R353), an event: A pending counter interrupts its arming context once that context can take it. -/
  | completionInterrupt (k : Nat)
  /-- RESIDUAL_HOLD_SEND (R476), an event: When credit returns, a router sends a held multicast packet on its remaining branches. -/
  | residualHoldSend (cluster : Nat)
  /-- LEASE_GRANT (R374), an event: At a command boundary the array grants the oldest waiting lease. -/
  | leaseGrant (cluster : Nat)
  /-- LEASE_SPENT (R373), an event: A lease runs out of commands, cycles or idle time and becomes SPENT. -/
  | leaseSpent (core : Nat)
  /-- LEASED_COMMAND_START (R396), an event: A leased command starts in the array when the lease is HELD and its slots are READY. -/
  | leasedCommandStart (cluster : Nat)
  /-- LEASED_COMMAND_COMPLETE (R370), an event: A command completes, writes its tile and ORs its flags. -/
  | leasedCommandComplete (core : Nat)
  /-- SLOT_FILL_COMPLETE (R383), an event: A slot fill ends and the slot becomes READY or ERROR, or takes the next queued fill. -/
  | slotFillComplete (cluster : Nat) (slot : Nat)
  /-- INDEX_ENGINE_EVENT (R414), an event: The shard's index engine performs one sparse operation as one event. -/
  | indexEngineEvent (k : Nat)
  /-- ACCUMULATOR_SPILL (R424), an event: A hash-accumulator entry untouched for 4,096 cycles is spilled to its leaf. -/
  | accumulatorSpill (cluster : Nat) (i : Nat)
  /-- PART_HOME_EVENT (R450), an event: A part home performs one grid operation on a part. -/
  | partHomeEvent (k : Nat)
  /-- HALO_PUSH (R454), an event: Once its target slot is free, the halo engine pushes a segment and stamps it. -/
  | haloPush (die : Nat)
  /-- GRID_LOAD_TIMEOUT (R453), an event: A waiting LDG traps 0x07 once GTIMEOUT passes. -/
  | gridLoadTimeout (k : Nat)
  /-- GWAIT_TIMEOUT (R457), an event: A waiting GWAIT returns 0 once GTIMEOUT passes. -/
  | gwaitTimeout (k : Nat)
  /-- LTSET_WRITE (R304), an event: A write to LTSET sets the context's pts, clamped against H. -/
  | ltsetWrite (k : Nat) (x : Nat)
  /-- LTPERIOD_WRITE (R303), an event: A write to LTPERIOD reschedules the next tick. -/
  | ltperiodWrite (die : Nat) (x : Nat)
  /-- TEPC_WRITE (R500), an event: A write to TEPC or SEPC clears SKIP and closes the frozen windows. -/
  | tepcWrite (k : Nat) (x : Nat)
  /-- TAIL_WRITE (R481), an event: A doorbell TAIL store makes entries pending, or puts the queue in error. -/
  | tailWrite (q : Nat) (tail : Nat) (size : Nat)
  /-- QUEUE_ENTRY_READ (R483), an event: Queue firmware reads and checks a ring entry. -/
  | queueEntryRead (q : Nat)
  /-- PHASE_REREAD (R482), an event: Every 1 µs firmware re-reads an entry with a wrong PHASE, failing after 10 µs. -/
  | phaseReread (q : Nat)
  /-- QUEUE_BIND (R486), an event: Firmware binds the best pending queue's entry to a free slot. -/
  | queueBind
  /-- AGEING_QUANTUM (R486), an event: A full ageing quantum of a queue's age lowers its effective level. -/
  | ageingQuantum (q : Nat)
  /-- NOTBEFORE_PASSED (R486), an event: An entry's NOTBEFORE passes and its queue becomes pending. -/
  | notbeforePassed (q : Nat)
  /-- LIMIT_EXPIRY (R485), an event: A launch's LIMIT expires and it ends with cause 3. -/
  | limitExpiry (slot : Nat)
  /-- EVENT_VECTOR_SIGNAL (R489), an event: The event queue's MSI-X vector is signalled, at most once per 1 µs. -/
  | eventVectorSignal (evq : Nat)
  /-- EVENT_HEAD_ADVANCE (R490), an event: The host advances the event-queue head and held events are written. -/
  | eventHeadAdvance (evq : Nat) (head : Nat)
  /-- CREATE_QUEUE (R480), an event: Host command creating or resetting a user queue. -/
  | createQueue (seq : Nat) (q : Nat) (f : QueueSpec)
  /-- DESTROY_QUEUE (R491), an event: Host command destroying a queue and ending its launches. -/
  | destroyQueue (seq : Nat) (q : Nat)
  /-- CREATE_EVQ (R489), an event: Host command creating an event queue. -/
  | createEvq (seq : Nat) (evq : Nat) (base : Nat) (entries : Nat) (header : Nat) (vector : Nat)
  /-- SET_QUANTUM (R486), an event: Host command setting the ageing quantum. -/
  | setQuantum (seq : Nat) (ns : Nat)
  /-- SET_RESERVE (R485), an event: Host command setting the reserve map of SIGNAL clusters. -/
  | setReserve (seq : Nat) (die : Nat) (map : Nat)
  /-- END_LAUNCH (R255), an event: Host command ending a running or saved launch. -/
  | endLaunch (seq : Nat) (slot : Nat)
  /-- PREEMPT (R512), an event: Host command saving a launch in the fixed order of save steps. -/
  | preempt (seq : Nat) (slot : Nat) (area : Nat) (len : Nat)
  /-- RESTORE (R513), an event: Host command restoring a saved launch onto its clusters. -/
  | restore (seq : Nat) (slot : Nat)
  /-- BIASFLIP (R319), an event: Host command flipping a page's bias. -/
  | biasflip (seq : Nat) (page : Nat) (host : Bool)
  /-- SCRUB (R307), an event: Host command zeroing a page and clearing POISON on its lines. -/
  | scrub (seq : Nat) (page : Nat)
  /-- DIE_LOST (R307), an event: Host command declaring a die lost. -/
  | dieLost (seq : Nat) (die : Nat)
  /-- SET_CLOCK (R519), an event: Host command setting a die's clock. -/
  | setClock (seq : Nat) (die : Nat) (mhz : Nat)
  /-- SET_POWER (R517), an event: Host command moving a die between power states D0 to D3. -/
  | setPower (seq : Nat) (die : Nat) (state : Nat)
  /-- WARM_RESET (R514), an event: SET_POWER warm reset of a die. -/
  | warmReset (seq : Nat) (die : Nat)
  /-- CLUSTER_GATE (R519), an event: SET_POWER gating or ungating of one cluster. -/
  | clusterGate (seq : Nat) (cluster : Nat) (gate : Bool)
  /-- SET_ENVELOPE (R520), an event: SET_POWER setting the package power envelope. -/
  | setEnvelope (seq : Nat) (watts : Nat)
  /-- SET_PKGNUM (R491), an event: Host command setting the package number. -/
  | setPkgnum (seq : Nat) (n : Nat)
  /-- SET_ROUTE (R493), an event: Host command setting Kwaquin routes. -/
  | setRoute (seq : Nat) (f : RouteSpec)
  /-- SET_GM (R277), an event: Host command naming the grandmaster die and the system reference. -/
  | setGm (seq : Nat) (die : Nat) (sysref : Bool)
  /-- HOSTCMD (R491), an event: Host command posting a class-3 message to a service core. -/
  | hostcmd (seq : Nat) (core : Nat) (payload : Nat)
  /-- THERMAL_TRIP (R521), an event: A die sensor at 110 °C or above puts every die into D3 and ends every launch. -/
  | thermalTrip (sensor : Nat)
  /-- COOLANT_FLOW_TRIP (R521), an event: Coolant flow below its figure for 1 s trips the package. -/
  | coolantFlowTrip
  /-- BRING_UP (R524), an event: The package comes up through its ordered bring-up steps. -/
  | bringUp
  /-- ATTESTATION_REPORT (R527), an event: A nonce written to the mailbox yields a signed report. -/
  | attestationReport (nonce : Nat)
  /-- MONITOR_CONTROL_WRITE (R522), an event: A write to a monitor unit's control word sets EN, SOURCE, FILTER and FREEZE. -/
  | monitorControlWrite (die : Nat) (unit : Nat) (x : Nat)
  /-- MONITOR_CLEAR (R522), an event: Writing CLEAR zeroes MIN, MAX, COUNT, SUM and the bins. -/
  | monitorClear (die : Nat) (unit : Nat)
  /-- MONITOR_LEVEL_SAMPLE (R523), an event: Every 1 µs a level source takes a sample. -/
  | monitorLevelSample (die : Nat) (unit : Nat)
  /-- TREUT_EXCHANGE (R277), an event: Every 2^20 ns a die starts a two-step exchange with the grandmaster. -/
  | treutExchange (die : Nat)
  /-- TREUT_SYNC_RECEIVE (R277), an event: A die receives the grandmaster's Sync and stamps t2. -/
  | treutSyncReceive (die : Nat)
  /-- FOLLOW_UP_RECEIVE (R277), an event: A die receives the Follow_Up carrying t1. -/
  | followUpReceive (die : Nat)
  /-- DELAY_REQ_RECEIVE (R277), an event: The grandmaster receives a Delay_Req and returns t4. -/
  | delayReqReceive (die : Nat)
  /-- DELAY_RESP_RECEIVE (R277), an event: A die receives the Delay_Resp and slews to remove the offset. -/
  | delayRespReceive (die : Nat)
  /-- EXCHANGE_MISSED (R278), an event: An exchange period passes without a completed exchange; MISSED rises and LOSS sets at 3. -/
  | exchangeMissed (die : Nat)
  /-- LINK_RETRY (R492), an event: A Kwaquin beat fails its CRC and is retried. -/
  | linkRetry (link : Nat)
  /-- HOST_CXL_ACCESS (R479), an event: A host CXL.mem access to device memory arrives at the CXL port and is performed at the home slice of a device-bias page. -/
  | hostCxlAccess (store : Bool) (pa : Nat) (data : Nat)
  /-- HOST_WRITEBACK_COMPLETION (R319), an event: The host reports that it has written back and invalidated its cached lines of a page being flipped to device bias, and the stalled flip continues. -/
  | hostWritebackCompletion (page : Nat)
  deriving DecidableEq, Repr

/-- The events by themselves: what the agenda of a state may hold. Constructor for constructor the events of `Instr`. -/
inductive Event where
  | resultArrival (k : Nat) (i : Nat)
  | trapEntry (k : Nat)
  | translatedAccess (r : AccessReq)
  | pageWalk (die : Nat) (asid : Nat) (va : Nat)
  | pageFaultAnswer (k : Nat)
  | replyResume (k : Nat)
  | replySignal (k : Nat)
  | replyKill (k : Nat)
  | unitFaultReply (handle : Nat) (code : Nat)
  | rangeLockGrant (die : Nat)
  | renewal (k : Nat) (pa : Nat)
  | writeBack (die : Nat) (line : Nat)
  | recallLine (line : Nat)
  | ownedLineTimeout (die : Nat) (line : Nat)
  | tokenReturn (home : Nat) (src : Nat)
  | tokenArrival (home : Nat) (src : Nat)
  | ltimeTick (die : Nat)
  | lineTimestampVisit (line : Nat)
  | scWindowClose (die : Nat)
  | scCompletion (k : Nat)
  | messageArrival (core : Nat)
  | bounce (core : Nat)
  | handlerStart (core : Nat)
  | distributorOffer (die : Nat)
  | hostMessage (evq : Nat)
  | followerExecute (k : Nat)
  | stealProbe (core : Nat)
  | stealClaim (core : Nat)
  | claimIncrementDone (core : Nat)
  | stealDispatch (core : Nat)
  | stealBackoff (core : Nat)
  | rootDispatch (slot : Nat)
  | donationEntry (q : Nat)
  | syncWake (k : Nat)
  | syncPoll (k : Nat)
  | overflowSpill (core : Nat) (kind : Nat)
  | overflowRefill (core : Nat) (kind : Nat)
  | teamTimeout (core : Nat)
  | barxRelease (cluster : Nat) (team : Nat) (b : Nat)
  | mbxwTimeout (k : Nat)
  | ctrwTimeout (k : Nat)
  | wfiTimeout (k : Nat)
  | copySegment (die : Nat) (unit : Nat)
  | copymUnit (die : Nat) (unit : Nat)
  | getChunk (die : Nat) (unit : Nat)
  | putChunk (die : Nat) (unit : Nat)
  | denseShard (die : Nat)
  | byteAcknowledgement (core : Nat)
  | engineResume (die : Nat) (unit : Nat)
  | completionInterrupt (k : Nat)
  | residualHoldSend (cluster : Nat)
  | leaseGrant (cluster : Nat)
  | leaseSpent (core : Nat)
  | leasedCommandStart (cluster : Nat)
  | leasedCommandComplete (core : Nat)
  | slotFillComplete (cluster : Nat) (slot : Nat)
  | indexEngineEvent (k : Nat)
  | accumulatorSpill (cluster : Nat) (i : Nat)
  | partHomeEvent (k : Nat)
  | haloPush (die : Nat)
  | gridLoadTimeout (k : Nat)
  | gwaitTimeout (k : Nat)
  | ltsetWrite (k : Nat) (x : Nat)
  | ltperiodWrite (die : Nat) (x : Nat)
  | tepcWrite (k : Nat) (x : Nat)
  | tailWrite (q : Nat) (tail : Nat) (size : Nat)
  | queueEntryRead (q : Nat)
  | phaseReread (q : Nat)
  | queueBind
  | ageingQuantum (q : Nat)
  | notbeforePassed (q : Nat)
  | limitExpiry (slot : Nat)
  | eventVectorSignal (evq : Nat)
  | eventHeadAdvance (evq : Nat) (head : Nat)
  | createQueue (seq : Nat) (q : Nat) (f : QueueSpec)
  | destroyQueue (seq : Nat) (q : Nat)
  | createEvq (seq : Nat) (evq : Nat) (base : Nat) (entries : Nat) (header : Nat) (vector : Nat)
  | setQuantum (seq : Nat) (ns : Nat)
  | setReserve (seq : Nat) (die : Nat) (map : Nat)
  | endLaunch (seq : Nat) (slot : Nat)
  | preempt (seq : Nat) (slot : Nat) (area : Nat) (len : Nat)
  | restore (seq : Nat) (slot : Nat)
  | biasflip (seq : Nat) (page : Nat) (host : Bool)
  | scrub (seq : Nat) (page : Nat)
  | dieLost (seq : Nat) (die : Nat)
  | setClock (seq : Nat) (die : Nat) (mhz : Nat)
  | setPower (seq : Nat) (die : Nat) (state : Nat)
  | warmReset (seq : Nat) (die : Nat)
  | clusterGate (seq : Nat) (cluster : Nat) (gate : Bool)
  | setEnvelope (seq : Nat) (watts : Nat)
  | setPkgnum (seq : Nat) (n : Nat)
  | setRoute (seq : Nat) (f : RouteSpec)
  | setGm (seq : Nat) (die : Nat) (sysref : Bool)
  | hostcmd (seq : Nat) (core : Nat) (payload : Nat)
  | thermalTrip (sensor : Nat)
  | coolantFlowTrip
  | bringUp
  | attestationReport (nonce : Nat)
  | monitorControlWrite (die : Nat) (unit : Nat) (x : Nat)
  | monitorClear (die : Nat) (unit : Nat)
  | monitorLevelSample (die : Nat) (unit : Nat)
  | treutExchange (die : Nat)
  | treutSyncReceive (die : Nat)
  | followUpReceive (die : Nat)
  | delayReqReceive (die : Nat)
  | delayRespReceive (die : Nat)
  | exchangeMissed (die : Nat)
  | linkRetry (link : Nat)
  | hostCxlAccess (store : Bool) (pa : Nat) (data : Nat)
  | hostWritebackCompletion (page : Nat)
  deriving DecidableEq, Repr

end Sys2Proof
end

