-- ==== Sys2Proof/WellFormed.lean ====
section
/-! DEFINITION. Which instructions an encoding may hold (R52): element types an instruction accepts, codes in range, listed CSR numbers and
the reserved cases of the compact forms. No word encodes an event, so an event is never well-formed as an instruction. -/

namespace Sys2Proof

/-- The CSR numbers of R158. Every other number is reserved. -/
def Csr.listed (n : Nat) : Bool :=
  n ≤ 7 || (0x010 ≤ n && n ≤ 0x013) || (0x020 ≤ n && n ≤ 0x026) || (0x030 ≤ n && n ≤ 0x033) || n == 0x040 ||
    (0x050 ≤ n && n ≤ 0x053) || (0x100 ≤ n && n ≤ 0x103) || (0x110 ≤ n && n ≤ 0x115)

/-- An instruction that some word encodes (R52): every check on its fields that does not depend on the state. -/
def Instr.wellFormed : Instr → Bool
  | .add _ _ _ _ => true
  | .sub _ _ _ _ => true
  | .mul _ _ _ _ => true
  | .mulh _ _ _ _ => true
  | .mulhu _ _ _ _ => true
  | .div _ _ _ _ => true
  | .divu _ _ _ _ => true
  | .rem _ _ _ _ => true
  | .remu _ _ _ _ => true
  | .and _ _ _ _ => true
  | .or _ _ _ _ => true
  | .xor _ _ _ _ => true
  | .andn _ _ _ _ => true
  | .shl _ _ _ _ => true
  | .shr _ _ _ _ => true
  | .sar _ _ _ _ => true
  | .rotr _ _ _ _ => true
  | .min _ _ _ _ => true
  | .max _ _ _ _ => true
  | .minu _ _ _ _ => true
  | .maxu _ _ _ _ => true
  | .slt _ _ _ _ => true
  | .sltu _ _ _ _ => true
  | .seq _ _ _ _ => true
  | .clz _ _ _ => true
  | .ctz _ _ _ => true
  | .popc _ _ _ => true
  | .sext _ _ _ w => w.ule 2
  | .zext _ _ _ w => w.ule 2
  | .bfx _ _ _ _ => true
  | .bfi _ _ _ _ => true
  | .addsat _ _ _ _ => true
  | .addi _ _ _ => true
  | .andi _ _ _ => true
  | .ori _ _ _ => true
  | .xori _ _ _ => true
  | .slti _ _ _ => true
  | .sltiu _ _ _ => true
  | .shifti _ _ _ _ => true
  | .muli _ _ _ => true
  | .lui _ _ => true
  | .auipc _ _ => true
  | .ldB _ _ _ _ => true
  | .ldBu _ _ _ _ => true
  | .ldH _ _ _ _ => true
  | .ldHu _ _ _ _ => true
  | .ldW _ _ _ _ => true
  | .ldWu _ _ _ _ => true
  | .ldD _ _ _ _ => true
  | .stB _ _ _ => true
  | .stH _ _ _ => true
  | .stW _ _ _ => true
  | .stD _ _ _ => true
  | .beq _ _ _ => true
  | .bne _ _ _ => true
  | .blt _ _ _ => true
  | .bge _ _ _ => true
  | .bltu _ _ _ => true
  | .bgeu _ _ _ => true
  | .bkany _ _ => true
  | .bknone _ _ => true
  | .jl _ _ => true
  | .jlr _ _ => true
  | .follow _ _ => true
  | .leave => true
  | .rejoin _ _ => true
  | .yield => true
  | .nop => true
  | .hint => true
  | .amoAdd _ _ _ _ => true
  | .amoAnd _ _ _ _ => true
  | .amoOr _ _ _ _ => true
  | .amoXor _ _ _ _ => true
  | .amoMin _ _ _ _ => true
  | .amoMax _ _ _ _ => true
  | .amoMinu _ _ _ _ => true
  | .amoMaxu _ _ _ _ => true
  | .amoSwap _ _ _ _ => true
  | .amoCas _ _ _ _ => true
  | .amoAddn _ _ _ _ => true
  | .ldAcq _ _ _ => true
  | .stRel _ _ => true
  | .ldSc _ _ _ => true
  | .stSc _ _ => true
  | .fence s => s.ule 4
  | .fenceSc => true
  | .csrr _ c => Csr.listed c.toNat
  | .csrw _ _ c => Csr.listed c.toNat
  | .csrset _ _ c => Csr.listed c.toNat
  | .csrclr _ _ c => Csr.listed c.toNat
  | .trap _ => true
  | .eret => true
  | .uiret => true
  | .sreplyResume _ => true
  | .sreplySignal _ => true
  | .sreplyKill _ => true
  | .biasflipHost _ => true
  | .biasflipDevice _ => true
  | .wfi => true
  | .spawn _ => true
  | .sync => true
  | .pubf _ => true
  | .taskend => true
  | .donate _ _ _ => true
  | .jinit _ _ => true
  | .jdec _ _ => true
  | .send _ _ _ => true
  | .sendm _ _ _ => true
  | .hset _ _ _ => true
  | .hclr _ => true
  | .hold _ _ => true
  | .rels _ _ => true
  | .hmask _ _ _ => true
  | .hret => true
  | .mbxw _ _ _ => true
  | .bara _ _ _ => true
  | .barw _ _ _ => true
  | .barx _ _ _ => true
  | .team _ _ _ => true
  | .geosub _ _ _ => true
  | .vld _ _ _ _ => true
  | .vst _ _ _ _ => true
  | .vlds _ _ _ _ _ => true
  | .vsts _ _ _ _ _ => true
  | .vldb _ _ _ _ => true
  | .vldi _ _ _ _ _ => true
  | .vsti _ _ _ _ _ => true
  | .vadd t _ _ _ _ => t.isInt
  | .vsub t _ _ _ _ => t.isInt
  | .vmul t _ _ _ _ => t.isInt
  | .vmulh t _ _ _ _ => t.isInt
  | .vmin t _ _ _ _ => t.isInt
  | .vmax t _ _ _ _ => t.isInt
  | .vminu t _ _ _ _ => t.isInt
  | .vmaxu t _ _ _ _ => t.isInt
  | .vabs t _ _ _ => t.isInt
  | .vand t _ _ _ _ => t.isInt
  | .vor t _ _ _ _ => t.isInt
  | .vxor t _ _ _ _ => t.isInt
  | .vshl t _ _ _ _ => t.isInt
  | .vshr t _ _ _ _ => t.isInt
  | .vsar t _ _ _ _ => t.isInt
  | .vcmp t _ _ _ _ => t.isInt
  | .vfadd t _ _ _ _ => t.isFloat
  | .vfsub t _ _ _ _ => t.isFloat
  | .vfmul t _ _ _ _ => t.isFloat
  | .vfdiv t _ _ _ _ => t.isFloat
  | .vfsqrt t _ _ _ => t.isFloat
  | .vfmin t _ _ _ _ => t.isFloat
  | .vfmax t _ _ _ _ => t.isFloat
  | .vfabs t _ _ _ => t.isFloat
  | .vfneg t _ _ _ => t.isFloat
  | .vfcmp t _ _ _ _ => t.isFloat
  | .vfrsq t _ _ _ => t.isFloat
  | .vfexp2 t _ _ _ => t.isFloat
  | .vflog2 t _ _ _ => t.isFloat
  | .vflse t _ _ _ _ => t.isFloat
  | .vfrnd t _ _ _ _ => t.isFloat
  | .vfclass t _ _ _ => t.isFloat
  | .vcvt _ _ _ _ _ => true
  | .vbcast _ _ _ _ => true
  | .vext _ _ _ _ => true
  | .vins _ _ _ _ => true
  | .viota t _ _ => t.isInt
  | .vpack t k _ _ b => (t == .i8 || t == .i16 || t == .i32 || (t == .l6 && b == 0 && k == 0))
  | .vunpk t k _ _ h => ((t == .i16 || t == .i32 || t == .i64) && h.ule 1 || (t == .l6 && h == 0 && k == 0))
  | .vperm _ _ _ _ _ => true
  | .vslide _ _ _ _ _ => true
  | .vsel _ _ _ _ _ => true
  | .vredadd t _ _ _ => t.isInt
  | .vredmin t _ _ _ => (t.isInt || t.isFloat)
  | .vredmax t _ _ _ => (t.isInt || t.isFloat)
  | .vfredadd t _ _ _ => t.isFloat
  | .vscan t _ _ _ => (t.isInt || t == .fp32 || t == .fp64)
  | .vcompr _ _ _ _ => true
  | .vexpnd _ _ _ _ => true
  | .kand _ _ _ => true
  | .kor _ _ _ => true
  | .kxor _ _ _ => true
  | .kandn _ _ _ => true
  | .knot _ _ => true
  | .kfrom _ _ => true
  | .kto _ _ => true
  | .kpop _ _ => true
  | .kfirst _ _ => true
  | .kfill _ _ => true
  | .mlease _ _ _ => true
  | .mrel => true
  | .mclaim _ _ _ => true
  | .mfree _ => true
  | .mzero _ _ => true
  | .mstat _ _ _ => true
  | .mwait _ _ _ => true
  | .sld _ _ _ _ => true
  | .sst _ _ _ => true
  | .sadd _ _ _ => true
  | .sclose _ => true
  | .sstat _ _ _ _ => true
  | .ldg _ _ _ _ => true
  | .stg _ _ _ => true
  | .gstep _ _ _ _ => true
  | .gwait _ _ _ _ => true
  | .gstat _ _ _ _ => true
  | .pref _ b => b.ule 1
  | .res _ _ => true
  | .unres _ _ => true
  | .flush _ b => b.ule 1
  | .inv _ b => b.ule 3
  | .dinv _ => true
  | .copy _ _ _ _ => true
  | .copym _ _ _ _ => true
  | .get _ _ _ _ => true
  | .put _ _ _ _ => true
  | .dense _ _ _ _ => true
  | .ctrx _ _ _ _ => true
  | .ctrw _ _ _ _ => true
  | .ctrr _ _ _ => true
  | .ctrrClear _ _ _ => true
  | .mfmt _ => true
  | .mlda _ _ _ _ => true
  | .mldb _ _ _ _ => true
  | .mldc _ _ _ _ => true
  | .mma _ _ _ _ => true
  | .mstc _ _ _ _ _ => true
  | .mprog _ => true
  | .mrun _ _ _ _ => true
  | .vfma _ t _ _ _ _ _ => t.isFloat
  | .vfms _ t _ _ _ _ _ => t.isFloat
  | .vmad _ t _ _ _ _ _ _ => t.isInt
  | .vtopk _ t _ _ _ _ n => ((t.isInt || t.isFloat) && n != 0 && decide (n.toNat ≤ t.lanes))
  | .vgather _ _ _ _ _ _ => true
  | .vscatter _ _ _ _ _ => true
  | .vdotl _ _ _ _ _ _ => true
  | .vdotb _ _ _ _ _ _ => true
  | .sdecl _ _ _ => true
  | .sdeclFree _ => true
  | .siter _ _ _ _ => true
  | .snext _ _ _ _ _ => true
  | .gdecl _ _ _ => true
  | .gdeclFree _ => true
  | .addiN d _ => d != 0
  | .liN d _ => d != 0
  | .shliN d _ => d != 0
  | .addN d _ => d != 0
  | .subN d _ => d != 0
  | .mvN d _ => d != 0
  | .lddN _ _ _ => true
  | .stdN _ _ _ => true
  | .ldwN _ _ _ => true
  | .stwN _ _ _ => true
  | .beqzN _ _ => true
  | .bnezN _ _ => true
  | .jN _ => true
  | .jrN a => a != 0
  | .ldspN d _ => d != 0
  | .stspN _ _ => true
  | .resultArrival _ _ => false
  | .trapEntry _ => false
  | .translatedAccess _ => false
  | .pageWalk _ _ _ => false
  | .pageFaultAnswer _ => false
  | .replyResume _ => false
  | .replySignal _ => false
  | .replyKill _ => false
  | .unitFaultReply _ _ => false
  | .rangeLockGrant _ => false
  | .renewal _ _ => false
  | .writeBack _ _ => false
  | .recallLine _ => false
  | .ownedLineTimeout _ _ => false
  | .tokenReturn _ _ => false
  | .tokenArrival _ _ => false
  | .ltimeTick _ => false
  | .lineTimestampVisit _ => false
  | .scWindowClose _ => false
  | .scCompletion _ => false
  | .messageArrival _ => false
  | .bounce _ => false
  | .handlerStart _ => false
  | .distributorOffer _ => false
  | .hostMessage _ => false
  | .followerExecute _ => false
  | .stealProbe _ => false
  | .stealClaim _ => false
  | .claimIncrementDone _ => false
  | .stealDispatch _ => false
  | .stealBackoff _ => false
  | .rootDispatch _ => false
  | .donationEntry _ => false
  | .syncWake _ => false
  | .syncPoll _ => false
  | .overflowSpill _ _ => false
  | .overflowRefill _ _ => false
  | .teamTimeout _ => false
  | .barxRelease _ _ _ => false
  | .mbxwTimeout _ => false
  | .ctrwTimeout _ => false
  | .wfiTimeout _ => false
  | .copySegment _ _ => false
  | .copymUnit _ _ => false
  | .getChunk _ _ => false
  | .putChunk _ _ => false
  | .denseShard _ => false
  | .byteAcknowledgement _ => false
  | .engineResume _ _ => false
  | .completionInterrupt _ => false
  | .residualHoldSend _ => false
  | .leaseGrant _ => false
  | .leaseSpent _ => false
  | .leasedCommandStart _ => false
  | .leasedCommandComplete _ => false
  | .slotFillComplete _ _ => false
  | .indexEngineEvent _ => false
  | .accumulatorSpill _ _ => false
  | .partHomeEvent _ => false
  | .haloPush _ => false
  | .gridLoadTimeout _ => false
  | .gwaitTimeout _ => false
  | .ltsetWrite _ _ => false
  | .ltperiodWrite _ _ => false
  | .tepcWrite _ _ => false
  | .tailWrite _ _ _ => false
  | .queueEntryRead _ => false
  | .phaseReread _ => false
  | .queueBind => false
  | .ageingQuantum _ => false
  | .notbeforePassed _ => false
  | .limitExpiry _ => false
  | .eventVectorSignal _ => false
  | .eventHeadAdvance _ _ => false
  | .createQueue _ _ _ => false
  | .destroyQueue _ _ => false
  | .createEvq _ _ _ _ _ _ => false
  | .setQuantum _ _ => false
  | .setReserve _ _ _ => false
  | .endLaunch _ _ => false
  | .preempt _ _ _ _ => false
  | .restore _ _ => false
  | .biasflip _ _ _ => false
  | .scrub _ _ => false
  | .dieLost _ _ => false
  | .setClock _ _ _ => false
  | .setPower _ _ _ => false
  | .warmReset _ _ => false
  | .clusterGate _ _ _ => false
  | .setEnvelope _ _ => false
  | .setPkgnum _ _ => false
  | .setRoute _ _ => false
  | .setGm _ _ _ => false
  | .hostcmd _ _ _ => false
  | .thermalTrip _ => false
  | .coolantFlowTrip => false
  | .bringUp => false
  | .attestationReport _ => false
  | .monitorControlWrite _ _ _ => false
  | .monitorClear _ _ => false
  | .monitorLevelSample _ _ => false
  | .treutExchange _ => false
  | .treutSyncReceive _ => false
  | .followUpReceive _ => false
  | .delayReqReceive _ => false
  | .delayRespReceive _ => false
  | .exchangeMissed _ => false
  | .linkRetry _ => false
  | .hostCxlAccess _ _ _ => false
  | .hostWritebackCompletion _ => false

/-- An event row of the opcode table: something that happens at a unit of the machine, which no word encodes. -/
def Instr.isEvent : Instr → Bool
  | .add _ _ _ _ => false
  | .sub _ _ _ _ => false
  | .mul _ _ _ _ => false
  | .mulh _ _ _ _ => false
  | .mulhu _ _ _ _ => false
  | .div _ _ _ _ => false
  | .divu _ _ _ _ => false
  | .rem _ _ _ _ => false
  | .remu _ _ _ _ => false
  | .and _ _ _ _ => false
  | .or _ _ _ _ => false
  | .xor _ _ _ _ => false
  | .andn _ _ _ _ => false
  | .shl _ _ _ _ => false
  | .shr _ _ _ _ => false
  | .sar _ _ _ _ => false
  | .rotr _ _ _ _ => false
  | .min _ _ _ _ => false
  | .max _ _ _ _ => false
  | .minu _ _ _ _ => false
  | .maxu _ _ _ _ => false
  | .slt _ _ _ _ => false
  | .sltu _ _ _ _ => false
  | .seq _ _ _ _ => false
  | .clz _ _ _ => false
  | .ctz _ _ _ => false
  | .popc _ _ _ => false
  | .sext _ _ _ _ => false
  | .zext _ _ _ _ => false
  | .bfx _ _ _ _ => false
  | .bfi _ _ _ _ => false
  | .addsat _ _ _ _ => false
  | .addi _ _ _ => false
  | .andi _ _ _ => false
  | .ori _ _ _ => false
  | .xori _ _ _ => false
  | .slti _ _ _ => false
  | .sltiu _ _ _ => false
  | .shifti _ _ _ _ => false
  | .muli _ _ _ => false
  | .lui _ _ => false
  | .auipc _ _ => false
  | .ldB _ _ _ _ => false
  | .ldBu _ _ _ _ => false
  | .ldH _ _ _ _ => false
  | .ldHu _ _ _ _ => false
  | .ldW _ _ _ _ => false
  | .ldWu _ _ _ _ => false
  | .ldD _ _ _ _ => false
  | .stB _ _ _ => false
  | .stH _ _ _ => false
  | .stW _ _ _ => false
  | .stD _ _ _ => false
  | .beq _ _ _ => false
  | .bne _ _ _ => false
  | .blt _ _ _ => false
  | .bge _ _ _ => false
  | .bltu _ _ _ => false
  | .bgeu _ _ _ => false
  | .bkany _ _ => false
  | .bknone _ _ => false
  | .jl _ _ => false
  | .jlr _ _ => false
  | .follow _ _ => false
  | .leave => false
  | .rejoin _ _ => false
  | .yield => false
  | .nop => false
  | .hint => false
  | .amoAdd _ _ _ _ => false
  | .amoAnd _ _ _ _ => false
  | .amoOr _ _ _ _ => false
  | .amoXor _ _ _ _ => false
  | .amoMin _ _ _ _ => false
  | .amoMax _ _ _ _ => false
  | .amoMinu _ _ _ _ => false
  | .amoMaxu _ _ _ _ => false
  | .amoSwap _ _ _ _ => false
  | .amoCas _ _ _ _ => false
  | .amoAddn _ _ _ _ => false
  | .ldAcq _ _ _ => false
  | .stRel _ _ => false
  | .ldSc _ _ _ => false
  | .stSc _ _ => false
  | .fence _ => false
  | .fenceSc => false
  | .csrr _ _ => false
  | .csrw _ _ _ => false
  | .csrset _ _ _ => false
  | .csrclr _ _ _ => false
  | .trap _ => false
  | .eret => false
  | .uiret => false
  | .sreplyResume _ => false
  | .sreplySignal _ => false
  | .sreplyKill _ => false
  | .biasflipHost _ => false
  | .biasflipDevice _ => false
  | .wfi => false
  | .spawn _ => false
  | .sync => false
  | .pubf _ => false
  | .taskend => false
  | .donate _ _ _ => false
  | .jinit _ _ => false
  | .jdec _ _ => false
  | .send _ _ _ => false
  | .sendm _ _ _ => false
  | .hset _ _ _ => false
  | .hclr _ => false
  | .hold _ _ => false
  | .rels _ _ => false
  | .hmask _ _ _ => false
  | .hret => false
  | .mbxw _ _ _ => false
  | .bara _ _ _ => false
  | .barw _ _ _ => false
  | .barx _ _ _ => false
  | .team _ _ _ => false
  | .geosub _ _ _ => false
  | .vld _ _ _ _ => false
  | .vst _ _ _ _ => false
  | .vlds _ _ _ _ _ => false
  | .vsts _ _ _ _ _ => false
  | .vldb _ _ _ _ => false
  | .vldi _ _ _ _ _ => false
  | .vsti _ _ _ _ _ => false
  | .vadd _ _ _ _ _ => false
  | .vsub _ _ _ _ _ => false
  | .vmul _ _ _ _ _ => false
  | .vmulh _ _ _ _ _ => false
  | .vmin _ _ _ _ _ => false
  | .vmax _ _ _ _ _ => false
  | .vminu _ _ _ _ _ => false
  | .vmaxu _ _ _ _ _ => false
  | .vabs _ _ _ _ => false
  | .vand _ _ _ _ _ => false
  | .vor _ _ _ _ _ => false
  | .vxor _ _ _ _ _ => false
  | .vshl _ _ _ _ _ => false
  | .vshr _ _ _ _ _ => false
  | .vsar _ _ _ _ _ => false
  | .vcmp _ _ _ _ _ => false
  | .vfadd _ _ _ _ _ => false
  | .vfsub _ _ _ _ _ => false
  | .vfmul _ _ _ _ _ => false
  | .vfdiv _ _ _ _ _ => false
  | .vfsqrt _ _ _ _ => false
  | .vfmin _ _ _ _ _ => false
  | .vfmax _ _ _ _ _ => false
  | .vfabs _ _ _ _ => false
  | .vfneg _ _ _ _ => false
  | .vfcmp _ _ _ _ _ => false
  | .vfrsq _ _ _ _ => false
  | .vfexp2 _ _ _ _ => false
  | .vflog2 _ _ _ _ => false
  | .vflse _ _ _ _ _ => false
  | .vfrnd _ _ _ _ _ => false
  | .vfclass _ _ _ _ => false
  | .vcvt _ _ _ _ _ => false
  | .vbcast _ _ _ _ => false
  | .vext _ _ _ _ => false
  | .vins _ _ _ _ => false
  | .viota _ _ _ => false
  | .vpack _ _ _ _ _ => false
  | .vunpk _ _ _ _ _ => false
  | .vperm _ _ _ _ _ => false
  | .vslide _ _ _ _ _ => false
  | .vsel _ _ _ _ _ => false
  | .vredadd _ _ _ _ => false
  | .vredmin _ _ _ _ => false
  | .vredmax _ _ _ _ => false
  | .vfredadd _ _ _ _ => false
  | .vscan _ _ _ _ => false
  | .vcompr _ _ _ _ => false
  | .vexpnd _ _ _ _ => false
  | .kand _ _ _ => false
  | .kor _ _ _ => false
  | .kxor _ _ _ => false
  | .kandn _ _ _ => false
  | .knot _ _ => false
  | .kfrom _ _ => false
  | .kto _ _ => false
  | .kpop _ _ => false
  | .kfirst _ _ => false
  | .kfill _ _ => false
  | .mlease _ _ _ => false
  | .mrel => false
  | .mclaim _ _ _ => false
  | .mfree _ => false
  | .mzero _ _ => false
  | .mstat _ _ _ => false
  | .mwait _ _ _ => false
  | .sld _ _ _ _ => false
  | .sst _ _ _ => false
  | .sadd _ _ _ => false
  | .sclose _ => false
  | .sstat _ _ _ _ => false
  | .ldg _ _ _ _ => false
  | .stg _ _ _ => false
  | .gstep _ _ _ _ => false
  | .gwait _ _ _ _ => false
  | .gstat _ _ _ _ => false
  | .pref _ _ => false
  | .res _ _ => false
  | .unres _ _ => false
  | .flush _ _ => false
  | .inv _ _ => false
  | .dinv _ => false
  | .copy _ _ _ _ => false
  | .copym _ _ _ _ => false
  | .get _ _ _ _ => false
  | .put _ _ _ _ => false
  | .dense _ _ _ _ => false
  | .ctrx _ _ _ _ => false
  | .ctrw _ _ _ _ => false
  | .ctrr _ _ _ => false
  | .ctrrClear _ _ _ => false
  | .mfmt _ => false
  | .mlda _ _ _ _ => false
  | .mldb _ _ _ _ => false
  | .mldc _ _ _ _ => false
  | .mma _ _ _ _ => false
  | .mstc _ _ _ _ _ => false
  | .mprog _ => false
  | .mrun _ _ _ _ => false
  | .vfma _ _ _ _ _ _ _ => false
  | .vfms _ _ _ _ _ _ _ => false
  | .vmad _ _ _ _ _ _ _ _ => false
  | .vtopk _ _ _ _ _ _ _ => false
  | .vgather _ _ _ _ _ _ => false
  | .vscatter _ _ _ _ _ => false
  | .vdotl _ _ _ _ _ _ => false
  | .vdotb _ _ _ _ _ _ => false
  | .sdecl _ _ _ => false
  | .sdeclFree _ => false
  | .siter _ _ _ _ => false
  | .snext _ _ _ _ _ => false
  | .gdecl _ _ _ => false
  | .gdeclFree _ => false
  | .addiN _ _ => false
  | .liN _ _ => false
  | .shliN _ _ => false
  | .addN _ _ => false
  | .subN _ _ => false
  | .mvN _ _ => false
  | .lddN _ _ _ => false
  | .stdN _ _ _ => false
  | .ldwN _ _ _ => false
  | .stwN _ _ _ => false
  | .beqzN _ _ => false
  | .bnezN _ _ => false
  | .jN _ => false
  | .jrN _ => false
  | .ldspN _ _ => false
  | .stspN _ _ => false
  | .resultArrival _ _ => true
  | .trapEntry _ => true
  | .translatedAccess _ => true
  | .pageWalk _ _ _ => true
  | .pageFaultAnswer _ => true
  | .replyResume _ => true
  | .replySignal _ => true
  | .replyKill _ => true
  | .unitFaultReply _ _ => true
  | .rangeLockGrant _ => true
  | .renewal _ _ => true
  | .writeBack _ _ => true
  | .recallLine _ => true
  | .ownedLineTimeout _ _ => true
  | .tokenReturn _ _ => true
  | .tokenArrival _ _ => true
  | .ltimeTick _ => true
  | .lineTimestampVisit _ => true
  | .scWindowClose _ => true
  | .scCompletion _ => true
  | .messageArrival _ => true
  | .bounce _ => true
  | .handlerStart _ => true
  | .distributorOffer _ => true
  | .hostMessage _ => true
  | .followerExecute _ => true
  | .stealProbe _ => true
  | .stealClaim _ => true
  | .claimIncrementDone _ => true
  | .stealDispatch _ => true
  | .stealBackoff _ => true
  | .rootDispatch _ => true
  | .donationEntry _ => true
  | .syncWake _ => true
  | .syncPoll _ => true
  | .overflowSpill _ _ => true
  | .overflowRefill _ _ => true
  | .teamTimeout _ => true
  | .barxRelease _ _ _ => true
  | .mbxwTimeout _ => true
  | .ctrwTimeout _ => true
  | .wfiTimeout _ => true
  | .copySegment _ _ => true
  | .copymUnit _ _ => true
  | .getChunk _ _ => true
  | .putChunk _ _ => true
  | .denseShard _ => true
  | .byteAcknowledgement _ => true
  | .engineResume _ _ => true
  | .completionInterrupt _ => true
  | .residualHoldSend _ => true
  | .leaseGrant _ => true
  | .leaseSpent _ => true
  | .leasedCommandStart _ => true
  | .leasedCommandComplete _ => true
  | .slotFillComplete _ _ => true
  | .indexEngineEvent _ => true
  | .accumulatorSpill _ _ => true
  | .partHomeEvent _ => true
  | .haloPush _ => true
  | .gridLoadTimeout _ => true
  | .gwaitTimeout _ => true
  | .ltsetWrite _ _ => true
  | .ltperiodWrite _ _ => true
  | .tepcWrite _ _ => true
  | .tailWrite _ _ _ => true
  | .queueEntryRead _ => true
  | .phaseReread _ => true
  | .queueBind => true
  | .ageingQuantum _ => true
  | .notbeforePassed _ => true
  | .limitExpiry _ => true
  | .eventVectorSignal _ => true
  | .eventHeadAdvance _ _ => true
  | .createQueue _ _ _ => true
  | .destroyQueue _ _ => true
  | .createEvq _ _ _ _ _ _ => true
  | .setQuantum _ _ => true
  | .setReserve _ _ _ => true
  | .endLaunch _ _ => true
  | .preempt _ _ _ _ => true
  | .restore _ _ => true
  | .biasflip _ _ _ => true
  | .scrub _ _ => true
  | .dieLost _ _ => true
  | .setClock _ _ _ => true
  | .setPower _ _ _ => true
  | .warmReset _ _ => true
  | .clusterGate _ _ _ => true
  | .setEnvelope _ _ => true
  | .setPkgnum _ _ => true
  | .setRoute _ _ => true
  | .setGm _ _ _ => true
  | .hostcmd _ _ _ => true
  | .thermalTrip _ => true
  | .coolantFlowTrip => true
  | .bringUp => true
  | .attestationReport _ => true
  | .monitorControlWrite _ _ _ => true
  | .monitorClear _ _ => true
  | .monitorLevelSample _ _ => true
  | .treutExchange _ => true
  | .treutSyncReceive _ => true
  | .followUpReceive _ => true
  | .delayReqReceive _ => true
  | .delayRespReceive _ => true
  | .exchangeMissed _ => true
  | .linkRetry _ => true
  | .hostCxlAccess _ _ _ => true
  | .hostWritebackCompletion _ => true

end Sys2Proof
end

