-- ==== Sys2Proof/Decode.lean ====
section
/-! DEFINITION. From bytes to instructions and back (02_encoding R34 to R50, R52). `decode` is total on any bytes: it answers an
instruction with its length, or says by name why there is none. `encode` writes the words of an instruction from the same encoding
tables. A parcel is two bytes, little-endian; a 64-bit X-form is read as one little-endian number, its first word in bits 31 to 0. -/

namespace Sys2Proof

/-- The n-bit field of a word whose lowest bit is l. -/
def fld (n l w : Nat) : BitVec n := BitVec.ofNat n (w / 2 ^ l)

/-- The element-type field at bit l (R41). -/
def tyFld (l w : Nat) : ElTy := ElTy.ofCode (fld 3 l w)

/-- Why bytes hold no instruction (R52): the stream ends inside it, or the encoding is unassigned or reserved. -/
inductive Undecoded where
  | truncated
  | illegal (len word : Nat)
  deriving DecidableEq, Repr

/-- Length in bytes of the instruction whose first parcel is p (R35). -/
def instrLen (p : Nat) : Nat := if p % 4 ≠ 3 then 2 else if p / 4 % 32 ≤ 0x1B then 4 else 8

/-- Major 0x00, INT-RR (R42, R43). -/
def decodeIntrr (w : Nat) : Option Instr :=
  match bits w 27 22 with
  | 0 => some (.add (fld 4 28 w) (fld 5 7 w) (fld 5 12 w) (fld 5 17 w))
  | 1 => some (.sub (fld 4 28 w) (fld 5 7 w) (fld 5 12 w) (fld 5 17 w))
  | 2 => some (.mul (fld 4 28 w) (fld 5 7 w) (fld 5 12 w) (fld 5 17 w))
  | 3 => some (.mulh (fld 4 28 w) (fld 5 7 w) (fld 5 12 w) (fld 5 17 w))
  | 4 => some (.mulhu (fld 4 28 w) (fld 5 7 w) (fld 5 12 w) (fld 5 17 w))
  | 5 => some (.div (fld 4 28 w) (fld 5 7 w) (fld 5 12 w) (fld 5 17 w))
  | 6 => some (.divu (fld 4 28 w) (fld 5 7 w) (fld 5 12 w) (fld 5 17 w))
  | 7 => some (.rem (fld 4 28 w) (fld 5 7 w) (fld 5 12 w) (fld 5 17 w))
  | 8 => some (.remu (fld 4 28 w) (fld 5 7 w) (fld 5 12 w) (fld 5 17 w))
  | 9 => some (.and (fld 4 28 w) (fld 5 7 w) (fld 5 12 w) (fld 5 17 w))
  | 10 => some (.or (fld 4 28 w) (fld 5 7 w) (fld 5 12 w) (fld 5 17 w))
  | 11 => some (.xor (fld 4 28 w) (fld 5 7 w) (fld 5 12 w) (fld 5 17 w))
  | 12 => some (.andn (fld 4 28 w) (fld 5 7 w) (fld 5 12 w) (fld 5 17 w))
  | 13 => some (.shl (fld 4 28 w) (fld 5 7 w) (fld 5 12 w) (fld 5 17 w))
  | 14 => some (.shr (fld 4 28 w) (fld 5 7 w) (fld 5 12 w) (fld 5 17 w))
  | 15 => some (.sar (fld 4 28 w) (fld 5 7 w) (fld 5 12 w) (fld 5 17 w))
  | 16 => some (.rotr (fld 4 28 w) (fld 5 7 w) (fld 5 12 w) (fld 5 17 w))
  | 17 => some (.min (fld 4 28 w) (fld 5 7 w) (fld 5 12 w) (fld 5 17 w))
  | 18 => some (.max (fld 4 28 w) (fld 5 7 w) (fld 5 12 w) (fld 5 17 w))
  | 19 => some (.minu (fld 4 28 w) (fld 5 7 w) (fld 5 12 w) (fld 5 17 w))
  | 20 => some (.maxu (fld 4 28 w) (fld 5 7 w) (fld 5 12 w) (fld 5 17 w))
  | 21 => some (.slt (fld 4 28 w) (fld 5 7 w) (fld 5 12 w) (fld 5 17 w))
  | 22 => some (.sltu (fld 4 28 w) (fld 5 7 w) (fld 5 12 w) (fld 5 17 w))
  | 23 => some (.seq (fld 4 28 w) (fld 5 7 w) (fld 5 12 w) (fld 5 17 w))
  | 24 => if bits w 21 17 == 0 then some (.clz (fld 4 28 w) (fld 5 7 w) (fld 5 12 w)) else none
  | 25 => if bits w 21 17 == 0 then some (.ctz (fld 4 28 w) (fld 5 7 w) (fld 5 12 w)) else none
  | 26 => if bits w 21 17 == 0 then some (.popc (fld 4 28 w) (fld 5 7 w) (fld 5 12 w)) else none
  | 27 => some (.sext (fld 4 28 w) (fld 5 7 w) (fld 5 12 w) (fld 5 17 w))
  | 28 => some (.zext (fld 4 28 w) (fld 5 7 w) (fld 5 12 w) (fld 5 17 w))
  | 29 => some (.bfx (fld 4 28 w) (fld 5 7 w) (fld 5 12 w) (fld 5 17 w))
  | 30 => some (.bfi (fld 4 28 w) (fld 5 7 w) (fld 5 12 w) (fld 5 17 w))
  | 31 => some (.addsat (fld 4 28 w) (fld 5 7 w) (fld 5 12 w) (fld 5 17 w))
  | _ => none

/-- Major 0x01, INT-RI (R42, R43). -/
def decodeIntri (w : Nat) : Option Instr :=
  match bits w 19 17 with
  | 0 => some (.addi (fld 5 7 w) (fld 5 12 w) (fld 12 20 w))
  | 1 => some (.andi (fld 5 7 w) (fld 5 12 w) (fld 12 20 w))
  | 2 => some (.ori (fld 5 7 w) (fld 5 12 w) (fld 12 20 w))
  | 3 => some (.xori (fld 5 7 w) (fld 5 12 w) (fld 12 20 w))
  | 4 => some (.slti (fld 5 7 w) (fld 5 12 w) (fld 12 20 w))
  | 5 => some (.sltiu (fld 5 7 w) (fld 5 12 w) (fld 12 20 w))
  | 6 => if bits w 31 28 == 0 then some (.shifti (fld 2 26 w) (fld 5 7 w) (fld 5 12 w) (fld 6 20 w)) else none
  | 7 => some (.muli (fld 5 7 w) (fld 5 12 w) (fld 12 20 w))
  | _ => none

/-- Major 0x04, loads (R42, R43). -/
def decodeLoads (w : Nat) : Option Instr :=
  match bits w 19 17 with
  | 0 => some (.ldB (fld 4 28 w) (fld 5 7 w) (fld 5 12 w) (fld 8 20 w))
  | 1 => some (.ldH (fld 4 28 w) (fld 5 7 w) (fld 5 12 w) (fld 8 20 w))
  | 2 => some (.ldW (fld 4 28 w) (fld 5 7 w) (fld 5 12 w) (fld 8 20 w))
  | 3 => some (.ldD (fld 4 28 w) (fld 5 7 w) (fld 5 12 w) (fld 8 20 w))
  | 4 => some (.ldBu (fld 4 28 w) (fld 5 7 w) (fld 5 12 w) (fld 8 20 w))
  | 5 => some (.ldHu (fld 4 28 w) (fld 5 7 w) (fld 5 12 w) (fld 8 20 w))
  | 6 => some (.ldWu (fld 4 28 w) (fld 5 7 w) (fld 5 12 w) (fld 8 20 w))
  | _ => none

/-- Major 0x05, stores (R42, R43). -/
def decodeStores (w : Nat) : Option Instr :=
  match bits w 19 17 with
  | 0 => if bits w 31 28 == 0 then some (.stB (fld 5 12 w) (fld 5 7 w) (fld 8 20 w)) else none
  | 1 => if bits w 31 28 == 0 then some (.stH (fld 5 12 w) (fld 5 7 w) (fld 8 20 w)) else none
  | 2 => if bits w 31 28 == 0 then some (.stW (fld 5 12 w) (fld 5 7 w) (fld 8 20 w)) else none
  | 3 => if bits w 31 28 == 0 then some (.stD (fld 5 12 w) (fld 5 7 w) (fld 8 20 w)) else none
  | _ => none

/-- Major 0x06, branches (R42, R43). -/
def decodeBranches (w : Nat) : Option Instr :=
  match bits w 19 17 with
  | 0 => some (.beq (fld 5 12 w) (fld 5 7 w) (fld 12 20 w))
  | 1 => some (.bne (fld 5 12 w) (fld 5 7 w) (fld 12 20 w))
  | 2 => some (.blt (fld 5 12 w) (fld 5 7 w) (fld 12 20 w))
  | 3 => some (.bge (fld 5 12 w) (fld 5 7 w) (fld 12 20 w))
  | 4 => some (.bltu (fld 5 12 w) (fld 5 7 w) (fld 12 20 w))
  | 5 => some (.bgeu (fld 5 12 w) (fld 5 7 w) (fld 12 20 w))
  | 6 => if bits w 11 7 == 0 && bits w 16 15 == 0 then some (.bkany (fld 3 12 w) (fld 12 20 w)) else none
  | 7 => if bits w 11 7 == 0 && bits w 16 15 == 0 then some (.bknone (fld 3 12 w) (fld 12 20 w)) else none
  | _ => none

/-- Major 0x08, CTRL (R42, R43). -/
def decodeCtrl (w : Nat) : Option Instr :=
  match bits w 27 22 with
  | 0 => if bits w 21 17 == 0 && bits w 31 28 == 0 then some (.jlr (fld 5 7 w) (fld 5 12 w)) else none
  | 1 => if bits w 21 17 == 0 && bits w 31 28 == 0 then some (.follow (fld 5 7 w) (fld 5 12 w)) else none
  | 2 => if bits w 21 7 == 0 && bits w 31 28 == 0 then some (.leave) else none
  | 3 => if bits w 31 28 == 0 then some (.rejoin (fld 5 7 w) (fld 10 12 w)) else none
  | 4 => if bits w 21 7 == 0 && bits w 31 28 == 0 then some (.yield) else none
  | 5 => if bits w 21 7 == 0 && bits w 31 28 == 0 then some (.nop) else none
  | 6 => some (.hint)
  | _ => none

/-- Major 0x09, ATOM (R42, R43). -/
def decodeAtom (w : Nat) : Option Instr :=
  match bits w 27 22 with
  | 0 => some (.amoAdd (fld 4 28 w) (fld 5 7 w) (fld 5 12 w) (fld 5 17 w))
  | 1 => some (.amoAnd (fld 4 28 w) (fld 5 7 w) (fld 5 12 w) (fld 5 17 w))
  | 2 => some (.amoOr (fld 4 28 w) (fld 5 7 w) (fld 5 12 w) (fld 5 17 w))
  | 3 => some (.amoXor (fld 4 28 w) (fld 5 7 w) (fld 5 12 w) (fld 5 17 w))
  | 4 => some (.amoMin (fld 4 28 w) (fld 5 7 w) (fld 5 12 w) (fld 5 17 w))
  | 5 => some (.amoMax (fld 4 28 w) (fld 5 7 w) (fld 5 12 w) (fld 5 17 w))
  | 6 => some (.amoMinu (fld 4 28 w) (fld 5 7 w) (fld 5 12 w) (fld 5 17 w))
  | 7 => some (.amoMaxu (fld 4 28 w) (fld 5 7 w) (fld 5 12 w) (fld 5 17 w))
  | 8 => some (.amoSwap (fld 4 28 w) (fld 5 7 w) (fld 5 12 w) (fld 5 17 w))
  | 9 => some (.amoCas (fld 4 28 w) (fld 5 7 w) (fld 5 12 w) (fld 5 17 w))
  | 10 => some (.amoAddn (fld 4 28 w) (fld 5 7 w) (fld 5 12 w) (fld 5 17 w))
  | 11 => if bits w 21 17 == 0 then some (.ldAcq (fld 4 28 w) (fld 5 7 w) (fld 5 12 w)) else none
  | 12 => if bits w 11 7 == 0 && bits w 31 28 == 0 then some (.stRel (fld 5 12 w) (fld 5 17 w)) else none
  | 13 => if bits w 21 17 == 0 then some (.ldSc (fld 4 28 w) (fld 5 7 w) (fld 5 12 w)) else none
  | 14 => if bits w 11 7 == 0 && bits w 31 28 == 0 then some (.stSc (fld 5 12 w) (fld 5 17 w)) else none
  | 15 => if bits w 16 7 == 0 && bits w 31 28 == 0 then some (.fence (fld 5 17 w)) else none
  | 16 => if bits w 21 7 == 0 && bits w 31 28 == 0 then some (.fenceSc) else none
  | _ => none

/-- Major 0x0A, SYS (R42, R43). -/
def decodeSys (w : Nat) : Option Instr :=
  match bits w 19 17 with
  | 0 => if bits w 16 12 == 0 then some (.csrr (fld 5 7 w) (fld 12 20 w)) else none
  | 1 => some (.csrw (fld 5 7 w) (fld 5 12 w) (fld 12 20 w))
  | 2 => some (.csrset (fld 5 7 w) (fld 5 12 w) (fld 12 20 w))
  | 3 => some (.csrclr (fld 5 7 w) (fld 5 12 w) (fld 12 20 w))
  | 4 =>
    if bits w 11 7 == 0 && bits w 31 20 == 4 then some (.trap (fld 5 12 w))
    else if bits w 16 7 == 0 && bits w 31 20 == 5 then some (.eret)
    else if bits w 16 7 == 0 && bits w 31 20 == 6 then some (.uiret)
    else if bits w 11 7 == 0 && bits w 31 20 == 7 then some (.sreplyResume (fld 5 12 w))
    else if bits w 11 7 == 0 && bits w 31 20 == 23 then some (.sreplySignal (fld 5 12 w))
    else if bits w 11 7 == 0 && bits w 31 20 == 39 then some (.sreplyKill (fld 5 12 w))
    else if bits w 11 7 == 0 && bits w 31 20 == 24 then some (.biasflipHost (fld 5 12 w))
    else if bits w 11 7 == 0 && bits w 31 20 == 8 then some (.biasflipDevice (fld 5 12 w))
    else if bits w 16 7 == 0 && bits w 31 20 == 9 then some (.wfi)
    else none
  | _ => none

/-- Major 0x0B, TASK (R42, R43). -/
def decodeTask (w : Nat) : Option Instr :=
  match bits w 27 22 with
  | 0 => if bits w 11 7 == 0 && bits w 21 17 == 0 && bits w 31 28 == 0 then some (.spawn (fld 5 12 w)) else none
  | 1 => if bits w 21 7 == 0 && bits w 31 28 == 0 then some (.sync) else none
  | 2 => if bits w 11 7 == 0 && bits w 21 17 == 0 && bits w 31 28 == 0 then some (.pubf (fld 5 12 w)) else none
  | 3 => if bits w 21 7 == 0 && bits w 31 28 == 0 then some (.taskend) else none
  | 4 => if bits w 31 28 == 0 then some (.donate (fld 5 7 w) (fld 5 12 w) (fld 5 17 w)) else none
  | 5 => if bits w 11 7 == 0 && bits w 31 28 == 0 then some (.jinit (fld 5 12 w) (fld 5 17 w)) else none
  | 6 => if bits w 21 17 == 0 && bits w 31 28 == 0 then some (.jdec (fld 5 7 w) (fld 5 12 w)) else none
  | _ => none

/-- Major 0x0C, MSG (R42, R43). -/
def decodeMsg (w : Nat) : Option Instr :=
  match bits w 27 22 with
  | 0 => if bits w 31 28 == 0 then some (.send (fld 5 12 w) (fld 5 17 w) (fld 5 7 w)) else none
  | 1 => if bits w 31 28 == 0 then some (.sendm (fld 5 12 w) (fld 5 17 w) (fld 5 7 w)) else none
  | 2 => if bits w 31 28 == 0 then some (.hset (fld 5 7 w) (fld 5 12 w) (fld 5 17 w)) else none
  | 3 => if bits w 11 7 == 0 && bits w 21 17 == 0 && bits w 31 28 == 0 then some (.hclr (fld 5 12 w)) else none
  | 4 => if bits w 21 17 == 0 && bits w 31 28 == 0 then some (.hold (fld 5 7 w) (fld 5 12 w)) else none
  | 5 => if bits w 21 17 == 0 && bits w 31 28 == 0 then some (.rels (fld 5 7 w) (fld 5 12 w)) else none
  | 6 => if bits w 31 28 == 0 then some (.hmask (fld 5 7 w) (fld 5 12 w) (fld 5 17 w)) else none
  | 7 => if bits w 21 7 == 0 && bits w 31 28 == 0 then some (.hret) else none
  | 8 => if bits w 31 28 == 0 then some (.mbxw (fld 5 7 w) (fld 5 12 w) (fld 5 17 w)) else none
  | _ => none

/-- Major 0x0D, BAR (R42, R43). -/
def decodeBar (w : Nat) : Option Instr :=
  match bits w 27 22 with
  | 0 => if bits w 16 13 == 0 && bits w 31 28 == 0 then some (.bara (fld 5 7 w) (fld 5 17 w) (fld 1 12 w)) else none
  | 1 => if bits w 16 13 == 0 && bits w 31 28 == 0 then some (.barw (fld 5 7 w) (fld 5 17 w) (fld 1 12 w)) else none
  | 2 => if bits w 16 13 == 0 && bits w 31 28 == 0 then some (.barx (fld 5 7 w) (fld 5 17 w) (fld 1 12 w)) else none
  | 3 => if bits w 31 28 == 0 then some (.team (fld 5 7 w) (fld 5 12 w) (fld 5 17 w)) else none
  | 4 => if bits w 31 28 == 0 then some (.geosub (fld 5 7 w) (fld 5 12 w) (fld 5 17 w)) else none
  | _ => none

/-- Major 0x0E, VMEM (R42, R43). -/
def decodeVmem (w : Nat) : Option Instr :=
  match bits w 31 28 with
  | 0 => if bits w 21 17 == 0 then some (.vld (tyFld 25 w) (fld 3 22 w) (fld 5 7 w) (fld 5 12 w)) else none
  | 1 => if bits w 21 17 == 0 then some (.vst (tyFld 25 w) (fld 3 22 w) (fld 5 7 w) (fld 5 12 w)) else none
  | 2 => some (.vlds (tyFld 25 w) (fld 3 22 w) (fld 5 7 w) (fld 5 12 w) (fld 5 17 w))
  | 3 => some (.vsts (tyFld 25 w) (fld 3 22 w) (fld 5 7 w) (fld 5 12 w) (fld 5 17 w))
  | 4 => if bits w 21 17 == 0 then some (.vldb (tyFld 25 w) (fld 3 22 w) (fld 5 7 w) (fld 5 12 w)) else none
  | 5 => some (.vldi (tyFld 25 w) (fld 3 22 w) (fld 5 7 w) (fld 5 12 w) (fld 5 17 w))
  | 6 => some (.vsti (tyFld 25 w) (fld 3 22 w) (fld 5 7 w) (fld 5 12 w) (fld 5 17 w))
  | _ => none

/-- Major 0x10, VINT (R42, R43). -/
def decodeVint (w : Nat) : Option Instr :=
  match bits w 31 28 with
  | 0 => some (.vadd (tyFld 25 w) (fld 3 22 w) (fld 5 7 w) (fld 5 12 w) (fld 5 17 w))
  | 1 => some (.vsub (tyFld 25 w) (fld 3 22 w) (fld 5 7 w) (fld 5 12 w) (fld 5 17 w))
  | 2 => some (.vmul (tyFld 25 w) (fld 3 22 w) (fld 5 7 w) (fld 5 12 w) (fld 5 17 w))
  | 3 => some (.vmulh (tyFld 25 w) (fld 3 22 w) (fld 5 7 w) (fld 5 12 w) (fld 5 17 w))
  | 4 => some (.vmin (tyFld 25 w) (fld 3 22 w) (fld 5 7 w) (fld 5 12 w) (fld 5 17 w))
  | 5 => some (.vmax (tyFld 25 w) (fld 3 22 w) (fld 5 7 w) (fld 5 12 w) (fld 5 17 w))
  | 6 => some (.vminu (tyFld 25 w) (fld 3 22 w) (fld 5 7 w) (fld 5 12 w) (fld 5 17 w))
  | 7 => some (.vmaxu (tyFld 25 w) (fld 3 22 w) (fld 5 7 w) (fld 5 12 w) (fld 5 17 w))
  | 8 => if bits w 21 17 == 0 then some (.vabs (tyFld 25 w) (fld 3 22 w) (fld 5 7 w) (fld 5 12 w)) else none
  | 9 => some (.vand (tyFld 25 w) (fld 3 22 w) (fld 5 7 w) (fld 5 12 w) (fld 5 17 w))
  | 10 => some (.vor (tyFld 25 w) (fld 3 22 w) (fld 5 7 w) (fld 5 12 w) (fld 5 17 w))
  | 11 => some (.vxor (tyFld 25 w) (fld 3 22 w) (fld 5 7 w) (fld 5 12 w) (fld 5 17 w))
  | 12 => some (.vshl (tyFld 25 w) (fld 3 22 w) (fld 5 7 w) (fld 5 12 w) (fld 5 17 w))
  | 13 => some (.vshr (tyFld 25 w) (fld 3 22 w) (fld 5 7 w) (fld 5 12 w) (fld 5 17 w))
  | 14 => some (.vsar (tyFld 25 w) (fld 3 22 w) (fld 5 7 w) (fld 5 12 w) (fld 5 17 w))
  | 15 => if bits w 11 10 == 0 then some (.vcmp (tyFld 25 w) (fld 3 7 w) (fld 5 12 w) (fld 5 17 w) (fld 3 22 w)) else none
  | _ => none

/-- Major 0x11, VFP (R42, R43). -/
def decodeVfp (w : Nat) : Option Instr :=
  match bits w 31 28 with
  | 0 => some (.vfadd (tyFld 25 w) (fld 3 22 w) (fld 5 7 w) (fld 5 12 w) (fld 5 17 w))
  | 1 => some (.vfsub (tyFld 25 w) (fld 3 22 w) (fld 5 7 w) (fld 5 12 w) (fld 5 17 w))
  | 2 => some (.vfmul (tyFld 25 w) (fld 3 22 w) (fld 5 7 w) (fld 5 12 w) (fld 5 17 w))
  | 3 => some (.vfdiv (tyFld 25 w) (fld 3 22 w) (fld 5 7 w) (fld 5 12 w) (fld 5 17 w))
  | 4 => if bits w 21 17 == 0 then some (.vfsqrt (tyFld 25 w) (fld 3 22 w) (fld 5 7 w) (fld 5 12 w)) else none
  | 5 => some (.vfmin (tyFld 25 w) (fld 3 22 w) (fld 5 7 w) (fld 5 12 w) (fld 5 17 w))
  | 6 => some (.vfmax (tyFld 25 w) (fld 3 22 w) (fld 5 7 w) (fld 5 12 w) (fld 5 17 w))
  | 7 => if bits w 21 17 == 0 then some (.vfabs (tyFld 25 w) (fld 3 22 w) (fld 5 7 w) (fld 5 12 w)) else none
  | 8 => if bits w 21 17 == 0 then some (.vfneg (tyFld 25 w) (fld 3 22 w) (fld 5 7 w) (fld 5 12 w)) else none
  | 9 => if bits w 11 10 == 0 then some (.vfcmp (tyFld 25 w) (fld 3 7 w) (fld 5 12 w) (fld 5 17 w) (fld 3 22 w)) else none
  | 10 => if bits w 21 17 == 0 then some (.vfrsq (tyFld 25 w) (fld 3 22 w) (fld 5 7 w) (fld 5 12 w)) else none
  | 11 => if bits w 21 17 == 0 then some (.vfexp2 (tyFld 25 w) (fld 3 22 w) (fld 5 7 w) (fld 5 12 w)) else none
  | 12 => if bits w 21 17 == 0 then some (.vflog2 (tyFld 25 w) (fld 3 22 w) (fld 5 7 w) (fld 5 12 w)) else none
  | 13 => some (.vflse (tyFld 25 w) (fld 3 22 w) (fld 5 7 w) (fld 5 12 w) (fld 5 17 w))
  | 14 => if bits w 21 19 == 0 then some (.vfrnd (tyFld 25 w) (fld 3 22 w) (fld 5 7 w) (fld 5 12 w) (fld 2 17 w)) else none
  | 15 => if bits w 21 17 == 0 then some (.vfclass (tyFld 25 w) (fld 3 22 w) (fld 5 7 w) (fld 5 12 w)) else none
  | _ => none

/-- Major 0x12, VCVT (R42, R43). -/
def decodeVcvt (w : Nat) : Option Instr :=
  match bits w 31 28 with
  | 0 => some (.vcvt (tyFld 25 w) (fld 3 22 w) (fld 5 7 w) (fld 5 12 w) (fld 5 17 w))
  | 1 => if bits w 21 17 == 0 then some (.vbcast (tyFld 25 w) (fld 3 22 w) (fld 5 7 w) (fld 5 12 w)) else none
  | 2 => if bits w 24 22 == 0 then some (.vext (tyFld 25 w) (fld 5 7 w) (fld 5 12 w) (fld 5 17 w)) else none
  | 3 => if bits w 24 22 == 0 then some (.vins (tyFld 25 w) (fld 5 7 w) (fld 5 12 w) (fld 5 17 w)) else none
  | 4 => if bits w 21 12 == 0 then some (.viota (tyFld 25 w) (fld 3 22 w) (fld 5 7 w)) else none
  | 5 => some (.vpack (tyFld 25 w) (fld 3 22 w) (fld 5 7 w) (fld 5 12 w) (fld 5 17 w))
  | 6 => some (.vunpk (tyFld 25 w) (fld 3 22 w) (fld 5 7 w) (fld 5 12 w) (fld 5 17 w))
  | _ => none

/-- Major 0x13, VPERM (R42, R43). -/
def decodeVperm (w : Nat) : Option Instr :=
  match bits w 31 28 with
  | 0 => some (.vperm (tyFld 25 w) (fld 3 22 w) (fld 5 7 w) (fld 5 12 w) (fld 5 17 w))
  | 1 => some (.vslide (tyFld 25 w) (fld 3 22 w) (fld 5 7 w) (fld 5 12 w) (fld 5 17 w))
  | 2 => some (.vsel (tyFld 25 w) (fld 3 22 w) (fld 5 7 w) (fld 5 12 w) (fld 5 17 w))
  | 3 => if bits w 21 17 == 0 then some (.vredadd (tyFld 25 w) (fld 3 22 w) (fld 5 7 w) (fld 5 12 w)) else none
  | 4 => if bits w 21 17 == 0 then some (.vredmin (tyFld 25 w) (fld 3 22 w) (fld 5 7 w) (fld 5 12 w)) else none
  | 5 => if bits w 21 17 == 0 then some (.vredmax (tyFld 25 w) (fld 3 22 w) (fld 5 7 w) (fld 5 12 w)) else none
  | 6 => if bits w 21 17 == 0 then some (.vfredadd (tyFld 25 w) (fld 3 22 w) (fld 5 7 w) (fld 5 12 w)) else none
  | 7 => if bits w 21 17 == 0 then some (.vscan (tyFld 25 w) (fld 3 22 w) (fld 5 7 w) (fld 5 12 w)) else none
  | 8 => if bits w 21 17 == 0 then some (.vcompr (tyFld 25 w) (fld 3 22 w) (fld 5 7 w) (fld 5 12 w)) else none
  | 9 => if bits w 21 17 == 0 then some (.vexpnd (tyFld 25 w) (fld 3 22 w) (fld 5 7 w) (fld 5 12 w)) else none
  | _ => none

/-- Major 0x14, MASK (R42, R43). -/
def decodeMask (w : Nat) : Option Instr :=
  match bits w 31 28 with
  | 0 => if bits w 11 10 == 0 && bits w 16 15 == 0 && bits w 27 20 == 0 then some (.kand (fld 3 7 w) (fld 3 12 w) (fld 3 17 w)) else none
  | 1 => if bits w 11 10 == 0 && bits w 16 15 == 0 && bits w 27 20 == 0 then some (.kor (fld 3 7 w) (fld 3 12 w) (fld 3 17 w)) else none
  | 2 => if bits w 11 10 == 0 && bits w 16 15 == 0 && bits w 27 20 == 0 then some (.kxor (fld 3 7 w) (fld 3 12 w) (fld 3 17 w)) else none
  | 3 => if bits w 11 10 == 0 && bits w 16 15 == 0 && bits w 27 20 == 0 then some (.kandn (fld 3 7 w) (fld 3 12 w) (fld 3 17 w)) else none
  | 4 => if bits w 11 10 == 0 && bits w 27 15 == 0 then some (.knot (fld 3 7 w) (fld 3 12 w)) else none
  | 5 => if bits w 11 10 == 0 && bits w 27 17 == 0 then some (.kfrom (fld 3 7 w) (fld 5 12 w)) else none
  | 6 => if bits w 27 15 == 0 then some (.kto (fld 5 7 w) (fld 3 12 w)) else none
  | 7 => if bits w 27 15 == 0 then some (.kpop (fld 5 7 w) (fld 3 12 w)) else none
  | 8 => if bits w 27 15 == 0 then some (.kfirst (fld 5 7 w) (fld 3 12 w)) else none
  | 9 => if bits w 11 10 == 0 && bits w 27 17 == 0 then some (.kfill (fld 3 7 w) (fld 5 12 w)) else none
  | _ => none

/-- Major 0x15, MAT (R42, R43). -/
def decodeMat (w : Nat) : Option Instr :=
  match bits w 27 22 with
  | 0 => if bits w 21 17 == 0 then some (.mlease (fld 4 28 w) (fld 5 7 w) (fld 5 12 w)) else none
  | 1 => if bits w 21 7 == 0 && bits w 31 28 == 0 then some (.mrel) else none
  | 2 => if bits w 21 17 == 0 then some (.mclaim (fld 4 28 w) (fld 5 7 w) (fld 5 12 w)) else none
  | 3 => if bits w 11 7 == 0 && bits w 21 17 == 0 && bits w 31 28 == 0 then some (.mfree (fld 5 12 w)) else none
  | 4 => if bits w 21 12 == 0 then some (.mzero (fld 4 28 w) (fld 5 7 w)) else none
  | 5 => if bits w 21 17 == 0 then some (.mstat (fld 4 28 w) (fld 5 7 w) (fld 5 12 w)) else none
  | 6 => if bits w 21 17 == 0 then some (.mwait (fld 4 28 w) (fld 5 7 w) (fld 5 12 w)) else none
  | _ => none

/-- Major 0x16, SPARSE (R42, R43). -/
def decodeSparse (w : Nat) : Option Instr :=
  match bits w 27 22 with
  | 0 => some (.sld (fld 4 28 w) (fld 5 7 w) (fld 5 12 w) (fld 5 17 w))
  | 1 => if bits w 31 28 == 0 then some (.sst (fld 5 7 w) (fld 5 12 w) (fld 5 17 w)) else none
  | 2 => if bits w 31 28 == 0 then some (.sadd (fld 5 7 w) (fld 5 12 w) (fld 5 17 w)) else none
  | 3 => if bits w 11 7 == 0 && bits w 21 17 == 0 && bits w 31 28 == 0 then some (.sclose (fld 5 12 w)) else none
  | 4 => some (.sstat (fld 4 28 w) (fld 5 7 w) (fld 5 12 w) (fld 5 17 w))
  | _ => none

/-- Major 0x17, GRID (R42, R43). -/
def decodeGrid (w : Nat) : Option Instr :=
  match bits w 27 22 with
  | 0 => some (.ldg (fld 4 28 w) (fld 5 7 w) (fld 5 12 w) (fld 5 17 w))
  | 1 => if bits w 31 28 == 0 then some (.stg (fld 5 7 w) (fld 5 12 w) (fld 5 17 w)) else none
  | 2 => some (.gstep (fld 4 28 w) (fld 5 7 w) (fld 5 12 w) (fld 5 17 w))
  | 3 => some (.gwait (fld 4 28 w) (fld 5 7 w) (fld 5 12 w) (fld 5 17 w))
  | 4 => some (.gstat (fld 4 28 w) (fld 5 7 w) (fld 5 12 w) (fld 5 17 w))
  | _ => none

/-- Major 0x18, CACHE (R42, R43). -/
def decodeCache (w : Nat) : Option Instr :=
  match bits w 27 22 with
  | 0 => if bits w 11 7 == 0 && bits w 31 28 == 0 then some (.pref (fld 5 12 w) (fld 5 17 w)) else none
  | 1 => if bits w 11 7 == 0 && bits w 31 28 == 0 then some (.res (fld 5 12 w) (fld 5 17 w)) else none
  | 2 => if bits w 11 7 == 0 && bits w 31 28 == 0 then some (.unres (fld 5 12 w) (fld 5 17 w)) else none
  | 3 => if bits w 11 7 == 0 && bits w 31 28 == 0 then some (.flush (fld 5 12 w) (fld 5 17 w)) else none
  | 4 => if bits w 11 7 == 0 && bits w 31 28 == 0 then some (.inv (fld 5 12 w) (fld 5 17 w)) else none
  | 5 => if bits w 11 7 == 0 && bits w 21 17 == 0 && bits w 31 28 == 0 then some (.dinv (fld 5 12 w)) else none
  | _ => none

/-- Major 0x1C, ENG (R42, R43). -/
def decodeEng (w : Nat) : Option Instr :=
  match bits w 31 27 with
  | 0 => if bits w 26 17 == 0 && bits w 39 36 == 0 && bits w 63 47 == 0 then some (.copy (fld 4 32 w) (fld 5 7 w) (fld 5 12 w) (fld 7 40 w)) else none
  | 1 => if bits w 26 17 == 0 && bits w 39 36 == 0 && bits w 63 47 == 0 then some (.copym (fld 4 32 w) (fld 5 7 w) (fld 5 12 w) (fld 7 40 w)) else none
  | 2 => if bits w 26 17 == 0 && bits w 39 36 == 0 && bits w 63 47 == 0 then some (.get (fld 4 32 w) (fld 5 7 w) (fld 5 12 w) (fld 7 40 w)) else none
  | 3 => if bits w 26 17 == 0 && bits w 39 36 == 0 && bits w 63 47 == 0 then some (.put (fld 4 32 w) (fld 5 7 w) (fld 5 12 w) (fld 7 40 w)) else none
  | 4 => if bits w 26 17 == 0 && bits w 39 36 == 0 && bits w 63 47 == 0 then some (.dense (fld 4 32 w) (fld 5 7 w) (fld 5 12 w) (fld 7 40 w)) else none
  | 5 => if bits w 26 17 == 0 && bits w 39 36 == 0 && bits w 63 47 == 0 then some (.ctrx (fld 4 32 w) (fld 5 7 w) (fld 5 12 w) (fld 7 40 w)) else none
  | 6 => if bits w 26 17 == 0 && bits w 39 36 == 0 && bits w 63 47 == 0 then some (.ctrw (fld 4 32 w) (fld 5 7 w) (fld 5 12 w) (fld 7 40 w)) else none
  | 7 =>
    if bits w 26 12 == 0 && bits w 39 36 == 0 && bits w 63 47 == 0 then some (.ctrr (fld 4 32 w) (fld 5 7 w) (fld 7 40 w))
    else if bits w 26 12 == 0 && bits w 39 36 == 1 && bits w 63 47 == 0 then some (.ctrrClear (fld 4 32 w) (fld 5 7 w) (fld 7 40 w))
    else none
  | _ => none

/-- Major 0x1D, MATX (R42, R43). -/
def decodeMatx (w : Nat) : Option Instr :=
  match bits w 31 27 with
  | 0 => if bits w 11 7 == 0 && bits w 26 17 == 0 && bits w 63 32 == 0 then some (.mfmt (fld 5 12 w)) else none
  | 1 => if bits w 11 7 == 0 && bits w 39 32 == 0 && bits w 63 44 == 0 then some (.mlda (fld 5 12 w) (fld 5 17 w) (fld 5 22 w) (fld 4 40 w)) else none
  | 2 => if bits w 11 7 == 0 && bits w 39 32 == 0 && bits w 63 44 == 0 then some (.mldb (fld 5 12 w) (fld 5 17 w) (fld 5 22 w) (fld 4 40 w)) else none
  | 3 => if bits w 26 22 == 0 && bits w 63 36 == 0 then some (.mldc (fld 4 32 w) (fld 5 7 w) (fld 5 12 w) (fld 5 17 w)) else none
  | 4 => if bits w 26 22 == 0 && bits w 63 36 == 0 then some (.mma (fld 4 32 w) (fld 5 7 w) (fld 5 12 w) (fld 5 17 w)) else none
  | 5 => if bits w 35 32 == 0 && bits w 63 37 == 0 then some (.mstc (fld 5 7 w) (fld 5 12 w) (fld 5 17 w) (fld 5 22 w) (fld 1 36 w)) else none
  | 6 => if bits w 11 7 == 0 && bits w 26 17 == 0 && bits w 63 32 == 0 then some (.mprog (fld 5 12 w)) else none
  | 7 => if bits w 26 22 == 0 && bits w 63 36 == 0 then some (.mrun (fld 4 32 w) (fld 5 7 w) (fld 5 12 w) (fld 5 17 w)) else none
  | _ => none

/-- Major 0x1E, VECX (R42, R43). -/
def decodeVecx (w : Nat) : Option Instr :=
  match bits w 31 27 with
  | 0 =>
    if bits w 39 39 == 0 && bits w 63 43 == 0 then some (.vfma (fld 4 32 w) (tyFld 40 w) (fld 3 36 w) (fld 5 7 w) (fld 5 12 w) (fld 5 17 w) (fld 5 22 w))
    else none
  | 1 =>
    if bits w 39 39 == 0 && bits w 63 43 == 0 then some (.vfms (fld 4 32 w) (tyFld 40 w) (fld 3 36 w) (fld 5 7 w) (fld 5 12 w) (fld 5 17 w) (fld 5 22 w))
    else none
  | 2 =>
    if bits w 39 39 == 0 && bits w 63 44 == 0 then some (.vmad (fld 4 32 w) (tyFld 40 w) (fld 3 36 w) (fld 5 7 w) (fld 5 12 w) (fld 5 17 w) (fld 5 22 w) (fld 1 43 w))
    else none
  | 3 =>
    if bits w 21 17 == 0 && bits w 39 39 == 0 && bits w 63 50 == 0 then some (.vtopk (fld 4 32 w) (tyFld 40 w) (fld 3 36 w) (fld 5 7 w) (fld 5 12 w) (fld 5 22 w) (fld 7 43 w))
    else none
  | 4 =>
    if bits w 26 22 == 0 && bits w 39 39 == 0 && bits w 63 43 == 0 then some (.vgather (fld 4 32 w) (tyFld 40 w) (fld 3 36 w) (fld 5 7 w) (fld 5 12 w) (fld 5 17 w))
    else none
  | 5 =>
    if bits w 26 22 == 0 && bits w 35 32 == 0 && bits w 39 39 == 0 && bits w 63 43 == 0 then some (.vscatter (tyFld 40 w) (fld 3 36 w) (fld 5 7 w) (fld 5 12 w) (fld 5 17 w))
    else none
  | 6 => if bits w 63 39 == 14 then some (.vdotl (fld 4 32 w) (fld 3 36 w) (fld 5 7 w) (fld 5 12 w) (fld 5 17 w) (fld 5 22 w)) else none
  | 7 => if bits w 63 39 == 8 then some (.vdotb (fld 4 32 w) (fld 3 36 w) (fld 5 7 w) (fld 5 12 w) (fld 5 17 w) (fld 5 22 w)) else none
  | _ => none

/-- Major 0x1F, SGX (R42, R43). -/
def decodeSgx (w : Nat) : Option Instr :=
  match bits w 31 27 with
  | 0 =>
    if bits w 26 17 == 0 && bits w 63 36 == 0 then some (.sdecl (fld 4 32 w) (fld 5 7 w) (fld 5 12 w))
    else if bits w 11 7 == 0 && bits w 26 17 == 0 && bits w 63 32 == 16 then some (.sdeclFree (fld 5 12 w))
    else none
  | 1 => if bits w 26 22 == 0 && bits w 63 36 == 0 then some (.siter (fld 4 32 w) (fld 5 7 w) (fld 5 12 w) (fld 5 17 w)) else none
  | 2 => if bits w 63 36 == 0 then some (.snext (fld 4 32 w) (fld 5 7 w) (fld 5 12 w) (fld 5 17 w) (fld 5 22 w)) else none
  | 3 =>
    if bits w 26 17 == 0 && bits w 63 36 == 0 then some (.gdecl (fld 4 32 w) (fld 5 7 w) (fld 5 12 w))
    else if bits w 11 7 == 0 && bits w 26 17 == 0 && bits w 63 32 == 16 then some (.gdeclFree (fld 5 12 w))
    else none
  | _ => none

/-- A 32-bit instruction, by its major (R42). -/
def decodeWord (w : Nat) : Option Instr :=
  match bits w 6 2 with
  | 0 => decodeIntrr w
  | 1 => decodeIntri w
  | 2 => some (.lui (fld 5 7 w) (fld 20 12 w))
  | 3 => some (.auipc (fld 5 7 w) (fld 20 12 w))
  | 4 => decodeLoads w
  | 5 => decodeStores w
  | 6 => decodeBranches w
  | 7 => some (.jl (fld 5 7 w) (fld 20 12 w))
  | 8 => decodeCtrl w
  | 9 => decodeAtom w
  | 10 => decodeSys w
  | 11 => decodeTask w
  | 12 => decodeMsg w
  | 13 => decodeBar w
  | 14 => decodeVmem w
  | 16 => decodeVint w
  | 17 => decodeVfp w
  | 18 => decodeVcvt w
  | 19 => decodeVperm w
  | 20 => decodeMask w
  | 21 => decodeMat w
  | 22 => decodeSparse w
  | 23 => decodeGrid w
  | 24 => decodeCache w
  | _ => none

/-- A 64-bit X-form, by its major (R38, R42). -/
def decodeX (w : Nat) : Option Instr :=
  match bits w 6 2 with
  | 28 => decodeEng w
  | 29 => decodeMatx w
  | 30 => decodeVecx w
  | 31 => decodeSgx w
  | _ => none

/-- A compact parcel (R49, R50). -/
def decodeCompact (w : Nat) : Option Instr :=
  match bits w 1 0, bits w 4 2 with
  | 0, 0 => some (.addiN (fld 5 5 w) (fld 6 10 w))
  | 0, 1 => some (.liN (fld 5 5 w) (fld 6 10 w))
  | 0, 2 => some (.shliN (fld 5 5 w) (fld 6 10 w))
  | 0, 3 => if bits w 10 10 == 0 then some (.addN (fld 5 5 w) (fld 5 11 w)) else if bits w 10 10 == 1 then some (.subN (fld 5 5 w) (fld 5 11 w)) else none
  | 0, 4 => if bits w 10 10 == 0 then some (.mvN (fld 5 5 w) (fld 5 11 w)) else none
  | 1, 0 => some (.lddN (fld 3 5 w) (fld 3 8 w) (fld 5 11 w))
  | 1, 1 => some (.stdN (fld 3 5 w) (fld 3 8 w) (fld 5 11 w))
  | 1, 2 => some (.ldwN (fld 3 5 w) (fld 3 8 w) (fld 5 11 w))
  | 1, 3 => some (.stwN (fld 3 5 w) (fld 3 8 w) (fld 5 11 w))
  | 1, 4 => some (.beqzN (fld 3 5 w) (fld 8 8 w))
  | 1, 5 => some (.bnezN (fld 3 5 w) (fld 8 8 w))
  | 2, 0 => some (.jN (fld 11 5 w))
  | 2, 1 => if bits w 10 5 == 0 then some (.jrN (fld 5 11 w)) else none
  | 2, 2 => some (.ldspN (fld 5 5 w) (fld 6 10 w))
  | 2, 3 => some (.stspN (fld 5 5 w) (fld 6 10 w))
  | _, _ => none

/-- The instruction of `len` bytes whose bits are w, well-formed or none (R52). -/
def decodeBits (len w : Nat) : Option Instr :=
  let i := if len = 2 then decodeCompact w else if len = 4 then decodeWord w else decodeX w
  i.filter Instr.wellFormed

/-- A little-endian number from bytes (R4). -/
def ofBytes : List Byte → Nat
  | [] => 0
  | b :: bs => b.toNat + 256 * ofBytes bs

/-- The n bytes of a number, little-endian. -/
def toBytes : Nat → Nat → List Byte
  | 0, _ => []
  | n + 1, x => BitVec.ofNat 8 x :: toBytes n (x / 256)

/-- Reads one instruction from the front of a byte stream: the instruction and its length in bytes, or why there is none. -/
def decode (bs : List Byte) : Except Undecoded (Instr × Nat) :=
  if bs.length < 2 then .error .truncated
  else
    let len := instrLen (ofBytes (bs.take 2))
    if bs.length < len then .error .truncated
    else
      let w := ofBytes (bs.take len)
      match decodeBits len w with
      | some i => .ok (i, len)
      | none => .error (.illegal len w)

/-- Length in bytes of an instruction: 2 for a compact form, 8 for an X-form, 4 otherwise (R35). An event has none. -/
def Instr.length : Instr → Nat
  | .addiN .. | .liN .. | .shliN .. | .addN .. | .subN .. | .mvN .. | .lddN .. | .stdN .. | .ldwN .. | .stwN .. | .beqzN .. | .bnezN .. | .jN .. | .jrN .. | .ldspN .. | .stspN .. => 2
  | .copy .. | .copym .. | .get .. | .put .. | .dense .. | .ctrx .. | .ctrw .. | .ctrr .. | .ctrrClear .. | .mfmt .. | .mlda .. | .mldb .. | .mldc .. | .mma .. | .mstc .. | .mprog .. | .mrun .. | .vfma .. | .vfms .. | .vmad .. | .vtopk .. | .vgather .. | .vscatter .. | .vdotl .. | .vdotb .. | .sdecl .. | .sdeclFree .. | .siter .. | .snext .. | .gdecl .. | .gdeclFree .. => 8
  | i => if i.isEvent then 0 else 4

/-- The RR format (R37). -/
def wordRR (major la fn b a d : Nat) : Nat :=
  3 + major * 4 + d * 2 ^ 7 + a * 2 ^ 12 + b * 2 ^ 17 + fn * 2 ^ 22 + la * 2 ^ 28

/-- The RI, S and B formats (R37): a 12-bit immediate, a 3-bit code and two register fields. -/
def wordRI (major imm fn a d : Nat) : Nat :=
  3 + major * 4 + d * 2 ^ 7 + a * 2 ^ 12 + fn * 2 ^ 17 + imm * 2 ^ 20

/-- The M format (R37); the code is ZX over SIZE (R44). -/
def wordM (major la disp fn a d : Nat) : Nat :=
  3 + major * 4 + d * 2 ^ 7 + a * 2 ^ 12 + fn * 2 ^ 17 + disp * 2 ^ 20 + la * 2 ^ 28

/-- The U format (R37). -/
def wordU (major imm d : Nat) : Nat :=
  3 + major * 4 + d * 2 ^ 7 + imm * 2 ^ 12

/-- The V format (R37). -/
def wordV (major fn t k b a d : Nat) : Nat :=
  3 + major * 4 + d * 2 ^ 7 + a * 2 ^ 12 + b * 2 ^ 17 + k * 2 ^ 22 + t * 2 ^ 25 + fn * 2 ^ 28

/-- The X-form (R38): the first word in bits 31 to 0, the second above it. -/
def wordX (major imm flags la fn c b a d : Nat) : Nat :=
  3 + major * 4 + d * 2 ^ 7 + a * 2 ^ 12 + b * 2 ^ 17 + c * 2 ^ 22 + fn * 2 ^ 27 + la * 2 ^ 32 + flags * 2 ^ 36 + imm * 2 ^ 40

/-- The compact layout NI (R49). -/
def wordNI (bank f imm d : Nat) : Nat :=
  bank + f * 4 + d * 2 ^ 5 + imm * 2 ^ 10

/-- The compact layout NR (R49). -/
def wordNR (bank f a x d : Nat) : Nat :=
  bank + f * 4 + d * 2 ^ 5 + x * 2 ^ 10 + a * 2 ^ 11

/-- The compact layout NM (R49). -/
def wordNM (bank f imm a d : Nat) : Nat :=
  bank + f * 4 + d * 2 ^ 5 + a * 2 ^ 8 + imm * 2 ^ 11

/-- The compact layout NB (R49). -/
def wordNB (bank f disp a : Nat) : Nat :=
  bank + f * 4 + a * 2 ^ 5 + disp * 2 ^ 8

/-- The compact layout NJ (R49). -/
def wordNJ (bank f disp : Nat) : Nat :=
  bank + f * 4 + disp * 2 ^ 5

/-- The bits of an instruction, from the encoding tables of 02_encoding (R37 to R50): the first word in the low bits. An event has none. -/
def Instr.word : Instr → Nat
  | .add l d a b => wordRR 0 l.toNat 0 b.toNat a.toNat d.toNat
  | .sub l d a b => wordRR 0 l.toNat 1 b.toNat a.toNat d.toNat
  | .mul l d a b => wordRR 0 l.toNat 2 b.toNat a.toNat d.toNat
  | .mulh l d a b => wordRR 0 l.toNat 3 b.toNat a.toNat d.toNat
  | .mulhu l d a b => wordRR 0 l.toNat 4 b.toNat a.toNat d.toNat
  | .div l d a b => wordRR 0 l.toNat 5 b.toNat a.toNat d.toNat
  | .divu l d a b => wordRR 0 l.toNat 6 b.toNat a.toNat d.toNat
  | .rem l d a b => wordRR 0 l.toNat 7 b.toNat a.toNat d.toNat
  | .remu l d a b => wordRR 0 l.toNat 8 b.toNat a.toNat d.toNat
  | .and l d a b => wordRR 0 l.toNat 9 b.toNat a.toNat d.toNat
  | .or l d a b => wordRR 0 l.toNat 10 b.toNat a.toNat d.toNat
  | .xor l d a b => wordRR 0 l.toNat 11 b.toNat a.toNat d.toNat
  | .andn l d a b => wordRR 0 l.toNat 12 b.toNat a.toNat d.toNat
  | .shl l d a b => wordRR 0 l.toNat 13 b.toNat a.toNat d.toNat
  | .shr l d a b => wordRR 0 l.toNat 14 b.toNat a.toNat d.toNat
  | .sar l d a b => wordRR 0 l.toNat 15 b.toNat a.toNat d.toNat
  | .rotr l d a b => wordRR 0 l.toNat 16 b.toNat a.toNat d.toNat
  | .min l d a b => wordRR 0 l.toNat 17 b.toNat a.toNat d.toNat
  | .max l d a b => wordRR 0 l.toNat 18 b.toNat a.toNat d.toNat
  | .minu l d a b => wordRR 0 l.toNat 19 b.toNat a.toNat d.toNat
  | .maxu l d a b => wordRR 0 l.toNat 20 b.toNat a.toNat d.toNat
  | .slt l d a b => wordRR 0 l.toNat 21 b.toNat a.toNat d.toNat
  | .sltu l d a b => wordRR 0 l.toNat 22 b.toNat a.toNat d.toNat
  | .seq l d a b => wordRR 0 l.toNat 23 b.toNat a.toNat d.toNat
  | .clz l d a => wordRR 0 l.toNat 24 0 a.toNat d.toNat
  | .ctz l d a => wordRR 0 l.toNat 25 0 a.toNat d.toNat
  | .popc l d a => wordRR 0 l.toNat 26 0 a.toNat d.toNat
  | .sext l d a w => wordRR 0 l.toNat 27 w.toNat a.toNat d.toNat
  | .zext l d a w => wordRR 0 l.toNat 28 w.toNat a.toNat d.toNat
  | .bfx l d a b => wordRR 0 l.toNat 29 b.toNat a.toNat d.toNat
  | .bfi l d a b => wordRR 0 l.toNat 30 b.toNat a.toNat d.toNat
  | .addsat l d a b => wordRR 0 l.toNat 31 b.toNat a.toNat d.toNat
  | .addi d a i => wordRI 1 i.toNat 0 a.toNat d.toNat
  | .andi d a i => wordRI 1 i.toNat 1 a.toNat d.toNat
  | .ori d a i => wordRI 1 i.toNat 2 a.toNat d.toNat
  | .xori d a i => wordRI 1 i.toNat 3 a.toNat d.toNat
  | .slti d a i => wordRI 1 i.toNat 4 a.toNat d.toNat
  | .sltiu d a i => wordRI 1 i.toNat 5 a.toNat d.toNat
  | .shifti k d a n => wordRI 1 (k.toNat * 64 + n.toNat) 6 a.toNat d.toNat
  | .muli d a i => wordRI 1 i.toNat 7 a.toNat d.toNat
  | .lui d i => wordU 2 i.toNat d.toNat
  | .auipc d i => wordU 3 i.toNat d.toNat
  | .ldB l d a p => wordM 4 l.toNat p.toNat 0 a.toNat d.toNat
  | .ldBu l d a p => wordM 4 l.toNat p.toNat 4 a.toNat d.toNat
  | .ldH l d a p => wordM 4 l.toNat p.toNat 1 a.toNat d.toNat
  | .ldHu l d a p => wordM 4 l.toNat p.toNat 5 a.toNat d.toNat
  | .ldW l d a p => wordM 4 l.toNat p.toNat 2 a.toNat d.toNat
  | .ldWu l d a p => wordM 4 l.toNat p.toNat 6 a.toNat d.toNat
  | .ldD l d a p => wordM 4 l.toNat p.toNat 3 a.toNat d.toNat
  | .stB a s p => wordM 5 0 p.toNat 0 a.toNat s.toNat
  | .stH a s p => wordM 5 0 p.toNat 1 a.toNat s.toNat
  | .stW a s p => wordM 5 0 p.toNat 2 a.toNat s.toNat
  | .stD a s p => wordM 5 0 p.toNat 3 a.toNat s.toNat
  | .beq a b p => wordRI 6 p.toNat 0 a.toNat b.toNat
  | .bne a b p => wordRI 6 p.toNat 1 a.toNat b.toNat
  | .blt a b p => wordRI 6 p.toNat 2 a.toNat b.toNat
  | .bge a b p => wordRI 6 p.toNat 3 a.toNat b.toNat
  | .bltu a b p => wordRI 6 p.toNat 4 a.toNat b.toNat
  | .bgeu a b p => wordRI 6 p.toNat 5 a.toNat b.toNat
  | .bkany k p => wordRI 6 p.toNat 6 k.toNat 0
  | .bknone k p => wordRI 6 p.toNat 7 k.toNat 0
  | .jl d i => wordU 7 i.toNat d.toNat
  | .jlr d a => wordRR 8 0 0 0 a.toNat d.toNat
  | .follow d a => wordRR 8 0 1 0 a.toNat d.toNat
  | .leave => wordRR 8 0 2 0 0 0
  | .rejoin d p => wordRR 8 0 3 (p.toNat / 32) (p.toNat % 32) d.toNat
  | .yield => wordRR 8 0 4 0 0 0
  | .nop => wordRR 8 0 5 0 0 0
  | .hint => wordRR 8 0 6 0 0 0
  | .amoAdd l d a b => wordRR 9 l.toNat 0 b.toNat a.toNat d.toNat
  | .amoAnd l d a b => wordRR 9 l.toNat 1 b.toNat a.toNat d.toNat
  | .amoOr l d a b => wordRR 9 l.toNat 2 b.toNat a.toNat d.toNat
  | .amoXor l d a b => wordRR 9 l.toNat 3 b.toNat a.toNat d.toNat
  | .amoMin l d a b => wordRR 9 l.toNat 4 b.toNat a.toNat d.toNat
  | .amoMax l d a b => wordRR 9 l.toNat 5 b.toNat a.toNat d.toNat
  | .amoMinu l d a b => wordRR 9 l.toNat 6 b.toNat a.toNat d.toNat
  | .amoMaxu l d a b => wordRR 9 l.toNat 7 b.toNat a.toNat d.toNat
  | .amoSwap l d a b => wordRR 9 l.toNat 8 b.toNat a.toNat d.toNat
  | .amoCas l d a b => wordRR 9 l.toNat 9 b.toNat a.toNat d.toNat
  | .amoAddn l d a b => wordRR 9 l.toNat 10 b.toNat a.toNat d.toNat
  | .ldAcq l d a => wordRR 9 l.toNat 11 0 a.toNat d.toNat
  | .stRel a b => wordRR 9 0 12 b.toNat a.toNat 0
  | .ldSc l d a => wordRR 9 l.toNat 13 0 a.toNat d.toNat
  | .stSc a b => wordRR 9 0 14 b.toNat a.toNat 0
  | .fence s => wordRR 9 0 15 s.toNat 0 0
  | .fenceSc => wordRR 9 0 16 0 0 0
  | .csrr d c => wordRI 10 c.toNat 0 0 d.toNat
  | .csrw d a c => wordRI 10 c.toNat 1 a.toNat d.toNat
  | .csrset d a c => wordRI 10 c.toNat 2 a.toNat d.toNat
  | .csrclr d a c => wordRI 10 c.toNat 3 a.toNat d.toNat
  | .trap a => wordRI 10 4 4 a.toNat 0
  | .eret => wordRI 10 5 4 0 0
  | .uiret => wordRI 10 6 4 0 0
  | .sreplyResume a => wordRI 10 7 4 a.toNat 0
  | .sreplySignal a => wordRI 10 23 4 a.toNat 0
  | .sreplyKill a => wordRI 10 39 4 a.toNat 0
  | .biasflipHost a => wordRI 10 24 4 a.toNat 0
  | .biasflipDevice a => wordRI 10 8 4 a.toNat 0
  | .wfi => wordRI 10 9 4 0 0
  | .spawn a => wordRR 11 0 0 0 a.toNat 0
  | .sync => wordRR 11 0 1 0 0 0
  | .pubf a => wordRR 11 0 2 0 a.toNat 0
  | .taskend => wordRR 11 0 3 0 0 0
  | .donate d a b => wordRR 11 0 4 b.toNat a.toNat d.toNat
  | .jinit a b => wordRR 11 0 5 b.toNat a.toNat 0
  | .jdec d a => wordRR 11 0 6 0 a.toNat d.toNat
  | .send a b v => wordRR 12 0 0 b.toNat a.toNat v.toNat
  | .sendm a b v => wordRR 12 0 1 b.toNat a.toNat v.toNat
  | .hset d a b => wordRR 12 0 2 b.toNat a.toNat d.toNat
  | .hclr a => wordRR 12 0 3 0 a.toNat 0
  | .hold d a => wordRR 12 0 4 0 a.toNat d.toNat
  | .rels d a => wordRR 12 0 5 0 a.toNat d.toNat
  | .hmask d a b => wordRR 12 0 6 b.toNat a.toNat d.toNat
  | .hret => wordRR 12 0 7 0 0 0
  | .mbxw d a b => wordRR 12 0 8 b.toNat a.toNat d.toNat
  | .bara d n m => wordRR 13 0 0 n.toNat m.toNat d.toNat
  | .barw d n m => wordRR 13 0 1 n.toNat m.toNat d.toNat
  | .barx d n m => wordRR 13 0 2 n.toNat m.toNat d.toNat
  | .team d a b => wordRR 13 0 3 b.toNat a.toNat d.toNat
  | .geosub d a b => wordRR 13 0 4 b.toNat a.toNat d.toNat
  | .vld t k d a => wordV 14 0 t.code k.toNat 0 a.toNat d.toNat
  | .vst t k d a => wordV 14 1 t.code k.toNat 0 a.toNat d.toNat
  | .vlds t k d a b => wordV 14 2 t.code k.toNat b.toNat a.toNat d.toNat
  | .vsts t k d a b => wordV 14 3 t.code k.toNat b.toNat a.toNat d.toNat
  | .vldb t k d a => wordV 14 4 t.code k.toNat 0 a.toNat d.toNat
  | .vldi t k d a b => wordV 14 5 t.code k.toNat b.toNat a.toNat d.toNat
  | .vsti t k d a b => wordV 14 6 t.code k.toNat b.toNat a.toNat d.toNat
  | .vadd t k d a b => wordV 16 0 t.code k.toNat b.toNat a.toNat d.toNat
  | .vsub t k d a b => wordV 16 1 t.code k.toNat b.toNat a.toNat d.toNat
  | .vmul t k d a b => wordV 16 2 t.code k.toNat b.toNat a.toNat d.toNat
  | .vmulh t k d a b => wordV 16 3 t.code k.toNat b.toNat a.toNat d.toNat
  | .vmin t k d a b => wordV 16 4 t.code k.toNat b.toNat a.toNat d.toNat
  | .vmax t k d a b => wordV 16 5 t.code k.toNat b.toNat a.toNat d.toNat
  | .vminu t k d a b => wordV 16 6 t.code k.toNat b.toNat a.toNat d.toNat
  | .vmaxu t k d a b => wordV 16 7 t.code k.toNat b.toNat a.toNat d.toNat
  | .vabs t k d a => wordV 16 8 t.code k.toNat 0 a.toNat d.toNat
  | .vand t k d a b => wordV 16 9 t.code k.toNat b.toNat a.toNat d.toNat
  | .vor t k d a b => wordV 16 10 t.code k.toNat b.toNat a.toNat d.toNat
  | .vxor t k d a b => wordV 16 11 t.code k.toNat b.toNat a.toNat d.toNat
  | .vshl t k d a b => wordV 16 12 t.code k.toNat b.toNat a.toNat d.toNat
  | .vshr t k d a b => wordV 16 13 t.code k.toNat b.toNat a.toNat d.toNat
  | .vsar t k d a b => wordV 16 14 t.code k.toNat b.toNat a.toNat d.toNat
  | .vcmp t k a b c => wordV 16 15 t.code c.toNat b.toNat a.toNat k.toNat
  | .vfadd t k d a b => wordV 17 0 t.code k.toNat b.toNat a.toNat d.toNat
  | .vfsub t k d a b => wordV 17 1 t.code k.toNat b.toNat a.toNat d.toNat
  | .vfmul t k d a b => wordV 17 2 t.code k.toNat b.toNat a.toNat d.toNat
  | .vfdiv t k d a b => wordV 17 3 t.code k.toNat b.toNat a.toNat d.toNat
  | .vfsqrt t k d a => wordV 17 4 t.code k.toNat 0 a.toNat d.toNat
  | .vfmin t k d a b => wordV 17 5 t.code k.toNat b.toNat a.toNat d.toNat
  | .vfmax t k d a b => wordV 17 6 t.code k.toNat b.toNat a.toNat d.toNat
  | .vfabs t k d a => wordV 17 7 t.code k.toNat 0 a.toNat d.toNat
  | .vfneg t k d a => wordV 17 8 t.code k.toNat 0 a.toNat d.toNat
  | .vfcmp t k a b c => wordV 17 9 t.code c.toNat b.toNat a.toNat k.toNat
  | .vfrsq t k d a => wordV 17 10 t.code k.toNat 0 a.toNat d.toNat
  | .vfexp2 t k d a => wordV 17 11 t.code k.toNat 0 a.toNat d.toNat
  | .vflog2 t k d a => wordV 17 12 t.code k.toNat 0 a.toNat d.toNat
  | .vflse t k d a b => wordV 17 13 t.code k.toNat b.toNat a.toNat d.toNat
  | .vfrnd t k d a r => wordV 17 14 t.code k.toNat r.toNat a.toNat d.toNat
  | .vfclass t k d a => wordV 17 15 t.code k.toNat 0 a.toNat d.toNat
  | .vcvt t k d a b => wordV 18 0 t.code k.toNat b.toNat a.toNat d.toNat
  | .vbcast t k d a => wordV 18 1 t.code k.toNat 0 a.toNat d.toNat
  | .vext t d a b => wordV 18 2 t.code 0 b.toNat a.toNat d.toNat
  | .vins t d a b => wordV 18 3 t.code 0 b.toNat a.toNat d.toNat
  | .viota t k d => wordV 18 4 t.code k.toNat 0 0 d.toNat
  | .vpack t k d a b => wordV 18 5 t.code k.toNat b.toNat a.toNat d.toNat
  | .vunpk t k d a h => wordV 18 6 t.code k.toNat h.toNat a.toNat d.toNat
  | .vperm t k d a b => wordV 19 0 t.code k.toNat b.toNat a.toNat d.toNat
  | .vslide t k d a b => wordV 19 1 t.code k.toNat b.toNat a.toNat d.toNat
  | .vsel t k d a b => wordV 19 2 t.code k.toNat b.toNat a.toNat d.toNat
  | .vredadd t k d a => wordV 19 3 t.code k.toNat 0 a.toNat d.toNat
  | .vredmin t k d a => wordV 19 4 t.code k.toNat 0 a.toNat d.toNat
  | .vredmax t k d a => wordV 19 5 t.code k.toNat 0 a.toNat d.toNat
  | .vfredadd t k d a => wordV 19 6 t.code k.toNat 0 a.toNat d.toNat
  | .vscan t k d a => wordV 19 7 t.code k.toNat 0 a.toNat d.toNat
  | .vcompr t k d a => wordV 19 8 t.code k.toNat 0 a.toNat d.toNat
  | .vexpnd t k d a => wordV 19 9 t.code k.toNat 0 a.toNat d.toNat
  | .kand d a b => wordV 20 0 0 0 b.toNat a.toNat d.toNat
  | .kor d a b => wordV 20 1 0 0 b.toNat a.toNat d.toNat
  | .kxor d a b => wordV 20 2 0 0 b.toNat a.toNat d.toNat
  | .kandn d a b => wordV 20 3 0 0 b.toNat a.toNat d.toNat
  | .knot d a => wordV 20 4 0 0 0 a.toNat d.toNat
  | .kfrom d a => wordV 20 5 0 0 0 a.toNat d.toNat
  | .kto d a => wordV 20 6 0 0 0 a.toNat d.toNat
  | .kpop d a => wordV 20 7 0 0 0 a.toNat d.toNat
  | .kfirst d a => wordV 20 8 0 0 0 a.toNat d.toNat
  | .kfill d a => wordV 20 9 0 0 0 a.toNat d.toNat
  | .mlease l d a => wordRR 21 l.toNat 0 0 a.toNat d.toNat
  | .mrel => wordRR 21 0 1 0 0 0
  | .mclaim l d a => wordRR 21 l.toNat 2 0 a.toNat d.toNat
  | .mfree a => wordRR 21 0 3 0 a.toNat 0
  | .mzero l d => wordRR 21 l.toNat 4 0 0 d.toNat
  | .mstat l d a => wordRR 21 l.toNat 5 0 a.toNat d.toNat
  | .mwait l d a => wordRR 21 l.toNat 6 0 a.toNat d.toNat
  | .sld l d a b => wordRR 22 l.toNat 0 b.toNat a.toNat d.toNat
  | .sst d a b => wordRR 22 0 1 b.toNat a.toNat d.toNat
  | .sadd d a b => wordRR 22 0 2 b.toNat a.toNat d.toNat
  | .sclose a => wordRR 22 0 3 0 a.toNat 0
  | .sstat l d a b => wordRR 22 l.toNat 4 b.toNat a.toNat d.toNat
  | .ldg l d a b => wordRR 23 l.toNat 0 b.toNat a.toNat d.toNat
  | .stg d a b => wordRR 23 0 1 b.toNat a.toNat d.toNat
  | .gstep l d a b => wordRR 23 l.toNat 2 b.toNat a.toNat d.toNat
  | .gwait l d a b => wordRR 23 l.toNat 3 b.toNat a.toNat d.toNat
  | .gstat l d a b => wordRR 23 l.toNat 4 b.toNat a.toNat d.toNat
  | .pref a b => wordRR 24 0 0 b.toNat a.toNat 0
  | .res a b => wordRR 24 0 1 b.toNat a.toNat 0
  | .unres a b => wordRR 24 0 2 b.toNat a.toNat 0
  | .flush a b => wordRR 24 0 3 b.toNat a.toNat 0
  | .inv a b => wordRR 24 0 4 b.toNat a.toNat 0
  | .dinv a => wordRR 24 0 5 0 a.toNat 0
  | .copy l d a n => wordX 28 n.toNat 0 l.toNat 0 0 0 a.toNat d.toNat
  | .copym l d a n => wordX 28 n.toNat 0 l.toNat 1 0 0 a.toNat d.toNat
  | .get l d a n => wordX 28 n.toNat 0 l.toNat 2 0 0 a.toNat d.toNat
  | .put l d a n => wordX 28 n.toNat 0 l.toNat 3 0 0 a.toNat d.toNat
  | .dense l d a n => wordX 28 n.toNat 0 l.toNat 4 0 0 a.toNat d.toNat
  | .ctrx l d a n => wordX 28 n.toNat 0 l.toNat 5 0 0 a.toNat d.toNat
  | .ctrw l d a n => wordX 28 n.toNat 0 l.toNat 6 0 0 a.toNat d.toNat
  | .ctrr l d n => wordX 28 n.toNat 0 l.toNat 7 0 0 0 d.toNat
  | .ctrrClear l d n => wordX 28 n.toNat 1 l.toNat 7 0 0 0 d.toNat
  | .mfmt a => wordX 29 0 0 0 0 0 0 a.toNat 0
  | .mlda a b c n => wordX 29 n.toNat 0 0 1 c.toNat b.toNat a.toNat 0
  | .mldb a b c n => wordX 29 n.toNat 0 0 2 c.toNat b.toNat a.toNat 0
  | .mldc l d a b => wordX 29 0 0 l.toNat 3 0 b.toNat a.toNat d.toNat
  | .mma l d a b => wordX 29 0 0 l.toNat 4 0 b.toNat a.toNat d.toNat
  | .mstc d a b c r => wordX 29 0 r.toNat 0 5 c.toNat b.toNat a.toNat d.toNat
  | .mprog a => wordX 29 0 0 0 6 0 0 a.toNat 0
  | .mrun l d a b => wordX 29 0 0 l.toNat 7 0 b.toNat a.toNat d.toNat
  | .vfma l t k d a b c => wordX 30 t.code k.toNat l.toNat 0 c.toNat b.toNat a.toNat d.toNat
  | .vfms l t k d a b c => wordX 30 t.code k.toNat l.toNat 1 c.toNat b.toNat a.toNat d.toNat
  | .vmad l t k d a b c r => wordX 30 (t.code + r.toNat * 8) k.toNat l.toNat 2 c.toNat b.toNat a.toNat d.toNat
  | .vtopk l t k d a c n => wordX 30 (t.code + n.toNat * 8) k.toNat l.toNat 3 c.toNat 0 a.toNat d.toNat
  | .vgather l t k d a b => wordX 30 t.code k.toNat l.toNat 4 0 b.toNat a.toNat d.toNat
  | .vscatter t k d a b => wordX 30 t.code k.toNat 0 5 0 b.toNat a.toNat d.toNat
  | .vdotl l k d a b c => wordX 30 7 k.toNat l.toNat 6 c.toNat b.toNat a.toNat d.toNat
  | .vdotb l k d a b c => wordX 30 4 k.toNat l.toNat 7 c.toNat b.toNat a.toNat d.toNat
  | .sdecl l d a => wordX 31 0 0 l.toNat 0 0 0 a.toNat d.toNat
  | .sdeclFree a => wordX 31 0 1 0 0 0 0 a.toNat 0
  | .siter l d a b => wordX 31 0 0 l.toNat 1 0 b.toNat a.toNat d.toNat
  | .snext l d a b c => wordX 31 0 0 l.toNat 2 c.toNat b.toNat a.toNat d.toNat
  | .gdecl l d a => wordX 31 0 0 l.toNat 3 0 0 a.toNat d.toNat
  | .gdeclFree a => wordX 31 0 1 0 3 0 0 a.toNat 0
  | .addiN d i => wordNI 0 0 i.toNat d.toNat
  | .liN d i => wordNI 0 1 i.toNat d.toNat
  | .shliN d i => wordNI 0 2 i.toNat d.toNat
  | .addN d a => wordNR 0 3 a.toNat 0 d.toNat
  | .subN d a => wordNR 0 3 a.toNat 1 d.toNat
  | .mvN d a => wordNR 0 4 a.toNat 0 d.toNat
  | .lddN d a i => wordNM 1 0 i.toNat a.toNat d.toNat
  | .stdN d a i => wordNM 1 1 i.toNat a.toNat d.toNat
  | .ldwN d a i => wordNM 1 2 i.toNat a.toNat d.toNat
  | .stwN d a i => wordNM 1 3 i.toNat a.toNat d.toNat
  | .beqzN a p => wordNB 1 4 p.toNat a.toNat
  | .bnezN a p => wordNB 1 5 p.toNat a.toNat
  | .jN p => wordNJ 2 0 p.toNat
  | .jrN a => wordNR 2 1 a.toNat 0 0
  | .ldspN d i => wordNI 2 2 i.toNat d.toNat
  | .stspN d i => wordNI 2 3 i.toNat d.toNat
  | .resultArrival _ _ => 0
  | .trapEntry _ => 0
  | .translatedAccess _ => 0
  | .pageWalk _ _ _ => 0
  | .pageFaultAnswer _ => 0
  | .replyResume _ => 0
  | .replySignal _ => 0
  | .replyKill _ => 0
  | .unitFaultReply _ _ => 0
  | .rangeLockGrant _ => 0
  | .renewal _ _ => 0
  | .writeBack _ _ => 0
  | .recallLine _ => 0
  | .ownedLineTimeout _ _ => 0
  | .tokenReturn _ _ => 0
  | .tokenArrival _ _ => 0
  | .ltimeTick _ => 0
  | .lineTimestampVisit _ => 0
  | .scWindowClose _ => 0
  | .scCompletion _ => 0
  | .messageArrival _ => 0
  | .bounce _ => 0
  | .handlerStart _ => 0
  | .distributorOffer _ => 0
  | .hostMessage _ => 0
  | .followerExecute _ => 0
  | .stealProbe _ => 0
  | .stealClaim _ => 0
  | .claimIncrementDone _ => 0
  | .stealDispatch _ => 0
  | .stealBackoff _ => 0
  | .rootDispatch _ => 0
  | .donationEntry _ => 0
  | .syncWake _ => 0
  | .syncPoll _ => 0
  | .overflowSpill _ _ => 0
  | .overflowRefill _ _ => 0
  | .teamTimeout _ => 0
  | .barxRelease _ _ _ => 0
  | .mbxwTimeout _ => 0
  | .ctrwTimeout _ => 0
  | .wfiTimeout _ => 0
  | .copySegment _ _ => 0
  | .copymUnit _ _ => 0
  | .getChunk _ _ => 0
  | .putChunk _ _ => 0
  | .denseShard _ => 0
  | .byteAcknowledgement _ => 0
  | .engineResume _ _ => 0
  | .completionInterrupt _ => 0
  | .residualHoldSend _ => 0
  | .leaseGrant _ => 0
  | .leaseSpent _ => 0
  | .leasedCommandStart _ => 0
  | .leasedCommandComplete _ => 0
  | .slotFillComplete _ _ => 0
  | .indexEngineEvent _ => 0
  | .accumulatorSpill _ _ => 0
  | .partHomeEvent _ => 0
  | .haloPush _ => 0
  | .gridLoadTimeout _ => 0
  | .gwaitTimeout _ => 0
  | .ltsetWrite _ _ => 0
  | .ltperiodWrite _ _ => 0
  | .tepcWrite _ _ => 0
  | .tailWrite _ _ _ => 0
  | .queueEntryRead _ => 0
  | .phaseReread _ => 0
  | .queueBind => 0
  | .ageingQuantum _ => 0
  | .notbeforePassed _ => 0
  | .limitExpiry _ => 0
  | .eventVectorSignal _ => 0
  | .eventHeadAdvance _ _ => 0
  | .createQueue _ _ _ => 0
  | .destroyQueue _ _ => 0
  | .createEvq _ _ _ _ _ _ => 0
  | .setQuantum _ _ => 0
  | .setReserve _ _ _ => 0
  | .endLaunch _ _ => 0
  | .preempt _ _ _ _ => 0
  | .restore _ _ => 0
  | .biasflip _ _ _ => 0
  | .scrub _ _ => 0
  | .dieLost _ _ => 0
  | .setClock _ _ _ => 0
  | .setPower _ _ _ => 0
  | .warmReset _ _ => 0
  | .clusterGate _ _ _ => 0
  | .setEnvelope _ _ => 0
  | .setPkgnum _ _ => 0
  | .setRoute _ _ => 0
  | .setGm _ _ _ => 0
  | .hostcmd _ _ _ => 0
  | .thermalTrip _ => 0
  | .coolantFlowTrip => 0
  | .bringUp => 0
  | .attestationReport _ => 0
  | .monitorControlWrite _ _ _ => 0
  | .monitorClear _ _ => 0
  | .monitorLevelSample _ _ => 0
  | .treutExchange _ => 0
  | .treutSyncReceive _ => 0
  | .followUpReceive _ => 0
  | .delayReqReceive _ => 0
  | .delayRespReceive _ => 0
  | .exchangeMissed _ => 0
  | .linkRetry _ => 0
  | .hostCxlAccess _ _ _ => 0
  | .hostWritebackCompletion _ => 0

/-- The bytes of an instruction as the hardware stores them (R34). An event has none. -/
def encode (i : Instr) : List Byte := toBytes i.length i.word

/-- The instruction the decoder reads from bits numbered as the opcode table numbers them, every bit above nbits zero. -/
def decodeTableWord (nbits w : Nat) : Option Instr :=
  match decode (toBytes 8 (w % 2 ^ nbits)) with
  | .ok (i, _) => some i
  | .error _ => none

end Sys2Proof
end

