-- ==== Sys2Proof/Config.lean ====
section
/-! DEFINITION. What one implementation fixes and what the manual leaves open. The numbers are those of 00_scope to 18_device; the opaque
constants are free values: nothing can be proved of them, so a claim holds whatever they are (logs 3 and 11). -/

namespace Sys2Proof.Config

/-- Service cores of each cluster at the default (R20). -/
def serviceDefault : Nat := 2

/-- The default word of a service core (R121). -/
def servicePword : Nat := 0x00202024

/-- HBM bytes of a die (R27). -/
def hbmBytes : Nat := 0xC00000000

/-- Pool bytes of a core (R24). -/
def poolBytes : Nat := 512 * 1024

/-- How much time passes at a step, in 2^-16 ns (log 3). -/
opaque elapsedClock : Nat → Nat

/-- How a die's own clock strays at a step: its cycles and its `TCLK` (R30, R275, log 3). -/
opaque stray : Nat → Nat → Nat

/-- The delay of the plinth links between the grandmaster and a die, in 2^-16 ns, the same both ways (R277). -/
opaque linkDelay : Nat → Nat

/-- What the manual leaves to chance, by the number of the step that asks (log 11). -/
opaque freeWord : Nat → BitVec 64

/-- The shard that takes a first coordinate for which R407's formula names none (R417). -/
opaque lateShard : Nat → Nat

/-- The fused rollback counter, and the firmware images, 0 the image and 1 its backup (R525): signature and digest are good, the rollback
level, the version. -/
opaque fusedRollback : Nat
opaque imageGenuine : Nat → Bool
opaque imageLevel : Nat → Nat
opaque imageVersion : Nat → Nat

/-- The digests that M0 to M3 are extended with (R526): the ROM's, each image's and its queue firmware's, and the configuration's. -/
opaque romDigest : BitVec 256
opaque imageDigest : Nat → BitVec 256
opaque queueDigest : Nat → BitVec 256
opaque configDigest : BitVec 256

/-- The signature of a report's first 192 bytes under the device identity key (R527). -/
opaque signature : Nat → BitVec 512

/-- The die that R257 calls the target die of a donation queue (log 93). -/
opaque queueDie : Nat → Nat

/-- A Kwaquin link's peer is of the previous generation (R494). -/
opaque oldPeer : Nat → Bool

end Sys2Proof.Config
end

