-- ==== Sys2Proof/Machine/Store.lean ====
section
/-! DEFINITION. The two plain-data stores of the state: `Tab`, a table of values by number in which an absent entry has a default, and
`Mem`, bytes by address in one canonical form: addresses strictly rising and no entry that equals what an unlisted address reads as. -/

namespace Sys2Proof.Machine

/-- A table: values by number, newest entry first. -/
abbrev Tab (α : Type) := List (Nat × α)

/-- The value at k, or d where the table has none. -/
def Tab.get {α : Type} (d : α) (t : Tab α) (k : Nat) : α := ((t.find? fun e => e.1 == k).map (·.2)).getD d

/-- The value at k, if the table has one. -/
def Tab.find {α : Type} (t : Tab α) (k : Nat) : Option α := (t.find? fun e => e.1 == k).map (·.2)

/-- The table without its entry at k. -/
def Tab.del {α : Type} (t : Tab α) (k : Nat) : Tab α := t.filter fun e => e.1 != k

/-- The table with v at k. -/
def Tab.put {α : Type} (t : Tab α) (k : Nat) (v : α) : Tab α := (k, v) :: t.del k

/-- Bytes by address. An address that is not listed reads as zero (log 7). -/
abbrev Mem := List (Nat × Byte)

/-- What an unlisted address reads as (log 7). -/
def Mem.blank : Byte := 0

/-- Reading one byte. -/
def Mem.read (m : Mem) (a : Nat) : Byte := ((m.find? fun e => e.1 == a).map (·.2)).getD Mem.blank

/-- Inserts a byte in front of the first higher address. -/
def Mem.insert (a : Nat) (b : Byte) : Mem → Mem
  | [] => [(a, b)]
  | e :: m => if a < e.1 then (a, b) :: e :: m else e :: Mem.insert a b m

/-- Writing one byte keeps the canonical form: the old entry goes, and a new one stands only if it differs from `blank`. -/
def Mem.write (m : Mem) (a : Nat) (b : Byte) : Mem :=
  let m' := m.filter fun e => e.1 != a
  if b = Mem.blank then m' else Mem.insert a b m'

/-- Reading n bytes as a little-endian number. -/
def Mem.readN (m : Mem) (a : Nat) : Nat → Nat
  | 0 => 0
  | n + 1 => (m.read a).toNat + 256 * m.readN (a + 1) n

/-- Writing the n bytes of a little-endian number. -/
def Mem.writeN (m : Mem) (a : Nat) : Nat → Nat → Mem
  | 0, _ => m
  | n + 1, x => (m.write a (BitVec.ofNat 8 x)).writeN (a + 1) n (x / 256)

/-- The bytes of a range of n addresses from a become zero. -/
def Mem.clear (m : Mem) (a n : Nat) : Mem := m.filter fun e => e.1 < a || a + n ≤ e.1

/-- The n bytes from a, moved to address b. -/
def Mem.slice (m : Mem) (a n b : Nat) : Mem :=
  (m.filter fun e => a ≤ e.1 && e.1 < a + n).map fun e => (e.1 - a + b, e.2)

/-- Copies the n bytes of `src` from a over the n bytes of m from b. -/
def Mem.blit (m : Mem) (b : Nat) (src : Mem) (a n : Nat) : Mem :=
  (src.slice a n b).foldl (fun m e => m.write e.1 e.2) (m.clear b n)

/-- Addresses strictly rise from the given bound, and no entry is blank. -/
def Mem.sortedFrom : Nat → Mem → Bool
  | _, [] => true
  | lo, e :: m => decide (lo ≤ e.1) && e.2 != Mem.blank && Mem.sortedFrom (e.1 + 1) m

/-- The canonical form of a memory. -/
def Mem.wf (m : Mem) : Bool := Mem.sortedFrom 0 m

end Sys2Proof.Machine
end

