-- ==== Sys2Proof/Machine/State.lean ====
section
/-! DEFINITION. The state of a PN-8 package as plain data: its contexts, cores, clusters, dies, memory, launches, queues and links, the
packets between them, and the schedule that says which of the machine's agents acts next (log 1). INVENTORY.md lists every field with
the rule that names it. Contexts are numbered k = core * 8 + context (R16, R159); cores by core identity; clusters by die * 32 + cluster.
A table that holds no entry for a number holds that number's reset value. -/

namespace Sys2Proof.Machine

/-! ### Contexts -/

/-- The states of a context (R203); the save image uses their codes 0 to 4. -/
inductive CtxState where
  | free | running | parked | blocked | following
  deriving DecidableEq, Repr

/-- A register write: scalar, vector, mask or accumulator tile. -/
inductive Wr where
  | s (r : Reg) (x : Word)
  | v (r : Reg) (x : VReg)
  | k (r : KReg) (x : Word)
  | tile (n : Nat) (x : Mem) (dirty : Bool)
  deriving DecidableEq, Repr

/-- The registers of a context (R133, R161, R164). s0 and k0 have no storage. -/
structure Regs where
  s : Tab Word
  v : Tab VReg
  k : Tab Word
  deriving DecidableEq, Repr

/-- What a waiting instruction keeps between attempts: how it waits (R203), the time at which it gives up, numbers of its own, and whether its context
issues nothing until it goes on, whatever its lookahead count (R340, R370). -/
structure Wait where
  how : CtxState
  deadline : Option Nat
  aux : List Nat
  stops : Bool := false
  deriving DecidableEq, Repr

/-- What an outstanding instruction has come to (R56 to R61): its result is held, it has faulted, or it is not done. One that is not done
keeps the registers of its issue. -/
inductive Res where
  | ok (ws : List Wr)
  | trap (code : Nat) (val : Word)
  | pend (i : Instr) (regs : Regs) (w : Wait)
  deriving DecidableEq, Repr

/-- An outstanding instruction: its place in the context's program order, its lookahead count (R54), its address, the address after it, and
the destinations that instructions of its window have written (R56). -/
structure Outst where
  pos : Nat
  la : Nat
  pc : Word
  next : Word
  dropped : List Wr
  res : Res
  deriving DecidableEq, Repr

/-- The lookahead state of one stretch of code: what is outstanding, the place of the next instruction, the places that `ERET` passes
over because they are done (R60), and the addresses of the places issued so far with what each has written. -/
structure Win where
  outst : List Outst
  seq : Nat
  done : List Nat
  path : Tab Word
  wrote : Tab (List Wr)
  deriving DecidableEq, Repr

/-- An instruction on its way from a leader to a follower (R229): its address, the address the leader went on at, the leader's outcome where it is
a conditional branch (R230), and its bits. -/
structure Decoded where
  pc : Word
  next : Word
  taken : Option Bool
  len : Nat
  bits : Nat
  deriving DecidableEq, Repr

/-- A tile landed for a stolen task (R249): where it lies, how long it is, the place it came from and its flags. -/
structure Landed where
  off : Nat
  size : Nat
  entry : Nat
  owner : Nat
  deriving DecidableEq, Repr

/-- A thread context (01_machine, R113, R203). `arrPts` are the greatest pts of the completed phases that its arrival records wait for (R269). `serialWait`: it is blocked on a faulted result that a serialising instruction waits for (R58, R61). -/
structure Ctx where
  state : CtxState
  gen : Nat
  sup : Bool
  pc : Word
  regs : Regs
  fflags : Word
  vstat : Word
  ltime : Nat
  tvec : Word
  tcause : Word
  tval : Word
  tepc : Word
  svec : Word
  scause : Word
  sval : Word
  sepc : Word
  xid : Word
  uiepc : Word
  uien : Word
  frame : Word
  asid : Nat
  mbx : Word
  faultNo : Nat
  hold : Nat
  depth : Nat
  snap : Nat
  taskSnap : Nat
  taskFrame : Nat
  landed : List Landed
  isRoot : Bool
  arr : Tab Nat
  arrPts : Tab Nat
  win : Win
  frozenT : Option Win
  frozenU : Option Win
  cls : Option Nat
  leader : Option (Nat × Nat)
  member : Bool
  port : List Decoded
  latch : Option Decoded
  carried : Nat
  writes : Tab Nat
  yielded : List Nat
  retry : Bool
  serialWait : Bool
  deriving DecidableEq, Repr

/-! ### Messages and tasks -/

/-- A handler entry (R207). -/
structure HEntry where
  pc : Word
  prio : Nat
  arg : Word
  deriving DecidableEq, Repr

/-- A message (R205, R208, R217, R219): `born` is its place in the package's order of sends and arrivals, and
`spilled` says that it lies in a spill ring (R209). A bounce runs as class 0 and shows the class it was `sent` to (R219, R220). -/
structure Msg where
  dst : Nat
  cls : Nat
  sent : Nat
  nc : Nat
  len : Nat
  payload : Nat
  hsrc : Bool
  sender : Nat
  reason : Nat
  slot : Nat
  pts : Nat
  bound : Option HEntry
  born : Nat
  spilled : Bool
  deriving DecidableEq, Repr

/-- States of a deque entry (R240). -/
inductive DqState where
  | present | claimed | stolen
  deriving DecidableEq, Repr

/-- A deque entry (R239). `barred`: it fails every probe until a fault reply, or for good (R250). -/
structure DqEntry where
  snap : Nat
  frame : Nat
  resume : Word
  owner : Nat
  gen : Nat
  foot : Nat
  state : DqState
  bound : Bool
  fS : Bool
  fD : Bool
  pts : Nat
  barred : Nat
  deriving DecidableEq, Repr

/-- A steal in progress (R240, R247 to R250): the core and the entry it claims, whether it is STOLEN, the context and the four landings
reserved, the number of the fault that its fetch waits on, and whether it comes from a donation queue. -/
structure Claim where
  victim : Nat
  entry : DqEntry
  stolen : Bool
  ctx : Nat
  tiles : List Landed
  fault : Option Nat
  signalled : Option Nat
  donated : Bool
  deriving DecidableEq, Repr

/-! ### Engines -/

/-- A completion counter (R346). -/
structure Counter where
  value : Nat
  armed : Bool
  done : Bool
  err : Bool
  uip : Bool
  code : Nat
  uipc : Word
  tag : Nat
  ccwts : Nat
  armer : Nat
  armerGen : Nat
  deriving DecidableEq, Repr

/-- The five engine operations (R336). -/
inductive XferOp where
  | copy | copym | get | put | dense
  deriving DecidableEq, Repr

/-- A transfer record (R340): what was asked, the pts its requests carry, what it still owes, the greatest wts acknowledged, and whether it ended in
error. -/
structure Xfer where
  op : XferOp
  ctx : Nat
  gen : Nat
  sup : Bool
  asid : Nat
  cc : Nat
  dst : Nat
  src : Nat
  n : Nat
  esize : Nat
  list : Nat
  mask : Nat
  lo : Nat
  hi : Nat
  pts : Nat
  slot : Nat
  tag : Nat
  uipc : Word
  notify : Nat
  sender : Nat
  owed : Nat
  pieces : Nat
  acked : Nat
  error : Option Nat
  deriving DecidableEq, Repr

/-- An engine request (R334): a piece of a transfer in a unit's inbox. `pos` is how far it has come, `fault` the fault it waits on, `idx` the
index list once the unit has read it, `shard` the shard of a `DENSE` request. -/
structure Req where
  op : XferOp
  core : Nat
  xfer : Nat
  src : Nat
  dst : Nat
  n : Nat
  pos : Nat
  fault : Option Nat
  idx : Option Nat
  shard : Nat
  deriving DecidableEq, Repr

/-- An acknowledgement on its way to the issuing core (R334): bytes counted and the greatest wts, or an error. -/
structure Ack where
  core : Nat
  xfer : Nat
  bytes : Nat
  wts : Nat
  last : Bool
  error : Option Nat
  deriving DecidableEq, Repr

/-- A range-lock entry (R356): the address-space key, the lines from `lo` to `hi` inclusive, DESTINATION or SOURCE, and its registrant:
a core with a transfer record, or a landed tile's context. -/
structure Lock where
  key : Nat
  lo : Nat
  hi : Nat
  dest : Bool
  core : Nat
  xfer : Nat
  deriving DecidableEq, Repr

/-- A cursor record (R428). -/
structure Cursor where
  opened : Bool
  handle : Nat
  last : Bool
  ended : Bool
  dead : Bool
  gen : Nat
  lo : Nat
  hi : Nat
  key : Nat
  deriving DecidableEq, Repr

/-! ### The matrix array -/

/-- Lease states (R372). -/
inductive LeaseState where
  | none | wait | held | spent
  deriving DecidableEq, Repr

/-- A core's lease (R372, R373); `cycles` is the die's cycle count at the grant. -/
structure Lease where
  state : LeaseState
  n : Nat
  left : Nat
  cycles : Nat
  idle : Nat
  age : Nat
  deriving DecidableEq, Repr

/-- Entries of a core's command queue: the leased commands, and the place of a command that its own instruction performs (R370). -/
inductive CmdOp where
  | mma | mrun | mstc | place
  deriving DecidableEq, Repr

/-- A command in the queue (R370, R393, R396): its number in its core, its context, its tile, the tile's value where an open window
of its context fixes it (R371), its slots with the number of the fill it follows, the addresses and masks of a store, the format word of
its issue, the array cycle of its issue, whether it has started, and the row that a store has come to. -/
structure Cmd where
  op : CmdOp
  id : Nat
  ctx : Nat
  tile : Nat
  old : Option Mem
  slotA : Nat
  fillA : Nat
  slotB : Nat
  fillB : Nat
  base : Nat
  stride : Nat
  masks : Nat
  raw : Bool
  fmt : Nat
  issued : Nat
  started : Bool
  row : Nat
  deriving DecidableEq, Repr

/-- Slot states (R383), with the codes of R389. -/
inductive SlotState where
  | free | empty | filling | ready | error
  deriving DecidableEq, Repr

/-- One fill of a slot that has arrived (R385, R387): its role, format and K, where its rows lie, whose access it is, how far it has come
and how it ended. `no` is its number in the slot's arrival order. -/
structure Fill where
  no : Nat
  roleB : Bool
  fmt : Nat
  kq : Nat
  base : Nat
  stride : Nat
  ctx : Nat
  asid : Nat
  pts : Nat
  row : Nat
  data : Mem
  ended : Bool
  code : Nat
  fault : Option Nat
  readers : Nat
  deriving DecidableEq, Repr

/-- An operand slot (R382, R383): the fills that have arrived and still matter, oldest first. -/
structure Slot where
  state : SlotState
  owner : Nat
  team : Bool
  code : Nat
  nextNo : Nat
  fills : List Fill
  deriving DecidableEq, Repr

/-! ### Cores and clusters -/

/-- A TEAM proposal (R265). -/
structure Proposal where
  ctx : Nat
  word : Nat
  pts : Nat
  deadline : Option Nat
  deriving DecidableEq, Repr

/-- What the steal engine of a core is doing (R247). -/
structure StealEngine where
  round : Bool
  pos : Nat
  used : Nat
  resumeAt : Option Nat
  deriving DecidableEq, Repr

/-- A line held in an L1 (R298): its bytes, for a guest line the stamps it was read under, whether a prefetch brought it and no access has met
it since (R331), and its dirty bytes, bit i for byte i, with the contexts that wrote them and the greatest pts among them. `va` and `key` name
it to the range locks (R360). -/
structure L1Line where
  data : Nat
  guest : Bool
  wts : Nat
  rts : Nat
  outside : Bool
  fetched : Bool
  va : Nat
  key : Nat
  dirty : Nat
  writers : List Nat
  pts : Nat
  deriving DecidableEq, Repr

/-- Dirty bytes of an L1 that a range lock holds at their slice (R360): the line, its core, and what its L1 copy kept of them. -/
structure HeldBytes where
  line : Nat
  core : Nat
  copy : L1Line
  deriving DecidableEq, Repr

/-- A core with its pool and per-core units (R13). `coming` are its prefetches in flight, by virtual and physical line, with true where the L1 is to hold it, and
`brought` those that a prefetch has brought to a slice and no access has met since (R326, R331). The oldest `spilled` entries of the deque lie in its
ring at `ringBase`, and `ringFault` is the fault that a spill or refill of it waits on (R253, R254). -/
structure Core where
  pword : Nat
  geom : Nat
  stealcfg : Nat
  hmask : Nat
  bounces : Nat
  pagermap : Nat
  pfiss : Nat
  pfuse : Nat
  pflate : Nat
  pfdrop : Nat
  handlers : Tab HEntry
  recv : List Msg
  deque : List DqEntry
  spilled : Nat
  ringBase : Nat
  ringQuota : Nat
  ringFault : Option Nat
  msgQuota : Nat
  counters : Tab Counter
  xfers : Tab Xfer
  cursors : Tab Cursor
  lease : Lease
  queue : List Cmd
  storing : List Cmd
  cmdNo : Nat
  fmt : Option Nat
  prog : Option Nat
  tiles : Tab Mem
  dirty : Nat
  scratch : Mem
  share : Mem
  steal : StealEngine
  claims : List Claim
  proposal : Option Proposal
  l1 : Tab L1Line
  coming : List (Nat × Nat × Bool)
  brought : List Nat
  faultCount : Nat
  slot : Option Nat
  saving : Bool
  stopped : Bool
  scSeq : Nat
  deriving DecidableEq, Repr

/-- A barrier of a team (R267). `pts` is the greatest of the phase's arrivals, `phasePts` that of the last completed phase; `words` are the
words that `BARX` arrivals of the phase brought, with core and context; `failed` are contexts to trap and the value (R129). -/
structure Barrier where
  expect : Nat
  arrived : Nat
  phase : Nat
  pts : Nat
  phasePts : Option Nat
  words : List (Nat × Nat × Nat)
  releasing : Bool
  failed : List (Nat × Nat)
  deriving DecidableEq, Repr

/-- A packet of a multicast in a router's hold (R476): the cores still to be sent to, where its bytes go, and its transfer. -/
structure Held where
  mask : Nat
  off : Nat
  len : Nat
  data : Nat
  core : Nat
  xfer : Nat
  deriving DecidableEq, Repr

/-- A cluster's units (R13): barrier records by team (its lowest core) * 64 + barrier, operand slots, array, undeliverable ring, residual
multicasts, resident lines. -/
structure Cluster where
  barriers : Tab Barrier
  slots : Tab Slot
  lastGrant : Nat
  undBase : Nat
  undQuota : Nat
  undCount : Nat
  undDropped : Nat
  noticesDropped : Nat
  gated : Bool
  resident : List (Nat × Nat)
  residual : List Held
  deriving DecidableEq, Repr

/-- A hash-accumulator entry of a slice (R422): launch slot, region number and generation, key, current value, last touch. -/
structure AccEntry where
  slot : Nat
  num : Nat
  gen : Nat
  key : Nat
  value : Nat
  touch : Nat
  deriving DecidableEq, Repr

/-! ### Dies -/

/-- Power states (R517). -/
inductive Power where
  | d0 | d1 | d2 | d3
  deriving DecidableEq, Repr

/-- A line homed elsewhere that the die owns (R300): its bytes, whether they are newer than home, the contexts that wrote it, the greatest
pts among them and the clock at the first store since the last write-back. -/
structure Owned where
  data : Nat
  dirty : Bool
  writers : List Nat
  pts : Nat
  since : Nat
  deriving DecidableEq, Repr

/-- A guest copy (R301). -/
structure Guest where
  data : Nat
  wts : Nat
  rts : Nat
  deriving DecidableEq, Repr

/-- A cached translation (R290): the translating slice that holds it (R285), address space (none for G), first address and size of its page, the
leaf and the leaf's address. -/
structure Tlb where
  slice : Nat
  asid : Option Nat
  va : Nat
  size : Nat
  pte : Nat
  pteAt : Nat
  deriving DecidableEq, Repr

/-- A registration waiting at the range-lock table (R358). -/
structure LockReq where
  core : Nat
  xfer : Nat
  ranges : List (Nat × Nat × Nat × Bool)
  reqs : List (Nat × Req)
  deriving DecidableEq, Repr

/-- A transfer whose instruction has its result and that has not yet registered (R340): the issuing context at its generation, its place in program
order, and the registration to come. -/
structure Issuing where
  ctx : Nat
  gen : Nat
  pos : Nat
  req : LockReq
  deriving DecidableEq, Repr

/-- What a service core has answered to a fault held by a unit (R361). -/
inductive FaultReply where
  | waiting | resume | signal
  deriving DecidableEq, Repr

/-- A fault held by a unit (R361): its VA, the context named, the launch, and for what the unit waits: a shard or part block (`place`). -/
structure UnitFault where
  va : Nat
  ctx : Nat
  slot : Nat
  place : Nat
  reply : FaultReply
  deriving DecidableEq, Repr

/-- A monitor unit (R522). -/
structure Monitor where
  ctl : Nat
  min : Nat
  max : Nat
  count : Nat
  sum : Nat
  bins : Tab Nat
  deriving DecidableEq, Repr

/-- An SC operation waiting for its window and its end (R315): context, number in its core, and the stamp and number of its die window. -/
structure ScOp where
  ctx : Nat
  seq : Nat
  stamp : Option (Nat × Nat)
  deriving DecidableEq, Repr

/-- A write whose token has not come (R281, R302): its stream, the packet's number there, the context and the wts that the token reports. A
stream is 8 times the die or, from 8, the package written to, and the network class. -/
structure Report where
  dst : Nat
  no : Nat
  ctx : Nat
  wts : Nat
  deriving DecidableEq, Repr

/-- A synchronisation exchange in progress (R277): the stamps taken and the number of messages of it that have arrived. -/
structure Exchange where
  stage : Nat
  t1 : Nat
  t2 : Nat
  t3 : Nat
  t4 : Nat
  deriving DecidableEq, Repr

/-- A die and the plinth half beneath it (R13). `phase` is how far its clock has come in the cycle that runs, and `slack` what its servo may still
correct (R275); `firstGen` is the generation of its contexts that have not run since its reset (R159, R514). `floor` is the wts and rts of the lines
that `stamps` does not list (R305); `sent`, `seen` and `acked` count write packets by stream, and `owing` says since when a home owes a token (R281);
`held` are the dirty bytes that range locks hold at its slices (R360), and `scatters` the lines that its slices hold for scatters: context, key, line (R196,
R358). -/
structure Die where
  power : Power
  mhz : Nat
  service : Nat
  cyc : Nat
  phase : Nat
  tclk : Nat
  slack : Nat
  xbound : Nat
  bound : Nat
  missed : Nat
  xloss : Bool
  slewmax : Bool
  loss : Bool
  lastSync : Nat
  offset : Int
  exch : Option Exchange
  ptroot : Nat
  ltperiod : Nat
  lease : Nat
  home : Nat
  nextTick : Nat
  locks : List Lock
  lockQ : List LockReq
  issuing : List Issuing
  inbox : Tab (List Req)
  inboxQuota : Nat
  fifo : List Msg
  fifoQuota : Nat
  pointers : Tab Nat
  tlb : List Tlb
  owned : Tab Owned
  guest : Tab Guest
  held : List HeldBytes
  scatters : List (Nat × Nat × Nat)
  floor : Nat
  faults : Tab UnitFault
  faultNo : Nat
  monitors : Tab Monitor
  scq : List ScOp
  scWindow : Nat
  sent : Tab Nat
  seen : Tab Nat
  acked : Tab Nat
  owing : Tab Nat
  reports : List Report
  lost : Bool
  up : Bool
  resets : Nat
  firstGen : Nat
  deriving DecidableEq, Repr

/-! ### Launches, regions, grids, queues -/

/-- States of a launch slot (R484). -/
inductive SlotUse where
  | free | running | saved
  deriving DecidableEq, Repr

/-- What a save keeps of a launch beside memory (R508 to R511): its contexts, cores, barrier records and operand slots by cluster, the replies and
messages that have come for it since, and the cores whose dirty tiles have been written to the save area (R401). -/
structure Saved where
  ctxs : Tab Ctx
  cores : Tab Core
  barriers : Tab (Tab Barrier)
  slots : Tab (Tab Slot)
  replies : List (Nat × Nat × Nat)
  arrivals : List Msg
  moved : List Nat
  deriving DecidableEq, Repr

/-- A launch slot (R484, R485): what the entry asked for, where it runs, and what it has used of its LIMIT. While it is being saved, `save` is the
step of R512 reached and `late` what has arrived for it since (R231); `area` is the save area, `cmd` the host command that waits for it, `wanted` that
it is to be restored. -/
structure Launch where
  state : SlotUse
  queue : Nat
  tag : Nat
  evq : Nat
  code : Nat
  pword : Nat
  rows : Nat
  cols : Nat
  root : Nat
  dqmask : Nat
  limit : Nat
  began : Option Nat
  used : Nat
  clusters : List Nat
  asid : Nat
  level : Nat
  boundAt : Nat
  starving : Bool
  rootReady : Bool
  save : Option Nat
  late : List Msg
  area : Option Nat
  cmd : Option Nat
  wanted : Bool
  saved : Option Saved
  deriving DecidableEq, Repr

/-- A sparse region's table entry (R405, R406, R417, R427). -/
structure Region where
  gen : Nat
  declared : Bool
  desc : Nat
  at_ : Nat
  asid : Nat
  quota : Nat
  ext : Nat
  stale : Bool
  stamps : Tab (Nat × Nat)
  deriving DecidableEq, Repr

/-- A ghost slot (R445): the step it is stamped with and its cells, by source coordinate. -/
structure Ghost where
  stamp : Option Nat
  cells : Tab Nat
  pts : Nat
  deriving DecidableEq, Repr

/-- A segment's ghost slots and its latest stamp (R445). -/
structure Segment where
  slots : Tab Ghost
  latest : Option Nat
  deriving DecidableEq, Repr

/-- A part's state at its part home (R445), kept by the address of its block. -/
structure Part where
  m : Nat
  front : Tab Nat
  back : Tab Nat
  backTag : Option Nat
  segs : Tab Segment
  deriving DecidableEq, Repr

/-- A push of a committed step (R454): the source's block and part number, the target's address and part number, the unit that stamps it (a
die, or 8 + package), the step, the cells, the context and its pts, the fault it waits on, and the code it has failed with. -/
structure Push where
  src : Nat
  srcPart : Nat
  dst : Nat
  dstPart : Nat
  to_ : Nat
  depth : Nat
  step : Nat
  cells : Tab Nat
  ctx : Nat
  gen : Nat
  pts : Nat
  grid : Nat
  fault : Option Nat
  error : Option Nat
  deriving DecidableEq, Repr

/-- A grid's table entry (R438, R439, R461). -/
structure Grid where
  gen : Nat
  declared : Bool
  desc : Nat
  owners : List Nat
  at_ : Nat
  asid : Nat
  fast : Bool
  timeout : Nat
  const : Nat
  stale : Bool
  deriving DecidableEq, Repr

/-- A donation queue (R256). -/
structure DonQueue where
  slot : Option Nat
  entries : List DqEntry
  quota : Nat
  deriving DecidableEq, Repr

/-- A donated entry on its way to a queue, with the context that waits for the status (R258). -/
structure Offer where
  queue : Nat
  entry : DqEntry
  ctx : Nat
  pkg : Nat
  status : Option Nat
  deriving DecidableEq, Repr

/-- A user queue (R480 to R483, R486). `failed` is its error state, `since` the start of its age, `ready` an entry that has been read and checked
and waits for a slot. -/
structure HQueue where
  spec : QueueSpec
  tail : Nat
  head : Nat
  failed : Bool
  since : Nat
  rereads : Nat
  rereadAt : Option Nat
  ready : Option Nat
  notBefore : Nat
  deriving DecidableEq, Repr

/-- An event for the host before it is written (R489): TYPE, slot, TAG, bytes 16 to 23 and the payload of a MESSAGE. -/
structure HostEvent where
  type : Nat
  slot : Nat
  tag : Nat
  info : Nat
  payload : Nat
  deriving DecidableEq, Repr

/-- An event queue (R489, R490): its ring, and the events accepted but not yet written, in order. -/
structure EvQ where
  base : Nat
  entries : Nat
  header : Nat
  vector : Nat
  tail : Nat
  head : Nat
  buffer : List HostEvent
  drops : Nat
  signalled : Option Nat
  owed : Bool
  signals : Nat
  deriving DecidableEq, Repr

/-- A flip of a page to device bias that waits for the host's write-back (R319): the address of the page's leaf, the page, and the context
that waits, or the host command's sequence number. -/
structure Flip where
  pteAt : Nat
  base : Nat
  size : Nat
  ctx : Option Nat
  seq : Nat
  done : Bool
  deriving DecidableEq, Repr

/-- An answer on its way from a slice to a load-store unit (R293): who asked, and the fault with its cause, level and leaf, or the data. -/
structure Answer where
  req : AccessReq
  fault : Option (Nat × Nat × Nat)
  value : Nat
  deriving DecidableEq, Repr

/-- A reply of a service core on its way to a thread (R293, R504): the thread word and the reply code. -/
structure Reply where
  thread : Nat
  code : Nat
  deriving DecidableEq, Repr

/-- The package and what surrounds it (01_machine, 16_host, 18_device). `tripSignals` counts the signals of MSI-X vector 0 at trips (R521). -/
structure Package where
  number : Nat
  gmDie : Nat
  sysref : Bool
  routes : Tab (List Nat)
  oldPeers : List Nat
  retries : Tab Nat
  quantum : Nat
  reserve : Tab Nat
  envelope : Nat
  trip : Option Nat
  bringup : Nat
  meas : Tab (BitVec 256)
  rollback : Nat
  report : Option Nat
  nonce : Option Nat
  image : Option Nat
  born : Nat
  tripSignals : Nat
  deriving DecidableEq, Repr

/-! ### The machine -/

/-- The state of the machine. -/
structure State where
  ctxs : Tab Ctx
  cores : Tab Core
  clusters : Tab Cluster
  dies : Tab Die
  acc : Tab (List AccEntry)
  mem : Mem
  poison : List Nat
  stamps : Tab (Nat × Nat)
  launches : Tab Launch
  regions : Tab Region
  grids : Tab Grid
  parts : Tab Part
  pushes : List Push
  donq : Tab DonQueue
  offers : List Offer
  queues : Tab HQueue
  evqs : Tab EvQ
  flips : List Flip
  net : List Msg
  bounces : List Msg
  acks : List Ack
  answers : List Answer
  replies : List Reply
  pkg : Package
  cur : Nat
  agenda : List Event
  pace : List Bool
  turns : List Nat
  ticks : Nat
  draws : Nat
  deriving DecidableEq, Repr

/-- Why the machine can stop. -/
inductive Fault where
  /-- Raised by `step` when the schedule names a context that the package does not have. Safe: no rule gives such a step a meaning, and no
  run from reset meets it. -/
  | noSuchContext
  deriving DecidableEq, Repr

/-- Why the model can give an instruction no meaning. -/
inductive Refusal where
  /-- Raised by `exec` for an instruction that has no meaning yet. Safe: nothing can be proved of its effect. -/
  | notModelled (mnemonic : String)
  deriving DecidableEq, Repr

/-! ### Reset values -/

/-- Registers at reset: every one reads zero (log 6). -/
def Regs.reset : Regs := { s := [], v := [], k := [] }

/-- No window open. -/
def Win.reset : Win := { outst := [], seq := 0, done := [], path := [], wrote := [] }

/-- A free context (R203), every register at its reset value; `sup` says whether its core is a service core. -/
def Ctx.reset (sup : Bool) : Ctx :=
  { state := .free, gen := 0, sup := sup, pc := 0, regs := Regs.reset, fflags := 0, vstat := 0, ltime := 0,
    tvec := 0, tcause := 0, tval := 0, tepc := 0, svec := 0, scause := 0, sval := 0, sepc := 0,
    xid := 0, uiepc := 0, uien := 0, frame := 0, asid := 0, mbx := 0, faultNo := 0, hold := 0, depth := 0,
    snap := 0, taskSnap := 0, taskFrame := 0, landed := [], isRoot := false, arr := [], arrPts := [], win := Win.reset,
    frozenT := none, frozenU := none, cls := none, leader := none, member := false, port := [], latch := none, carried := 0,
    writes := [], yielded := [], retry := false, serialWait := false }

/-- GEOM of a team of one: own bit, one row, one column (R262). -/
def geomReset (c : Nat) : Nat := 2 ^ (21 + c % 16) + 1 * 2 ^ 13 + 1 * 2 ^ 8

/-- STEALCFG at reset (R237): BACKOFF 16, BUDGET 32, DOMAIN 2. -/
def stealcfgReset : Nat := 16 * 2 ^ 16 + 32 * 2 ^ 8 + 2

/-- No lease (R372). -/
def Lease.reset : Lease := { state := .none, n := 0, left := 0, cycles := 0, idle := 0, age := 0 }

/-- The steal engine at rest. -/
def StealEngine.reset : StealEngine := { round := false, pos := 0, used := 0, resumeAt := none }

/-- A core after its die's reset; `service` is the die's number of service cores in a cluster (R20), and `up` says whether firmware has
set the service cores' words and handler masks (R121, R210, R524). -/
def Core.reset (service : Nat) (up : Bool) (c : Nat) : Core :=
  let sup := up && decide (16 - service ≤ c % 16)
  { pword := if sup then Config.servicePword else 1, geom := geomReset c, stealcfg := stealcfgReset,
    hmask := if sup then 0xF else 1, bounces := 0, pagermap := 16 - service + c % 16 % service,
    pfiss := 0, pfuse := 0, pflate := 0, pfdrop := 0, handlers := [], recv := [], deque := [], spilled := 0,
    ringBase := 0, ringQuota := 4096, ringFault := none, msgQuota := 4096, counters := [], xfers := [], cursors := [], lease := Lease.reset, queue := [], storing := [], cmdNo := 0,
    fmt := none, prog := none, tiles := [], dirty := 0, scratch := [], share := [], steal := StealEngine.reset, claims := [],
    proposal := none, l1 := [], coming := [], brought := [], faultCount := 0, slot := none, saving := false, stopped := false, scSeq := 0 }

/-- A barrier of a team of one (R266, R267). -/
def Barrier.reset (expect : Nat) : Barrier :=
  { expect := expect, arrived := 0, phase := 0, pts := 0, phasePts := none, words := [], releasing := false, failed := [] }

/-- A free operand slot (R383). -/
def Slot.reset : Slot := { state := .free, owner := 0, team := false, code := 0, nextNo := 0, fills := [] }

/-- Cluster n after reset: core 15 counts as last granted (R374); its undeliverable ring lies at the top of its die's memory (log 20). -/
def Cluster.reset (n : Nat) : Cluster :=
  { barriers := [], slots := [], lastGrant := 15, undBase := n / 32 * 2 ^ 36 + 0xBFF000000 + n % 32 * 0x4000, undQuota := 64, undCount := 0, undDropped := 0,
    noticesDropped := 0, gated := false, resident := [], residual := [] }

/-- A monitor unit after reset (R522). -/
def Monitor.reset : Monitor := { ctl := 0, min := 2 ^ 64 - 1, max := 0, count := 0, sum := 0, bins := [] }

/-- A die after reset (R276, R286, R304, R305, R517). -/
def Die.reset : Die :=
  { power := .d0, mhz := 2100, service := Config.serviceDefault, cyc := 0, phase := 0, tclk := 0, slack := 0, xbound := 0xFFFF, bound := 0xFFFF, missed := 0,
    xloss := false, slewmax := false, loss := true, lastSync := 0, offset := 0, exch := none, ptroot := 0, ltperiod := 1000, lease := 16,
    home := 0, nextTick := 1000, locks := [], lockQ := [], issuing := [], inbox := [], inboxQuota := 4096, fifo := [], fifoQuota := 4096,
    pointers := [], tlb := [], owned := [], guest := [], held := [], scatters := [], floor := 0, faults := [], faultNo := 0, monitors := [], scq := [], scWindow := 0,
    sent := [], seen := [], acked := [], owing := [], reports := [], lost := false, up := false, resets := 0, firstGen := 0 }

/-- A free launch slot (R484). -/
def Launch.reset : Launch :=
  { state := .free, queue := 0, tag := 0, evq := 0, code := 0, pword := 0, rows := 1, cols := 1, root := 0, dqmask := 0, limit := 0,
    began := none, used := 0, clusters := [], asid := 0, level := 0, boundAt := 0, starving := false, rootReady := false,
    save := none, late := [], area := none, cmd := none, wanted := false, saved := none }

/-- A free region entry (R405). -/
def Region.reset : Region :=
  { gen := 0, declared := false, desc := 0, at_ := 0, asid := 0, quota := 0, ext := 0, stale := false, stamps := [] }

/-- A free grid entry (R438). -/
def Grid.reset : Grid :=
  { gen := 0, declared := false, desc := 0, owners := [], at_ := 0, asid := 0, fast := false, timeout := 0, const := 0, stale := false }

/-- An unbound donation queue (R256). -/
def DonQueue.reset : DonQueue := { slot := none, entries := [], quota := 4096 }

/-- The package after reset, before its bring-up (R524, R486, R485, R491). -/
def Package.reset : Package :=
  { number := 0, gmDie := 0, sysref := false, routes := [], oldPeers := [], retries := [], quantum := 250000,
    reserve := [], envelope := 1900, trip := none, bringup := 0, meas := [], rollback := 0, report := none, nonce := none,
    image := none, born := 0, tripSignals := 0 }

/-- The machine right after reset: nothing launched, nothing in memory, and the six steps of the bring-up ahead (R524). -/
def State.reset : State :=
  { ctxs := [], cores := [], clusters := [], dies := [], acc := [], mem := [], poison := [], stamps := [], launches := [], regions := [],
    grids := [], parts := [], pushes := [], donq := [], offers := [], queues := [], evqs := [], flips := [], net := [], bounces := [],
    acks := [], answers := [], replies := [], pkg := Package.reset, cur := 0,
    agenda := [.bringUp, .bringUp, .bringUp, .bringUp, .bringUp, .bringUp], pace := [], turns := [], ticks := 0, draws := 0 }

end Sys2Proof.Machine
end

