-- ==== Sys2Proof/Machine/Base.lean ====
section
/-! DEFINITION. Reading and changing the parts of a state: contexts, cores, clusters, dies and launches by number; registers with their
hard-wired ones; the numbering of 01_machine; the pool's carve-outs; time. Everything that reads or writes a register goes through here. -/

namespace Sys2Proof.Machine

/-! ### Numbering (R15 to R18) -/

/-- The core of a context. -/
def coreOf (k : Nat) : Nat := k / 8

/-- The die of a core (R16). -/
def dieOf (c : Nat) : Nat := c / 512

/-- The cluster of a core, counted through the package: die * 32 + cluster (R15, R16). -/
def clusterOf (c : Nat) : Nat := c / 16

/-- Contexts of the package (R28). -/
def contextCount : Nat := 32768

/-- The plinth that a die sits on (R12). -/
def plinthOf (d : Nat) : Nat := d / 2

/-- The plinth from which Kwaquin link k leaves the package (R19). -/
def linkPlinth (k : Nat) : Nat := k / 3

/-- The link by which packets of die d leave for another package, if a route names one for its plinth, and the plinth that it leaves from (R19, R493). -/
def State.linkFor (s : State) (d pkg : Nat) : Option (Nat × Nat) :=
  ((s.pkg.routes.find? fun e => e.1 == pkg).bind fun e => e.2[plinthOf d]?).map fun k => (k, linkPlinth k)

/-- The link distance between dies (R18). -/
def linkDistance (d e : Nat) : Nat :=
  if d = e then 0
  else if plinthOf d = plinthOf e then 1
  else 1 + min ((plinthOf d + 4 - plinthOf e) % 4) ((plinthOf e + 4 - plinthOf d) % 4)

/-- The Manhattan distance between clusters of one die (R15, R247). -/
def clusterDistance (a b : Nat) : Nat :=
  let dy := max (a % 32 / 8) (b % 32 / 8) - min (a % 32 / 8) (b % 32 / 8)
  let dx := max (a % 8) (b % 8) - min (a % 8) (b % 8)
  dx + dy

/-! ### The tables of the state -/

/-- Die d. -/
def State.die (s : State) (d : Nat) : Die := Tab.get Die.reset s.dies d

/-- The state with die d replaced. -/
def State.setDie (s : State) (d : Nat) (x : Die) : State := { s with dies := s.dies.put d x }

/-- The state with die d changed. -/
def State.modDie (s : State) (d : Nat) (f : Die → Die) : State := s.setDie d (f (s.die d))

/-- Core c; a core without an entry is as its die's reset left it. -/
def State.core (s : State) (c : Nat) : Core := Tab.get (Core.reset (s.die (dieOf c)).service (s.die (dieOf c)).up c) s.cores c

/-- The state with core c replaced. -/
def State.setCore (s : State) (c : Nat) (x : Core) : State := { s with cores := s.cores.put c x }

/-- The state with core c changed. -/
def State.modCore (s : State) (c : Nat) (f : Core → Core) : State := s.setCore c (f (s.core c))

/-- The cores 16 - S to 15 of every cluster are service cores, once firmware has designated them (R20). -/
def State.isService (s : State) (c : Nat) : Bool := decide (16 - (s.die (dieOf c)).service ≤ c % 16)

/-- Cluster n, counted through the package. -/
def State.cluster (s : State) (n : Nat) : Cluster := Tab.get (Cluster.reset n) s.clusters n

/-- The state with cluster n changed. -/
def State.modCluster (s : State) (n : Nat) (f : Cluster → Cluster) : State := { s with clusters := s.clusters.put n (f (s.cluster n)) }

/-- Context k; a context without an entry is free, in the mode of its core (R495), and of the generation that its die's reset left (R159, R514). -/
def State.ctx (s : State) (k : Nat) : Ctx :=
  Tab.get { Ctx.reset (s.isService (coreOf k)) with gen := (s.die (dieOf (coreOf k))).firstGen } s.ctxs k

/-- The state with context k replaced. -/
def State.setCtx (s : State) (k : Nat) (x : Ctx) : State := { s with ctxs := s.ctxs.put k x }

/-- The state with context k changed. -/
def State.modCtx (s : State) (k : Nat) (f : Ctx → Ctx) : State := s.setCtx k (f (s.ctx k))

/-- Launch slot n (R484). -/
def State.launch (s : State) (n : Nat) : Launch := Tab.get Launch.reset s.launches n

/-- The state with launch slot n changed. -/
def State.modLaunch (s : State) (n : Nat) (f : Launch → Launch) : State := { s with launches := s.launches.put n (f (s.launch n)) }

/-- Puts an event at the end of the agenda (log 1). -/
def State.post (s : State) (e : Event) : State := { s with agenda := s.agenda ++ [e] }

/-- The launch slot that a message or event of core c carries: 0xFFFF for a core that runs no launch (R489, R491). -/
def State.slotOf (s : State) (c : Nat) : Nat := ((s.core c).slot).getD 0xFFFF

/-! ### Registers (R133, R161, R164) -/

/-- Scalar register r; s0 reads zero (R133). -/
def Regs.rs (g : Regs) (r : Reg) : Word := if r = 0 then 0 else Tab.get 0 g.s r.toNat

/-- Vector register r (R161). -/
def Regs.rv (g : Regs) (r : Reg) : VReg := Tab.get 0 g.v r.toNat

/-- Mask register r; k0 reads all ones (R164). -/
def Regs.rk (g : Regs) (r : KReg) : Word := if r = 0 then BitVec.allOnes 64 else Tab.get 0 g.k r.toNat

/-- Writing scalar register r; a write to s0 is discarded (R133). -/
def Regs.ws (g : Regs) (r : Reg) (x : Word) : Regs := if r = 0 then g else { g with s := g.s.put r.toNat x }

/-- Writing vector register r. -/
def Regs.wv (g : Regs) (r : Reg) (x : VReg) : Regs := { g with v := g.v.put r.toNat x }

/-- Writing mask register r; a write to k0 is discarded (R164). -/
def Regs.wk (g : Regs) (r : KReg) (x : Word) : Regs := if r = 0 then g else { g with k := g.k.put r.toNat x }

/-- Scalar register r of context k. -/
def State.rs (s : State) (k : Nat) (r : Reg) : Word := (s.ctx k).regs.rs r

/-- Writing accumulator tile n of core c: its contents and its dirty bit (R117). -/
def State.writeTile (s : State) (c n : Nat) (m : Mem) (dirty : Bool) : State :=
  s.modCore c fun x => { x with tiles := x.tiles.put n m, dirty := setBits x.dirty n 1 (ofBool dirty) }

/-- Tile n of core c. -/
def State.tile (s : State) (c n : Nat) : Mem := Tab.get [] (s.core c).tiles n

/-- Performs one register write of context k. -/
def State.wr (s : State) (k : Nat) : Wr → State
  | .s r x => s.modCtx k fun c => { c with regs := c.regs.ws r x }
  | .v r x => s.modCtx k fun c => { c with regs := c.regs.wv r x }
  | .k r x => s.modCtx k fun c => { c with regs := c.regs.wk r x }
  | .tile n m dirty => s.writeTile (coreOf k) n m dirty

/-- Performs register writes in order. -/
def State.wrs (s : State) (k : Nat) (ws : List Wr) : State := ws.foldl (fun s w => s.wr k w) s

/-- Two writes with one destination. -/
def Wr.same : Wr → Wr → Bool
  | .s a _, .s b _ => a == b
  | .v a _, .v b _ => a == b
  | .k a _, .k b _ => a == b
  | .tile a _ _, .tile b _ _ => a == b
  | _, _ => false

/-! ### The pool's carve-outs (R109, R110, R112) -/

/-- BACKED, HRES, ACC, L1 code and SHARED of a partition word (R109). -/
def pwBacked (w : Nat) : Nat := bits w 3 0
def pwHres (w : Nat) : Nat := bits w 6 4
def pwAcc (w : Nat) : Nat := bits w 12 7
def pwL1 (w : Nat) : Nat := bits w 15 13
def pwShared (w : Nat) : Nat := bits w 21 16

/-- L1 bytes of a size code (R109). -/
def l1Bytes : Nat → Nat
  | 1 => 32 * 1024
  | 2 => 64 * 1024
  | 3 => 128 * 1024
  | 4 => 192 * 1024
  | _ => 0

/-- What the carve-outs above private scratch take (R110). -/
def carved (w : Nat) : Nat := 4096 * pwBacked w + 8192 * pwAcc w + l1Bytes (pwL1 w) + 8192 * pwShared w

/-- The private scratch size P of a word (R110). -/
def scratchSize (w : Nat) : Nat := Config.poolBytes - carved w

/-- A valid partition word (R110). -/
def pwValid (w : Nat) : Bool :=
  decide (1 ≤ pwBacked w ∧ pwBacked w ≤ 8) && decide (pwHres w + 1 ≤ pwBacked w) && decide (pwAcc w ≤ 32) && decide (pwL1 w ≤ 4) &&
    decide (pwShared w ≤ 32) && decide (bits w 31 22 = 0) && decide (carved w + 32 * 1024 ≤ Config.poolBytes)

/-- Task contexts of a word: contexts 0 to BACKED - HRES - 1 (R112). -/
def pwTasks (w : Nat) : Nat := pwBacked w - pwHres w

/-- Context k is a handler context (R112). -/
def State.isHandler (s : State) (k : Nat) : Bool :=
  let w := (s.core (coreOf k)).pword
  decide (pwTasks w ≤ k % 8 ∧ k % 8 < pwBacked w)

/-- Tiles of a core (R115). -/
def State.accTiles (s : State) (c : Nat) : Nat := pwAcc (s.core c).pword

/-! ### Geometry of a team (R262) -/

/-- MASK, PER, COLS, ROWS, COL and ROW of GEOM (R262). -/
def geomMask (g : Nat) : Nat := bits g 36 21
def geomPer (g : Nat) : Nat := bits g 20 18
def geomCols (g : Nat) : Nat := bits g 17 13
def geomRows (g : Nat) : Nat := bits g 12 8
def geomCol (g : Nat) : Nat := bits g 7 4
def geomRow (g : Nat) : Nat := bits g 3 0

/-- The members of core c's team, by core number in its cluster. -/
def State.team (s : State) (c : Nat) : List Nat := (List.range 16).filter fun i => bit (geomMask (s.core c).geom) i

/-- A team is named by its lowest member (its barrier records stand under that number). -/
def State.teamId (s : State) (c : Nat) : Nat := ctz 16 (geomMask (s.core c).geom)

/-! ### Time (R160, R275, log 3) -/

/-- TCLK of die d, not wrapped: nanoseconds times 2^16. -/
def State.now (s : State) (d : Nat) : Nat := (s.die d).tclk

/-- Nanoseconds of TCLK on die d. -/
def State.ns (s : State) (d : Nat) : Nat := (s.die d).tclk / 65536

/-- The time at which a timeout of so many nanoseconds from now passes; none for all ones (R218, R264, R349). It is a time of the 64-bit clock: a
whole turn of it is dropped (R275). -/
def State.deadline (s : State) (d : Nat) (t : Word) : Option Nat :=
  if t = BitVec.allOnes 64 then none else some (s.now d + t.toNat * 65536 % 2 ^ 64)

/-- Die d's clock has reached a time, in the serial-number order of R275. -/
def State.reached (s : State) (d t : Nat) : Bool := serialGe 64 (s.now d) t

/-- A deadline has passed on die d. -/
def State.passed (s : State) (d : Nat) : Option Nat → Bool
  | none => false
  | some t => s.reached d t

/-- What is left on die d's clock until a time. -/
def State.left (s : State) (d t : Nat) : Nat := if s.reached d t then 0 else (t + (2 ^ 64 - s.now d % 2 ^ 64)) % 2 ^ 64

/-- A clock cycle of 1 MHz in units of 2^-16 ns. -/
def cycleUnit : Nat := 65536 * 1000

/-- A die's cycles over a time: as many as its own clock makes (R30, R31), which strays from its rate by less than one (log 3). -/
def Die.counted (x : Die) (t stray : Nat) : Die :=
  let n := x.phase + t * x.mhz + stray % cycleUnit
  { x with cyc := (x.cyc + n / cycleUnit) % 2 ^ 64, phase := n % cycleUnit }

/-- A die's `TCLK` over a time (R275, R277): the servo removes the offset of the last exchange at no more than 199 ppm, and the rate strays by no more
than 1 ppm beside (log 3), so that it never differs from the nominal one by more than 200 ppm and never steps. -/
def Die.slewed (x : Die) (t stray : Nat) : Die :=
  let w : Int := match stray % 3 with | 0 => 0 | 1 => Int.ofNat (t / 10 ^ 6) | _ => -Int.ofNat (t / 10 ^ 6)
  if x.offset = 0 then { x with tclk := ((x.tclk : Int) + t + w).toNat, slack := 0 }
  else
    let n : Nat := (x.slack + t * 199) / 10 ^ 6
    let a : Int := if 0 < x.offset then -(min x.offset n) else min (-x.offset) n
    { x with tclk := ((x.tclk : Int) + t + w + a).toNat, offset := x.offset + a, slack := (x.slack + t * 199) % 10 ^ 6 }

/-- A die over a time: `TCLK` runs in D0 to D2, `CYC` counts in D0 and D1, and neither runs in D3 (R31, R32, R517). -/
def Die.ran (x : Die) (t stray : Nat) : Die := match x.power with
  | .d0 | .d1 => (x.slewed t (stray / cycleUnit)).counted t stray
  | .d2 => x.slewed t (stray / cycleUnit)
  | .d3 => x

/-- Time passes until die d's clock shows a time, if that lies ahead. A clock that is being slewed back needs a little more of it (log 21). -/
def State.runTo (s : State) (d t : Nat) : State :=
  let n := s.left d t
  if n = 0 then s
  else
    let n := if 0 < (s.die d).offset then n * 10 ^ 6 / (10 ^ 6 - 199) + 2 else n
    (List.range 8).foldl (fun s' e => s'.modDie e fun x => x.ran n 0) s

/-- Moves die d's clock on to a deadline. -/
def State.runToDeadline (s : State) (d : Nat) : Option Nat → State
  | none => s
  | some t => s.runTo d t

/-- The bound in ns of a die in sync, or of a package (R278, R279). -/
def syncBound (cross : Bool) : Nat := if cross then 37 else 3

/-- The bound of a die that has been without an exchange for a time: 200 ppm of it more, rounded up (R278). -/
def lostBound (cross : Bool) (since : Nat) : Nat :=
  min 0xFFFF (syncBound cross + (since * 200 + (65536 * 10 ^ 6 - 1)) / (65536 * 10 ^ 6))

/-- A free value: what the manual leaves to chance, fresh at each use (log 11). -/
def State.free (s : State) : Word × State := (Config.freeWord s.draws, { s with draws := s.draws + 1 })

/-! ### Logical time (R302, R303, R305) -/

/-- Raises context k's pts to a stamp, in serial-number order (R303). -/
def State.raisePts (s : State) (k p : Nat) : State := s.modCtx k fun c => { c with ltime := serialMax 24 c.ltime p }

/-- Raises die d's home time H to a stamp (R305). -/
def State.raiseHome (s : State) (d p : Nat) : State := s.modDie d fun x => { x with home := serialMax 24 x.home p }

/-- The (wts, rts) of the line with number l (R302); a line that is not listed has those of its home's last visit (R305). -/
def State.lineStamps (s : State) (l : Nat) : Nat × Nat :=
  let f := (s.die (bits (l * 64) 38 36)).floor
  Tab.get (f, f) s.stamps l

/-- The thread word of context k: KIND 1, generation, context and core (R205). -/
def State.threadWord (s : State) (k : Nat) : Nat := 1 * 2 ^ 62 + (s.ctx k).gen * 2 ^ 15 + k % 8 * 2 ^ 12 + coreOf k

/-- The sender bits of context k: generation, context and core (R219). -/
def State.senderBits (s : State) (k : Nat) : Nat := (s.ctx k).gen * 2 ^ 15 + k % 8 * 2 ^ 12 + coreOf k

end Sys2Proof.Machine
end

