-- ==== Sys2Proof/Machine/Access.lean ====
section
/-! DEFINITION. Which bytes an instruction's own accesses touch, by the registers at its issue (R59): what orders the accesses of one context whose
windows are open. Also the elements of vector registers and masks, and the registers of compact forms, by which those bytes are named. -/

namespace Sys2Proof

namespace Machine

/-- Element i of a register of elements of w bits (R162). -/
def elem (w : Nat) (x : VReg) (i : Nat) : Nat := x.toNat / 2 ^ (w * i) % 2 ^ w

/-- A mask governs element i (R164). -/
def active (m : Word) (i : Nat) : Bool := m.toNat / 2 ^ i % 2 == 1

/-- The register that a three-bit field of a compact form names: s1 to s8 (R49). -/
def regN (r : BitVec 3) : Reg := BitVec.ofNat 5 (r.toNat + 1)

/-- Two ranges of bytes, each an address and a length, share a byte. -/
def meets (x y : Nat × Nat) : Bool := decide ((x.1 + 2 ^ 64 - y.1) % 2 ^ 64 < y.2 ∨ (y.1 + 2 ^ 64 - x.1) % 2 ^ 64 < x.2)

end Machine

open Machine in
/-- The ranges of bytes that an instruction accesses by itself, as its address and its length (R143, R172, R194, R320, R336, R386, R392, R393, R416,
R429, R439), by the registers at its issue; none where more than registers names them: the index list of `GET` and `PUT`. Rows of matrix operands
count with their greatest length. -/
def Instr.spans (i : Instr) (g : Regs) : Option (List (Nat × Nat)) :=
  let far := fun (a : Reg) (p : BitVec 8) (n : Nat) => some [((g.rs a + p.signExtend 64 * BitVec.ofNat 64 n).toNat, n)]
  let near := fun (a : Reg) (p n : Nat) => some [((g.rs a + BitVec.ofNat 64 (p * n)).toNat, n)]
  let at_ := fun (a : Reg) (n : Nat) => some [((g.rs a).toNat, n)]
  let lanes := fun (t : ElTy) (k : KReg) (f : Nat → Nat) =>
    some (((List.range t.lanes).filter (active (g.rk k))).map fun j => (f j % 2 ^ 64, t.width / 8))
  let unit_ := fun (t : ElTy) (k : KReg) (a : Reg) => lanes t k fun j => (g.rs a).toNat + j * (t.width / 8)
  let stride := fun (t : ElTy) (k : KReg) (a b : Reg) => lanes t k fun j => (g.rs a).toNat + j * (g.rs b).toNat
  let index := fun (t : ElTy) (k : KReg) (a b : Reg) => lanes t k fun j => (g.rs a).toNat + elem t.width (g.rv b) j * (t.width / 8)
  let rows := fun (a b : Reg) (n len : Nat) => some ((List.range n).map fun r => (((g.rs a).toNat + r * (g.rs b).toNat) % 2 ^ 64, len))
  match i with
  | .ldB _ _ a p | .ldBu _ _ a p | .stB a _ p => far a p 1
  | .ldH _ _ a p | .ldHu _ _ a p | .stH a _ p => far a p 2
  | .ldW _ _ a p | .ldWu _ _ a p | .stW a _ p => far a p 4
  | .ldD _ _ a p | .stD a _ p => far a p 8
  | .lddN _ a p | .stdN _ a p => near (regN a) p.toNat 8
  | .ldwN _ a p | .stwN _ a p => near (regN a) p.toNat 4
  | .ldspN _ p | .stspN _ p => near 30 p.toNat 8
  | .amoAdd _ _ a _ | .amoAnd _ _ a _ | .amoOr _ _ a _ | .amoXor _ _ a _ | .amoMin _ _ a _ | .amoMax _ _ a _ | .amoMinu _ _ a _
  | .amoMaxu _ _ a _ | .amoSwap _ _ a _ | .amoCas _ _ a _ | .amoAddn _ _ a _ | .ldAcq _ _ a | .stRel a _ | .ldSc _ _ a | .stSc a _ => at_ a 8
  | .vld t k _ a | .vst t k _ a => unit_ t k a
  | .vlds t k _ a b | .vsts t k _ a b => stride t k a b
  | .vldb t k _ a => lanes t k fun _ => (g.rs a).toNat
  | .vldi t k _ a b | .vsti t k _ a b | .vgather _ t k _ a b | .vscatter t k _ a b => index t k a b
  | .mlda a b _ _ => rows a b 32 2048
  | .mldb a b _ n => rows a b ((n.toNat + 1) * 32) 128
  | .mldc _ _ a b | .mstc _ a b _ _ => rows a b 32 256
  | .siter _ _ _ b => at_ b 32
  | .copy _ _ a _ | .copym _ _ a _ | .dense _ _ a _ | .sdecl _ _ a => at_ a 64
  | .gdecl _ _ a => at_ a (64 + 2 * 65536)
  | .get .. | .put .. => none
  | _ => some []

/-- Two instructions access a byte in common, as far as their registers tell. -/
def Instr.overlaps (i : Instr) (g : Machine.Regs) (j : Instr) (h : Machine.Regs) : Bool :=
  match i.spans g, j.spans h with
  | some xs, some ys => xs.any fun x => ys.any (Machine.meets x)
  | some [], _ | _, some [] => false
  | _, _ => true

end Sys2Proof
end

