-- ==== Sys2Proof/Machine/Monitor.lean ====
section
/-! DEFINITION. Monitor units (R522, R523): their control words, captures and samples. How long a thing has taken is not modelled, so the value
of a latency or level sample is a free value (logs 3 and 11); that a sample is taken, and what it does to a unit, are not. -/

namespace Sys2Proof.Machine

/-- Fields of a control word (R522). -/
def monFilter (w : Nat) : Nat := bits w 63 32
def monFreeze (w : Nat) : Bool := bit w 17
def monSource (w : Nat) : Nat := bits w 15 1
def monEnabled (w : Nat) : Bool := bit w 0

/-- Monitor unit u of die d. -/
def State.monitor (s : State) (d u : Nat) : Monitor := Tab.get Monitor.reset (s.die d).monitors u
def State.setMonitor (s : State) (d u : Nat) (x : Monitor) : State := s.modDie d fun y => { y with monitors := y.monitors.put u x }

/-- A unit captures samples of a source with an argument (R522); source 7 has none (R523). -/
def Monitor.takes (x : Monitor) (source arg : Nat) : Bool :=
  monEnabled x.ctl && !monFreeze x.ctl && monSource x.ctl == source && (source == 7 || monFilter x.ctl == 2 ^ 32 - 1 || monFilter x.ctl == arg)

/-- The bin of a latency sample (R522). -/
def binOf (v : Nat) : Nat := min 15 (Nat.log2 v)

/-- A unit after a sample (R522). Only a latency sample falls in a bin. -/
def Monitor.sample (x : Monitor) (v : Nat) (latency : Bool) : Monitor :=
  let top := 2 ^ 64 - 1
  { x with min := Nat.min x.min v, max := Nat.max x.max v, count := Nat.min (x.count + 1) top, sum := Nat.min (x.sum + v) top,
           bins := if latency then x.bins.put (binOf v) (Nat.min (Tab.get 0 x.bins (binOf v) + 1) top) else x.bins }

/-- A unit cleared (R522). -/
def Monitor.cleared (x : Monitor) : Monitor := { Monitor.reset with ctl := x.ctl }

/-- A latency sample of a source on die d: every unit there that takes it captures it. -/
def State.latency (s : State) (d source arg : Nat) : State :=
  if (s.die d).monitors.any fun e => e.2.takes source arg then
    let (v, s) := s.free
    s.modDie d fun y => { y with monitors := y.monitors.map fun e => if e.2.takes source arg then (e.1, e.2.sample v.toNat true) else e }
  else s

/-- A write to the control word of a unit (R522): reserved bits stay zero, and CLEAR clears at once. -/
def execMonitorControlWrite (die unit x : Nat) (s : State) : Host.Outcome State Fault Refusal :=
  if 8 ≤ die || 32 ≤ unit then .next s
  else
    let w := x % 2 ^ 64
    let m := s.monitor die unit
    let m := if bit w 16 then m.cleared else m
    .next (s.setMonitor die unit { m with ctl := monFilter w * 2 ^ 32 + ofBool (monFreeze w) * 2 ^ 17 + w % 2 ^ 16 })

/-- CLEAR written to a unit (R522). -/
def execMonitorClear (die unit : Nat) (s : State) : Host.Outcome State Fault Refusal :=
  if 8 ≤ die || 32 ≤ unit then .next s else .next (s.setMonitor die unit (s.monitor die unit).cleared)

/-- The level sources (R523). -/
def levelSource (n : Nat) : Bool := n == 6 || n == 9 || n == 10

/-- A level source takes its sample (R522, R523). The retries of a link are the model's own count; the other levels are free values. -/
def execMonitorLevelSample (die unit : Nat) (s : State) : Host.Outcome State Fault Refusal :=
  let m := s.monitor die unit
  if !(monEnabled m.ctl) || monFreeze m.ctl || !levelSource (monSource m.ctl) then .next s
  else if monSource m.ctl = 10 then
    let of := fun (t : Tab Nat) => if monFilter m.ctl = 2 ^ 32 - 1 then t.foldl (fun n e => n + e.2) 0 else Tab.get 0 t (monFilter m.ctl)
    .next (s.setMonitor die unit (m.sample (of s.pkg.retries) false))
  else
    let (v, s) := s.free
    .next (s.setMonitor die unit (m.sample v.toNat false))

/-- LINK_RETRY (R492): a retry only delays; the link's count of retries rises. -/
def execLinkRetry (link : Nat) (s : State) : Host.Outcome State Fault Refusal :=
  .next { s with pkg := { s.pkg with retries := s.pkg.retries.put link (Tab.get 0 s.pkg.retries link + 1) } }

end Sys2Proof.Machine
end

