-- ==== Sys2Proof/Machine/Host.lean ====
section
/-! DEFINITION. Operations shared by every family that end in the host or in a message: writing an event (R489, R490), sending and
bouncing a message (R205, R217, R220), posting a page-fault message (R292, R361), and the end of a launch (R255, R404, R437, R462). -/

namespace Sys2Proof.Machine

/-! ### Event queues (R489, R490) -/

/-- An event that the ring keeps entries free for: LAUNCH_END, LAUNCH_ERROR and POISON (R490). -/
def HostEvent.kept (e : HostEvent) : Bool := e.type == 2 || e.type == 3 || e.type == 4

/-- Entries in use of an event queue's ring. -/
def EvQ.used (q : EvQ) : Nat := (q.tail + 2 ^ 64 - q.head % 2 ^ 64) % 2 ^ 64

/-- The ring has room for an event: 16 entries are kept for the events of R490. -/
def EvQ.room (q : EvQ) (e : HostEvent) : Bool :=
  if e.kept then decide (q.used < q.entries) else decide (q.used + 16 < q.entries)

/-- The 128 bytes of an event written at ring position n of a ring of the given size at a time (R489); PHASE is 1 in even passes (R482). -/
def HostEvent.image (e : HostEvent) (n entries tclk : Nat) : Nat :=
  e.type + (if n / entries % 2 = 0 then 128 else 0) * 2 ^ 8 + e.slot % 2 ^ 16 * 2 ^ 16 + e.tag % 2 ^ 32 * 2 ^ 32 +
    tclk % 2 ^ 64 * 2 ^ 64 + e.info % 2 ^ 64 * 2 ^ 128 + e.payload % 2 ^ 512 * 2 ^ 512

/-- Writes one event to the ring of queue n, then the tail index in the header line; the vector is owed a signal (R489). -/
def State.putEvent (s : State) (n : Nat) (q : EvQ) (e : HostEvent) : State :=
  let m := s.mem.writeN (q.base + 128 * (q.tail % q.entries)) 128 (e.image q.tail q.entries (s.now 0))
  let m := m.writeN q.header 8 (q.tail + 1)
  let q' := { q with tail := (q.tail + 1) % 2 ^ 64, owed := true }
  { s with mem := m, evqs := s.evqs.put n q' }.post (.eventVectorSignal n)

/-- Writes the events that wait, in order, as far as there is room (R490). -/
def State.drainEvents (s : State) (n : Nat) : Nat → State
  | 0 => s
  | fuel + 1 =>
    match s.evqs.find n with
    | none => s
    | some q =>
      match q.buffer with
      | [] => s
      | e :: es => if q.room e then ({ s with evqs := s.evqs.put n { q with buffer := es } }.putEvent n { q with buffer := es } e).drainEvents n fuel else s

/-- Gives an event to queue n: it is written when there is room and nothing waits before it, and waits otherwise (R490). A queue that was
never created takes nothing. -/
def State.hostEvent (s : State) (n : Nat) (e : HostEvent) : State :=
  match s.evqs.find n with
  | none => s
  | some q =>
    if q.buffer.isEmpty && q.room e then s.putEvent n q e
    else { s with evqs := s.evqs.put n { q with buffer := q.buffer ++ [e] } }

/-- A SEND to HOST is accepted while fewer than 16 messages wait in the buffer (R490). -/
def State.hostAccepts (s : State) (n : Nat) : Bool :=
  match s.evqs.find n with
  | none => false
  | some q => decide ((q.buffer.filter fun e => e.type == 1).length < 16)

/-- Writes the drop count of bounces to the header line of queue n (R489, R220). -/
def State.countDrop (s : State) (n : Nat) : State :=
  match s.evqs.find n with
  | none => s
  | some q => { s with evqs := s.evqs.put n { q with drops := q.drops + 1 }, mem := s.mem.writeN (q.header + 16) 8 (q.drops + 1) }

/-- The event queue of a launch slot; events of no launch go to queue 0. -/
def State.evqOf (s : State) (slot : Nat) : Nat := if slot < 1024 then (s.launch slot).evq else 0

/-- The TAG of a launch slot. -/
def State.tagOf (s : State) (slot : Nat) : Nat := if slot < 1024 then (s.launch slot).tag else 0

/-- The slot that a command's completion names: 0xFFFF where the slot holds no launch (R489). -/
def State.named (s : State) (slot : Nat) : Nat := if slot < 1024 && (s.launch slot).state != .free then slot else 0xFFFF

/-- COMMAND_DONE on event queue 0 (R491): status 0 for done, 1 for rejected. -/
def State.commandDone (s : State) (seq slot status : Nat) : State :=
  s.hostEvent 0 { type := 5, slot := slot, tag := s.tagOf slot, info := seq % 2 ^ 32 + status * 2 ^ 32, payload := 0 }

/-- A read of a POISON line is told to the host (R307, R489). -/
def State.tellPoison (s : State) (slot pa : Nat) : State :=
  s.hostEvent (s.evqOf slot) { type := 4, slot := slot, tag := s.tagOf slot, info := pa, payload := 0 }

/-! ### Messages (R205 to R221) -/

/-- KIND and CORE of a destination word (R205). -/
def dstKind (d : Nat) : Nat := bits d 63 62
def dstCore (d : Nat) : Nat := bits d 11 0

/-- The info word of a message (R219). -/
def Msg.info (m : Msg) : Nat :=
  2 ^ 63 + m.reason * 2 ^ 61 + m.len * 2 ^ 41 + m.nc * 2 ^ 38 + m.sent * 2 ^ 32 + ofBool m.hsrc * 2 ^ 31 + (if m.hsrc then 0 else m.sender)

/-- Returns a message to its sender's core as a bounce with a reason (R220). One from the host or a hardware unit is dropped and counted. -/
def State.bounceMsg (s : State) (m : Msg) (reason : Nat) : State :=
  if m.hsrc then s.countDrop (s.evqOf m.slot)
  else
    let b := { m with cls := 0, reason := reason, sender := m.dst % 2 ^ 23, nc := m.nc, bound := none }
    let b := { b with dst := m.sender % 4096 }
    { s with bounces := s.bounces ++ [b] }.post (.bounce (m.sender % 4096))

/-- Sends a message: to a core or a thread it travels in the network; to a die it enters that die's distributor, which bounces it when
its ring is at quota; to the host it goes to the launch's event queue (R206, R215, R253, R490). -/
def State.send (s : State) (m : Msg) : State :=
  let m := { m with born := s.pkg.born }
  let s := { s with pkg := { s.pkg with born := s.pkg.born + 1 } }
  match dstKind m.dst with
  | 2 =>
    let d := bits m.dst 11 9
    if (s.die d).fifo.length < 64 + (s.die d).fifoQuota then
      (s.modDie d fun x => { x with fifo := x.fifo ++ [m] }).post (.distributorOffer d)
    else s.bounceMsg m 3
  | 3 => { s with net := s.net ++ [m] }.post (.hostMessage (s.evqOf m.slot))
  | _ => { s with net := s.net ++ [m] }.post (.messageArrival (dstCore m.dst))

/-- A message of a hardware unit to a core: HSRC 1, SENDER zero (R219). -/
def hwMsg (core cls nc len payload slot pts : Nat) : Msg :=
  { dst := core, cls := cls, sent := cls, nc := nc, len := len, payload := payload, hsrc := true, sender := 0, reason := 0, slot := slot, pts := pts,
    bound := none, born := 0, spilled := false }

/-- The 48 bytes of a page-fault message (R292). -/
def faultPayload (va asid kind cause level : Nat) (user : Bool) (thread no pte handle : Nat) : Nat :=
  va % 2 ^ 64 + (asid % 4096 + kind * 2 ^ 12 + cause * 2 ^ 16 + level * 2 ^ 18 + ofBool user * 2 ^ 21) * 2 ^ 64 + thread * 2 ^ 128 +
    no % 2 ^ 32 * 2 ^ 192 + pte * 2 ^ 256 + handle * 2 ^ 320

/-- The service core that PAGERMAP names for core c (R295). -/
def State.pager (s : State) (c : Nat) : Nat := c / 16 * 16 + (s.core c).pagermap % 16

/-- Posts a page-fault message of core c to its pager, on network class 4 (R292). -/
def State.postFault (s : State) (c payload pts : Nat) : State :=
  s.send (hwMsg (s.pager c) 2 4 48 payload (s.slotOf c) pts)

/-- Puts a fault into a unit's care and posts its message with the handle of R361: die, unit, VA, kind, cause, level, leaf, the context
named and the place that waits. The message counts among those of the issuing core (R292). Answers the key of the fault at its unit. -/
def State.unitFault (s : State) (d unit va asid kind : Nat) (fault : Nat × Nat × Nat) (user : Bool) (k thread place : Nat) : Nat × State :=
  let no := (s.die d).faultNo % 2 ^ 32
  let count := (s.core (coreOf k)).faultCount
  let key := unit * 2 ^ 32 + no
  let f : UnitFault := { va := va, ctx := k, slot := s.slotOf (coreOf k), place := place, reply := .waiting }
  let s := s.modDie d fun x => { x with faultNo := x.faultNo + 1, faults := x.faults.put key f }
  let s := s.modCore (coreOf k) fun x => { x with faultCount := (x.faultCount + 1) % 2 ^ 32 }
  let handle := 2 ^ 63 + d * 2 ^ 41 + unit * 2 ^ 35 + no
  (key, s.postFault (coreOf k) (faultPayload va asid kind fault.1 fault.2.1 user thread count fault.2.2 handle) (s.ctx k).ltime)

/-! ### Freeing contexts and ending launches -/

/-- A context becomes free: its windows, holds and handler mark go; its registers and generation stay (R203, R225, R244). -/
def Ctx.freed (c : Ctx) : Ctx :=
  { c with state := .free, win := Win.reset, frozenT := none, frozenU := none, hold := 0, cls := none, leader := none, member := false,
           port := [], latch := none, carried := 0, depth := 0, landed := [], isRoot := false, yielded := [], retry := false, serialWait := false,
           mbx := 0, writes := [] }

/-- The worker cores of a launch's clusters. -/
def State.coresOf (s : State) (l : Launch) : List Nat :=
  l.clusters.flatMap fun n => ((List.range 16).map fun i => n * 16 + i).filter fun c => !s.isService c

/-- A core lets go of a launch (R255, R404): its contexts become free and everything in flight on it is discarded. -/
def State.leaveCore (s : State) (c : Nat) : State :=
  let s := (List.range 8).foldl (fun s i => s.modCtx (c * 8 + i) Ctx.freed) s
  s.modCore c fun x =>
    { x with slot := none, deque := [], spilled := 0, ringFault := none, claims := [], steal := StealEngine.reset, lease := Lease.reset, queue := [], storing := [], fmt := none,
             prog := none, proposal := none, xfers := [], cursors := x.cursors.map fun (e : Nat × Cursor) => (e.1, { e.2 with opened := false }),
             recv := [], saving := false }

/-- A slot whose owner's launch ends becomes free, its fills abandoned (R383). -/
def freeSlotsOf (cores : List Nat) (t : Tab Slot) : Tab Slot := t.map fun e => if cores.contains e.2.owner then (e.1, Slot.reset) else e

/-- What a launch holds outside its cores goes: regions, grids, accumulator entries, pushes, bindings and unit faults (R255, R437, R462). -/
def State.dropTables (s : State) (slot : Nat) : State :=
  let s := (List.range 8).foldl (fun s d => s.modDie d fun x => { x with faults := x.faults.filter fun (e : Nat × UnitFault) => e.2.slot != slot }) s
  { s with
    pushes := s.pushes.filter fun p => p.grid / 32 != slot
    regions := s.regions.filter fun (e : Nat × Region) => e.1 / 64 != slot
    grids := s.grids.filter fun (e : Nat × Grid) => e.1 / 32 != slot
    acc := s.acc.map fun (e : Nat × List AccEntry) => (e.1, e.2.filter fun a => a.slot != slot)
    donq := s.donq.map fun (e : Nat × DonQueue) => if e.2.slot = some slot then (e.1, DonQueue.reset) else e }

/-- The marks of resident lines that a launch has set go, at every slice of the package (R327). -/
def State.dropMarks (s : State) (slot : Nat) : State :=
  { s with clusters := s.clusters.map fun (e : Nat × Cluster) => (e.1, { e.2 with resident := e.2.resident.filter fun r => r.2 != slot }) }

/-- What contexts of certain cores have written counts for nobody any more: no token will raise the pts of their next occupants. -/
def State.forgetWriters (s : State) (cs : List Nat) : State :=
  let gone := fun (k : Nat) => cs.contains (coreOf k)
  let s := (List.range 8).foldl (fun s d => s.modDie d fun x =>
    { x with reports := x.reports.filter fun (r : Report) => !gone r.ctx, scatters := x.scatters.filter fun y => !gone y.1,
             owned := x.owned.map fun e => (e.1, { e.2 with writers := e.2.writers.filter fun k => !gone k }),
             held := x.held.map fun b => { b with copy := { b.copy with writers := b.copy.writers.filter fun k => !gone k } } }) s
  { s with cores := s.cores.map fun (e : Nat × Core) =>
      (e.1, { e.2 with l1 := e.2.l1.map fun y => (y.1, { y.2 with writers := y.2.writers.filter fun k => !gone k }) }) }

/-- The cores of a running launch let go of it, and its clusters and dies of what it held there. -/
def State.clearCores (s : State) (l : Launch) : State :=
  let cs := s.coresOf l
  let s := cs.foldl State.leaveCore s
  let s := l.clusters.foldl (fun s n => s.modCluster n fun x =>
    { x with slots := freeSlotsOf cs x.slots, barriers := [] }) s
  let s := (List.range 8).foldl (fun s d => s.modDie d fun x =>
    { x with locks := x.locks.filter fun (e : Lock) => !cs.contains e.core, lockQ := x.lockQ.filter fun (e : LockReq) => !cs.contains e.core,
             issuing := x.issuing.filter fun (e : Issuing) => !cs.contains e.req.core,
             inbox := x.inbox.map (fun (e : Nat × List Req) => (e.1, e.2.filter fun r => !cs.contains r.core)),
             scq := x.scq.filter fun o => !cs.contains (coreOf o.ctx) }) s
  let s := s.forgetWriters cs
  let s := (List.range 8).foldl (fun s d => if (s.die d).locks.isEmpty && (s.die d).lockQ.isEmpty && (s.die d).held.isEmpty then s else s.post (.rangeLockGrant d)) s
  { s with acks := s.acks.filter fun a => !cs.contains a.core }

/-- A host command that waits for a launch ends as rejected when the launch ends (log 32). -/
def State.dropCommand (s : State) (slot : Nat) (l : Launch) : State :=
  match l.cmd with
  | some seq => if seq < 2 ^ 32 then s.commandDone seq slot 1 else s
  | none => s

/-- Ends a launch (R255): contexts stopped and freed, deques, pins, locks, transfers, slots, regions, grids and bindings released. Nothing
of it is written back; a saved launch's end touches no core. The event for the host is written by the caller. -/
def State.endLaunch (s : State) (slot : Nat) : State :=
  let l := s.launch slot
  if l.state = .free then s
  else
    let s := ((if l.state = .saved then s else s.clearCores l).dropTables slot).dropMarks slot
    let s := s.dropCommand slot l
    let gone := { l with state := .free, saved := none, save := none, late := [], cmd := none, wanted := false }
    ({ s with launches := s.launches.put slot gone } : State).post .queueBind

/-- The messages of a launch that are on their way to the host are written, or dropped, before its last event (R490). -/
def State.lastMessages (s : State) (slot : Nat) : State :=
  let own := fun (m : Msg) => dstKind m.dst == 3 && m.slot == slot
  let n := s.evqOf slot
  (s.net.filter own).foldl (fun s m =>
    if s.hostAccepts n then s.hostEvent n { type := 1, slot := m.slot, tag := s.tagOf m.slot, info := m.info, payload := m.payload } else s)
    { s with net := s.net.filter fun m => !own m }

/-- LAUNCH_END with its cause: 0 root TASKEND, 1 KILL, 2 END_LAUNCH, 3 LIMIT, 4 TRIP (R489). -/
def State.finishLaunch (s : State) (slot cause : Nat) : State :=
  if (s.launch slot).state = .free then s
  else ((s.lastMessages slot).endLaunch slot).hostEvent (s.evqOf slot) { type := 2, slot := slot, tag := s.tagOf slot, info := cause, payload := 0 }

/-- A launch ends in a LAUNCH_ERROR with a cause code (R499, R515); no LAUNCH_END follows. -/
def State.failLaunch (s : State) (slot code : Nat) : State :=
  if (s.launch slot).state = .free then s
  else ((s.lastMessages slot).endLaunch slot).hostEvent (s.evqOf slot) { type := 3, slot := slot, tag := s.tagOf slot, info := code, payload := 0 }

end Sys2Proof.Machine
end

