-- ==== Sys2Proof/Machine/Memory.lean ====
section
/-! DEFINITION. Memory: the windows and their bounds (R122 to R126), translation at the slices (R285 to R290), range locks (R359), the
coherence of lines between L1s, slices and dies (R298 to R302), and the accesses of threads and engines built from them, byte order once
(R4). An access answers the bytes read, a trap, a page fault, or that it must wait for its home die. -/

namespace Sys2Proof.Machine

/-! ### Windows (R122 to R126) -/

/-- The window tag VA[63:56] (R122). -/
def winTag (va : Nat) : Nat := va / 2 ^ 56 % 256

/-- The offset VA[55:0] in a window. -/
def winOff (va : Nat) : Nat := va % 2 ^ 56

/-- Offset in its core's share of byte o of the cluster window, and that core in the cluster (R124). -/
def shareAt (o : Nat) : Nat × Nat := (o / 128 % 16, o / 2048 * 128 + o % 128)

/-- Private scratch bytes of core c (R110, R123). -/
def State.scratchBytes (s : State) (c : Nat) : Nat := scratchSize (s.core c).pword

/-- Byte o of the cluster window of core c's cluster lies in the share of the core that holds it (R125). -/
def State.shareHas (s : State) (c o : Nat) : Bool :=
  let (i, off) := shareAt o
  decide (off < 8192 * pwShared (s.core (c / 16 * 16 + i)).pword)

/-- All n bytes from o of the cluster window lie in their shares. -/
def State.shareHasAll (s : State) (c o : Nat) : Nat → Bool
  | 0 => true
  | n + 1 => s.shareHas c (o + n) && s.shareHasAll c o n

/-- A scratch access of core c at va stays inside the carve-out (R123, R125). -/
def State.scratchIn (s : State) (c va n : Nat) : Bool :=
  if winTag va = 0xF0 then decide (winOff va + n ≤ s.scratchBytes c) else s.shareHasAll c (winOff va) n

/-- Reads n bytes of the cluster window, each at the pool that holds it (R124). -/
def State.readShare (s : State) (c o : Nat) : Nat → Nat
  | 0 => 0
  | n + 1 =>
    let (i, off) := shareAt o
    ((s.core (c / 16 * 16 + i)).share.read off).toNat + 256 * s.readShare c (o + 1) n

/-- Writes n bytes of the cluster window. -/
def State.writeShare (s : State) (c o : Nat) : Nat → Nat → State
  | 0, _ => s
  | n + 1, x =>
    let (i, off) := shareAt o
    (s.modCore (c / 16 * 16 + i) fun y => { y with share := y.share.write off (BitVec.ofNat 8 x) }).writeShare c (o + 1) n (x / 256)

/-- Reads n bytes of scratch at va of core c (R123, R124). -/
def State.readScratch (s : State) (c va n : Nat) : Nat :=
  if winTag va = 0xF0 then (s.core c).scratch.readN (winOff va) n else s.readShare c (winOff va) n

/-- Writes n bytes of scratch at va of core c. -/
def State.writeScratch (s : State) (c va n x : Nat) : State :=
  if winTag va = 0xF0 then s.modCore c fun y => { y with scratch := y.scratch.writeN (winOff va) n x } else s.writeShare c (winOff va) n x

/-! ### Translation (R284 to R290) -/

/-- The slice hash of R285. -/
def sliceHash (a va : Nat) : Nat :=
  let x := (bits va 55 7) ^^^ (a % 4096)
  (List.range 10).foldl (fun h i => h ^^^ (x / 2 ^ (5 * i) % 32)) 0

/-- What a walk ends with (R287): a leaf, its address and its level, or no mapping, or a POISON line. -/
inductive Walk where
  | leaf (pte pteAt level : Nat)
  | none (level : Nat)
  | poison (level : Nat)
  deriving DecidableEq, Repr

/-- Bits of a PTE (R288). -/
def pteV (p : Nat) : Bool := bit p 0
def pteR (p : Nat) : Bool := bit p 1
def pteW (p : Nat) : Bool := bit p 2
def pteX (p : Nat) : Bool := bit p 3
def pteU (p : Nat) : Bool := bit p 4
def pteG (p : Nat) : Bool := bit p 5
def pteBias (p : Nat) : Bool := bit p 6
def pteLeaf (p : Nat) : Bool := bit p 7
def pteKind (p : Nat) : Nat := bits p 9 8
def pteNC (p : Nat) : Bool := bit p 10
def ptePoison (p : Nat) : Bool := bit p 11

/-- Bytes that a leaf of a level maps (R287). -/
def pageSize (level : Nat) : Nat := 2 ^ (46 - 10 * level)

/-- The line of an address is marked POISON (R307). -/
def State.poisoned (s : State) (pa : Nat) : Bool := s.poison.contains (pa / 64)

/-- The levels of the walk from `level`, with the table of that level (R287). -/
def State.walkFrom (s : State) (va : Nat) : Nat → Nat → Nat → Walk
  | 0, level, _ => .none level
  | fuel + 1, level, table =>
    let at_ := table + va / pageSize level % 1024 * 8
    let p := s.mem.readN at_ 8
    if s.poisoned at_ then .poison level
    else if !pteV p then .none level
    else if pteLeaf p then
      if level = 0 || (level = 1 && bits p 35 16 != 0) || (level = 2 && bits p 25 16 != 0) then .none level
      else .leaf p at_ level
    else if level = 3 then .none level
    else s.walkFrom va fuel (level + 1) (bits p 51 13 * 8192)

/-- The walk of an address space from the ASID table of die d (R286, R287). -/
def State.walk (s : State) (d asid va : Nat) : Walk :=
  let root := (s.die d).ptroot
  let at_ := bits root 51 15 * 32768 + 8 * asid
  let e := s.mem.readN at_ 8
  if !bit root 0 then .none 0
  else if s.poisoned at_ then .poison 0
  else if !bit e 0 then .none 0
  else s.walkFrom va 4 0 (bits e 51 13 * 8192)

/-- A cached translation is of the page that holds an address (R290). -/
def Tlb.covers (t : Tlb) (asid va : Nat) : Bool :=
  (t.asid.isNone || t.asid == some asid) && t.va == va / t.size * t.size

/-- A cached translation serves an address: it lies in the translating slice of the access (R285, R290). -/
def Tlb.serves (t : Tlb) (asid va : Nat) : Bool := t.slice == sliceHash asid va && t.covers asid va

/-- The level whose leaf maps so many bytes. -/
def levelOf (size : Nat) : Nat := if size = 2 ^ 36 then 1 else if size = 2 ^ 26 then 2 else 3

/-- The leaf that serves an address: a cached one where the translating slice of the die holds it, else by a walk (R285, R290). -/
def State.leaf (s : State) (d asid va : Nat) : Walk :=
  match (s.die d).tlb.find? fun t => t.serves asid va with
  | some t => .leaf t.pte t.pteAt (levelOf t.size)
  | none => s.walk d asid va

/-- The physical address of a leaf (R287). -/
def leafPA (pte level va : Nat) : Nat := bits pte 51 16 * 65536 / pageSize level * pageSize level + va % pageSize level

/-- Device memory of this package (R284). -/
def State.local_ (s : State) (pa : Nat) : Bool := !bit pa 51 && bits pa 46 39 == s.pkg.number

/-- The home die of a physical address of this package (R27). -/
def homeDie (pa : Nat) : Nat := bits pa 38 36

/-- Host memory (R284). -/
def hostMem (pa : Nat) : Bool := bit pa 51

/-- The package has a route to another package (R493). -/
def State.routed (s : State) (pkg : Nat) : Bool := (s.pkg.routes.find pkg).isSome

/-- Who makes an access: context and core, address space, mode, and whether it is the index or halo engine (R289). -/
structure Who where
  k : Nat
  core : Nat
  asid : Nat
  sup : Bool
  unit : Bool
  deriving DecidableEq, Repr

/-- The context k as an accessor. -/
def State.who (s : State) (k : Nat) : Who :=
  { k := k, core := coreOf k, asid := (s.ctx k).asid, sup := (s.ctx k).sup, unit := false }

/-- The kinds of access that R289 tells apart: a gather is a load that no L1 serves, a scatter a store that no L1 takes (R194), `acq` and `rel` are the loads and stores of the
ATOM major (R323). -/
inductive Acc where
  | fetch | load | gather | acq | store | scatter | rel | atomic | engRead | engWrite
  deriving DecidableEq, Repr

/-- The kind code of a page-fault message (R292). -/
def Acc.code : Acc → Nat
  | .load | .gather | .acq => 0 | .store | .scatter | .rel => 1 | .atomic => 2 | .fetch => 3 | .engRead => 4 | .engWrite => 5

/-- Accesses that write. -/
def Acc.writes : Acc → Bool
  | .store | .scatter | .rel | .atomic | .engWrite => true
  | _ => false

/-- Accesses that read. -/
def Acc.reads : Acc → Bool
  | .store | .scatter | .rel | .engWrite => false
  | _ => true

/-- What a slice answers to the translation of one piece of an access. -/
inductive Xlat where
  | ok (pa pte : Nat)
  | fault (cause level pte : Nat)
  | trap (code : Nat)
  | stall
  deriving DecidableEq, Repr

/-- The checks of R289 on a leaf, in order, for n bytes at va. -/
def State.checkLeaf (_s : State) (w : Who) (a : Acc) (va n pte level : Nat) : Xlat :=
  let pa := leafPA pte level va
  let perm := Xlat.fault 1 level pte
  if !bit pa 51 && bits pa 50 47 != 0 then perm
  else if !bit pa 51 && decide (Config.hbmBytes ≤ bits pa 35 0) then perm
  else if ptePoison pte then .trap 0x11
  else if !w.sup && !w.unit && !pteU pte then perm
  else if (pteKind pte == 1 || pteKind pte == 2) && !w.sup && !w.unit then perm
  else if pteKind pte == 3 && !w.sup then perm
  else if pteKind pte == 3 && !((a == .load || a == .gather || a == .store || a == .scatter) && (n == 4 || n == 8) && va % n == 0) then .trap 0x03
  else if a == .fetch && (!pteX pte || pteKind pte != 0) then perm
  else if a.reads && a != .fetch && !pteR pte then perm
  else if a.writes && !pteW pte then perm
  else .ok pa pte

/-- A range-lock entry of die d stops an access (R359). -/
def State.lockHit (s : State) (d key va : Nat) (a : Acc) : Bool :=
  (s.die d).locks.any fun e => e.key == key && decide (e.lo ≤ va / 64 ∧ va / 64 ≤ e.hi) && (e.dest || a.writes)

/-- A range-lock entry of die d covers a line: its dirty bytes are held there (R360). -/
def State.linePinned (s : State) (d key va : Nat) : Bool :=
  (s.die d).locks.any fun e => e.key == key && decide (e.lo ≤ va / 64 ∧ va / 64 ≤ e.hi)

/-- Where the home of an address stands (R517, R518, R307): ready, waiting or gone. -/
def State.homeState (s : State) (pa : Nat) : Xlat :=
  if hostMem pa then .ok pa 0
  else if s.local_ pa then
    let d := s.die (homeDie pa)
    if d.lost then .trap 0x11
    else match d.power with
      | .d0 => .ok pa 0
      | .d1 | .d2 => .stall
      | .d3 => .trap 0x11
  else if s.routed (bits pa 46 39) then .ok pa 0 else .trap 0x11

/-- Translates and checks one piece of an access that lies in one line; a page whose bias is being flipped stalls it (R319). -/
def State.xlate (s : State) (w : Who) (a : Acc) (va n : Nat) : Xlat :=
  match s.leaf (dieOf w.core) w.asid va with
  | .none level => .fault 0 level 0
  | .poison level => .fault 2 level 0
  | .leaf pte at_ level =>
    if s.flips.any fun f => f.pteAt == at_ then .stall
    else match s.checkLeaf w a va n pte level with
      | .ok pa pte => match s.homeState pa with
        | .ok _ _ => .ok pa pte
        | x => x
      | x => x

/-- The address-space key a' of a page (R285). -/
def keyOf (asid pte : Nat) : Nat := if pteG pte then 0 else asid

/-! ### Lines (R298 to R302) -/

/-- The 64 bytes of a line at its home. -/
def State.homeLine (s : State) (l : Nat) : Nat := s.mem.readN (l * 64) 64

/-- A line with n bytes at offset o replaced. -/
def patch (line o n x : Nat) : Nat := setBits line (8 * o) (8 * n) x

/-- The mask of n bytes at offset o of a line. -/
def byteMask (o n : Nat) : Nat := (2 ^ n - 1) * 2 ^ o

/-- A line with the bytes of a mask replaced by those of x. -/
def mergeBytes (mask x line : Nat) : Nat :=
  if mask = 0 then line else (List.range 64).foldl (fun y i => if bit mask i then setBits y (8 * i) 8 (x / 2 ^ (8 * i)) else y) line

/-- A read at the home by a context of the home die (R302): answers the new pts. The rts is a timestamp that the die assigns (R305). -/
def State.stampRead (s : State) (l p : Nat) : State × Nat :=
  let (w, r) := s.lineStamps l
  let r' := serialMax 24 r p
  ({ s with stamps := s.stamps.put l (w, r') }.raiseHome (homeDie (l * 64)) r', serialMax 24 p w)

/-- A write at the home (R302): answers the new wts. -/
def State.stampWrite (s : State) (l p : Nat) : State × Nat :=
  let (_, r) := s.lineStamps l
  let w := (serialMax 24 p r + 1) % 2 ^ 24
  ({ s with stamps := s.stamps.put l (w, w) }.raiseHome (homeDie (l * 64)) w, w)

/-- A renewal of die d's guest copy (R302): answers the copy and the new pts. -/
def State.renew (s : State) (d l p : Nat) : State × Nat :=
  let (w, r) := s.lineStamps l
  let len := (s.die d).lease
  let r' := serialMax 24 r (serialMax 24 ((w + len) % 2 ^ 24) ((p + len) % 2 ^ 24))
  let g : Guest := { data := s.homeLine l, wts := w, rts := r' }
  let s := { s with stamps := s.stamps.put l (w, r') }.raiseHome (homeDie (l * 64)) r'
  (s.modDie d fun x => { x with guest := x.guest.put l g }, serialMax 24 p w)

/-- Drops the L1 copies of a line that a test does not keep. -/
def State.dropL1 (s : State) (l : Nat) (keep : Nat → L1Line → Bool) : State :=
  { s with cores := s.cores.map fun (e : Nat × Core) =>
      (e.1, { e.2 with l1 := e.2.l1.filter fun (x : Nat × L1Line) => x.1 != l || keep e.1 x.2 }) }

/-- What a write by core c to the bytes m of line l, performed on its own die, does to the L1 of core e (R298): a copy of the same cluster
takes the bytes, a near copy of another cluster of the die goes, and an outside copy stays as it is. -/
def l1Stored (c l m x e : Nat) (t : Tab L1Line) : Tab L1Line :=
  if clusterOf e = clusterOf c then
    t.map fun y => if y.1 = l then (y.1, { y.2 with data := mergeBytes m x y.2.data, dirty := y.2.dirty - (y.2.dirty &&& m) }) else y
  else if dieOf e = dieOf c then t.filter fun y => y.1 != l || y.2.outside
  else t

/-- What such a write does where it is performed on another die, the home (R194, R298, R299): the copies of the cluster go, and the near copies of
both dies. -/
def l1Passed (c l e : Nat) (t : Tab L1Line) : Tab L1Line :=
  if clusterOf e = clusterOf c then t.filter fun y => y.1 != l
  else if dieOf e = dieOf c || dieOf e = homeDie (l * 64) then t.filter fun y => y.1 != l || y.2.outside
  else t

/-- A write by core c to the bytes m of a line brings the L1 copies up to date (R298, R299); `away` says that it is performed on another die. -/
def State.updateL1 (s : State) (c l m x : Nat) (away : Bool) : State :=
  { s with cores := s.cores.map fun (e : Nat × Core) => (e.1, { e.2 with l1 := if away then l1Passed c l e.1 e.2.l1 else l1Stored c l m x e.1 e.2.l1 }) }

/-- Notes a write packet of contexts ks to the home of pa on a network class (R467): its number among those of its stream, which each context's
write set takes (R281, R282), and the wts that its token will report (R302). The home owes the token from now on. -/
def State.notePacket (s : State) (d pa cls : Nat) (ks : List Nat) (wts : Nat) (reported : Bool) : State :=
  let to_ := if s.local_ pa then homeDie pa else 8 + bits pa 46 39
  let t := to_ * 8 + cls
  let n := (Tab.get 0 (s.die d).sent t + 1) % 2 ^ 32
  let at_ := s.now (if to_ < 8 then to_ else d)
  let s := s.modDie d fun x =>
    { x with sent := x.sent.put t n, owing := if (x.owing.find to_).isSome then x.owing else x.owing.put to_ at_,
             reports := if reported then x.reports ++ ks.map fun k => { dst := t, no := n, ctx := k, wts := wts } else x.reports }
  ks.foldl (fun s k => s.modCtx k fun c => { c with writes := c.writes.put t n }) s

/-- The owning die writes a line back to its home (R300, R302); the near copies of the home die go (R298). -/
def State.writeBack (s : State) (d l : Nat) : State :=
  match (s.die d).owned.find l with
  | none => s
  | some o =>
    if o.dirty then
      let (s, w) := s.stampWrite l o.pts
      let s := { s with mem := s.mem.writeN (l * 64) 64 o.data }
      let s := s.modDie d fun x => { x with owned := x.owned.put l { o with dirty := false, writers := [] } }
      (s.notePacket d (l * 64) 0 o.writers w true).dropL1 l fun c y => dieOf c != homeDie (l * 64) || y.outside
    else s

/-- Die d writes a line under ownership (R300): `f` gives the new bytes from the old, ks are the writers and p the greatest pts among them. -/
def State.own (s : State) (d l : Nat) (f : Nat → Nat) (ks : List Nat) (p : Nat) : State :=
  let old : Owned := ((s.die d).owned.find l).getD { data := s.homeLine l, dirty := false, writers := [], pts := p, since := s.now d }
  let new : Owned := { data := f old.data, dirty := true, writers := ks.foldl (fun w k => if w.contains k then w else k :: w) old.writers,
                       pts := if old.dirty then serialMax 24 old.pts p else p, since := if old.dirty then old.since else s.now d }
  s.modDie d fun y => { y with owned := y.owned.put l new, guest := y.guest.del l }

/-- The cores of die d whose L1 holds dirty bytes of a line. -/
def State.dirtyCores (s : State) (d l : Nat) : List Nat :=
  (s.cores.filter fun (e : Nat × Core) => dieOf e.1 == d && (match e.2.l1.find l with | some x => x.dirty != 0 | none => false)).map (·.1)

/-- The dirty bytes of core c's copy of a line leave its L1 (R298): the copy stays, clean. -/
def State.cleaned (s : State) (c l : Nat) : State :=
  s.modCore c fun y => { y with l1 := y.l1.map fun e => if e.1 = l then (l, { e.2 with dirty := 0, writers := [] }) else e }

/-- Dirty bytes that a range lock holds at their slice (R360). -/
def State.holdBytes (s : State) (b : HeldBytes) : State := s.modDie (dieOf b.core) fun y => { y with held := y.held ++ [b] }

/-- The dirty bytes of a line in the L1s of die d, which owns it, reach their slice (R298, R300). -/
def State.soak (s : State) (d l : Nat) : State :=
  (s.dirtyCores d l).foldl (fun s c => match (s.core c).l1.find l with
    | none => s
    | some x =>
      let s := s.cleaned c l
      if s.linePinned d x.key x.va then s.holdBytes { line := l, core := c, copy := x } else s.own d l (mergeBytes x.dirty x.data) x.writers x.pts) s

/-- The home recalls a line from whatever die owns it (R300), with the dirty bytes that the L1s there hold; its L1 copies there go. -/
def State.recall (s : State) (l : Nat) : State :=
  (List.range 8).foldl (fun s d =>
    if ((s.die d).owned.find l).isSome then
      (((s.soak d l).writeBack d l).modDie d fun x => { x with owned := x.owned.del l }).dropL1 l fun c _ => dieOf c != d
    else s) s

/-- Dirty bytes of an L1 reach their slice (R298): on the home die they are a write there, elsewhere a write under ownership (R300). -/
def State.reach (s : State) (b : HeldBytes) : State :=
  let d := dieOf b.core
  let x := b.copy
  if homeDie (b.line * 64) = d then
    let s := s.recall b.line
    let (s, w) := s.stampWrite b.line x.pts
    let s := { s with mem := s.mem.writeN (b.line * 64) 64 (mergeBytes x.dirty x.data (s.homeLine b.line)) }
    x.writers.foldl (fun s k => s.raisePts k w) (s.updateL1 b.core b.line x.dirty x.data false)
  else
    let s := if ((s.die d).owned.find b.line).isSome then s else s.recall b.line
    (s.own d b.line (mergeBytes x.dirty x.data) x.writers x.pts).updateL1 b.core b.line x.dirty x.data false

/-- Core c writes back the dirty bytes of its copy of a line (R298); a range lock holds them at the slice (R360). -/
def State.spill (s : State) (c l : Nat) : State :=
  match (s.core c).l1.find l with
  | none => s
  | some x =>
    if x.dirty = 0 then s
    else
      let b : HeldBytes := { line := l, core := c, copy := x }
      let s := s.cleaned c l
      if s.linePinned (dieOf c) x.key x.va then s.holdBytes b else s.reach b

/-- Core c writes back the dirty bytes of the copies that a test names. -/
def State.spillIf (s : State) (c : Nat) (p : Nat → L1Line → Bool) : State :=
  (((s.core c).l1.filter fun (e : Nat × L1Line) => e.2.dirty != 0 && p e.1 e.2).map (·.1)).foldl (fun s l => s.spill c l) s

/-- Every core writes back the dirty bytes of the lines that a test names. -/
def State.spillAll (s : State) (p : Nat → Nat → Bool) : State :=
  (s.cores.map (·.1)).foldl (fun s c => s.spillIf c fun l _ => p c l) s

/-- The cluster of core c writes back the dirty bytes of a line, but for those of core `but`. -/
def State.spillCluster (s : State) (c l : Nat) (but : Option Nat) : State :=
  (List.range 16).foldl (fun s i => if but = some (c / 16 * 16 + i) then s else s.spill (c / 16 * 16 + i) l) s

/-- Dirty bytes of die d that no range lock holds any longer are performed (R360). -/
def State.freeHeld (s : State) (d : Nat) : State :=
  let free := (s.die d).held.filter fun b => !s.linePinned d b.copy.key b.copy.va
  let s := s.modDie d fun y => { y with held := y.held.filter fun b => s.linePinned d b.copy.key b.copy.va }
  free.foldl State.reach s

/-- A line as the cluster of core c has it where its slice has it so: the snoop directory adds the dirty bytes of the cluster's L1s, and those that
the slice holds for them (R298, R360). -/
def State.snooped (s : State) (c l line : Nat) : Nat :=
  let line := (s.die (dieOf c)).held.foldl (fun y b => if b.line = l && clusterOf b.core = clusterOf c then mergeBytes b.copy.dirty b.copy.data y else y) line
  (List.range 16).foldl (fun y i => match (s.core (c / 16 * 16 + i)).l1.find l with
    | some x => mergeBytes x.dirty x.data y
    | none => y) line

/-- Die d performs a plain read of a line for a reader at time p (R299 to R302): the line, the new pts, and the stamps under which it was read
where it is a guest line. A reader that a guest copy serves keeps its pts (R303). -/
def State.sliceRead (s : State) (d l p : Nat) (atHome : Bool) : Nat × State × Nat × Option (Nat × Nat) :=
  let pa := l * 64
  if !s.local_ pa then (s.homeLine l, s, p, none)
  else if homeDie pa = d || atHome then
    let (s', p') := s.stampRead l p
    (s.homeLine l, s', p', none)
  else match (s.die d).owned.find l with
    | some o => (o.data, s, p, none)
    | none =>
      let renewed := fun (_ : Unit) =>
        let (s', p') := s.renew d l p
        (s.homeLine l, s', p', ((s'.die d).guest.find l).map fun g => (g.wts, g.rts))
      match (s.die d).guest.find l with
      | some g => if serialGe 24 g.rts p then (g.data, s, p, some (g.wts, g.rts)) else renewed ()
      | none => renewed ()

/-- A write of n bytes performed at the home of a line after its owner is recalled (R300, R302): answers the new wts. -/
def State.homeWrite (s : State) (c l o n x p : Nat) : State × Nat :=
  let pa := l * 64
  if !s.local_ pa then ({ s with mem := s.mem.writeN (pa + o) n x }, p)
  else
    let s := s.recall l
    let (s, w) := s.stampWrite l p
    let s := { s with mem := s.mem.writeN (pa + o) n x }
    (s.updateL1 c l (byteMask o n) (x * 2 ^ (8 * o)) (dieOf c != homeDie pa), w)

/-- A write by context k has been performed at a home with a wts (R302, R281): on its own die its pts rises at once; elsewhere its write set
takes the packet, and the token will report the wts. A write that is answered, with a value or with an acknowledgement as a plain store to
an NC page is (R300), raises the pts with the answer. -/
def State.wrote (s : State) (k pa wts : Nat) (answers : Bool) : State :=
  let d := dieOf (coreOf k)
  if s.local_ pa && homeDie pa == d then s.raisePts k wts
  else
    let s := s.notePacket d pa 1 [k] wts (s.local_ pa && !answers)
    if answers && s.local_ pa then s.raisePts k wts else s

/-- A plain store of n bytes in one line by context k at its slice (R299, R300): at the home for lines of the own die, NC, host-bias and device
pages and memory beyond the package; under ownership otherwise. -/
def State.sliceStore (s : State) (k l o n x : Nat) (atHome : Bool) : State :=
  let pa := l * 64
  let c := coreOf k
  let d := dieOf c
  let p := (s.ctx k).ltime
  if !s.local_ pa || homeDie pa = d || atHome then
    let (s, w) := s.homeWrite c l o n x p
    s.wrote k pa w atHome
  else
    let s := if ((s.die d).owned.find l).isSome then s else s.recall l
    (s.own d l (fun y => patch y o n x) [k] p).updateL1 c l (byteMask o n) (x * 2 ^ (8 * o)) false

/-- A plain store of n bytes in one line that the own L1 holds (R298): the bytes are dirty there, and the cluster's other copies take them. Those of
a near line are performed at the own slice at once (log 4). -/
def State.hitStore (s : State) (k l o n x : Nat) : State :=
  let c := coreOf k
  let s := s.spillCluster c l (some c)
  match (s.core c).l1.find l with
  | none => s
  | some y =>
    let m := byteMask o n
    let p := (s.ctx k).ltime
    let s := s.updateL1 c l m (x * 2 ^ (8 * o)) false
    let y : L1Line := { y with data := patch y.data o n x, dirty := y.dirty ||| m, writers := if y.writers.contains k then y.writers else k :: y.writers,
                               pts := if y.dirty = 0 then p else serialMax 24 y.pts p }
    let s := s.modCore c fun z => { z with l1 := z.l1.map fun e => if e.1 = l then (l, y) else e }
    if y.outside then s else s.spill c l

/-! ### Accesses -/

/-- What an access comes to. -/
inductive MemRes where
  | ok (x : Nat) (s : State)
  | trap (late : Bool) (code val : Nat) (s : State)
  | fault (va cause level pte : Nat)
  | stall
  deriving DecidableEq, Repr

/-- The pieces of n bytes at va, one for each aligned unit of u bytes, in ascending order: address and length. -/
def pieces (u va : Nat) : Nat → Nat → List (Nat × Nat)
  | 0, _ => []
  | fuel + 1, n =>
    if n = 0 then []
    else
      let m := min n (u - va % u)
      (va, m) :: pieces u (va + m) fuel (n - m)

/-- The pieces of a thread's access: a naturally aligned one is whole, a misaligned one has one piece for each aligned 8-byte unit (R145). -/
def piecesOf (va n : Nat) : List (Nat × Nat) :=
  let u := if va % n = 0 then 64 else 8
  pieces u va (n / u + 2) n

/-- The pieces of a unit's access, one a line. -/
def linesOf (va n : Nat) : List (Nat × Nat) := pieces 64 va (n / 64 + 2) n

/-- A page whose lines no L1 holds: NC, host-bias and device pages (R288, R289, R318). -/
def uncached (pte : Nat) : Bool := pteNC pte || pteBias pte || pteKind pte == 3

/-- A page whose lines no slice but the home's serves: host-bias and device pages (R289, R318). -/
def unleased (pte : Nat) : Bool := pteBias pte || pteKind pte == 3

/-- A plain read by die d of a line homed elsewhere goes to its home: no copy on the die serves it (R300 to R302). -/
def State.readsHome (s : State) (d l p : Nat) : Bool :=
  ((s.die d).owned.find l).isNone && match (s.die d).guest.find l with
    | some g => !serialGe 24 g.rts p
    | none => true

/-- The own L1 holds the line of a plain access (R146, R298). -/
def State.inL1 (s : State) (w : Who) (a : Acc) (pa pte : Nat) : Bool :=
  (a == .load || a == .fetch || a == .store) && !uncached pte && ((s.core w.core).l1.find (pa / 64)).isSome

/-- An access is performed at the home of its line (R299 to R301). -/
def State.atHome (s : State) (w : Who) (a : Acc) (pa pte : Nat) : Bool :=
  a == .atomic || a == .rel || (if a.writes then uncached pte else unleased pte || s.readsHome (dieOf w.core) (pa / 64) (s.ctx w.k).ltime)

/-- A range lock stops an access (R359, R360): one of the table of its die, or of the home's where it is performed there; an access that the own L1
serves is not checked. -/
def State.locked (s : State) (w : Who) (a : Acc) (va pa pte : Nat) : Bool :=
  let key := keyOf w.asid pte
  !s.inL1 w a pa pte &&
    (s.lockHit (dieOf w.core) key va a || (s.local_ pa && homeDie pa != dieOf w.core && s.atHome w a pa pte && s.lockHit (homeDie pa) key va a))

/-- The first piece of an access that its slice does not let pass, checked in address order before any byte is touched (R145, R307). `locks` says
whether the access is a thread's, which range locks stop (R359). -/
def State.firstStop (s : State) (w : Who) (a : Acc) (whole n0 : Nat) (locks : Bool) : List (Nat × Nat) → Option MemRes
  | [] => none
  | (va, _) :: ps =>
    match s.xlate w a va n0 with
    | .fault cause level pte => some (.fault va cause level pte)
    | .trap code => some (.trap true code (if code = 0x11 then whole else va) s)
    | .stall => some .stall
    | .ok pa pte =>
      if locks && s.locked w a va pa pte then some (.trap true 0x06 whole s)
      else if s.poisoned pa then some (.trap true 0x11 whole (s.tellPoison (s.slotOf (coreOf w.k)) pa))
      else s.firstStop w a whole n0 locks ps

/-- The physical address of a piece that has passed. -/
def State.pieceAt (s : State) (w : Who) (a : Acc) (va n : Nat) : Nat × Nat :=
  match s.xlate w a va n with
  | .ok pa pte => (pa, pte)
  | _ => (0, 0)

/-- A slice of die d has performed an access to the byte at va, which is pa by its leaf, and, where `home` says so, the home slice too: one
sample of the slice service time each (R285, R523). -/
def State.served (s : State) (d asid va pa pte : Nat) (home : Bool) : State :=
  let n := sliceHash (keyOf asid pte) va
  let s := s.latency d 5 n
  if home && s.local_ pa && homeDie pa != d then s.latency (homeDie pa) 5 n else s

/-- The counters of R331 stop at their greatest value. -/
def countUp (x n : Nat) : Nat := min (x + n) (2 ^ 64 - 1)

/-- A demand access of core c meets a line (R331): a prefetch of it that is still in flight counts in `PFLATE`, one that has brought it in
`PFUSE`, once each. -/
def State.met (s : State) (c l : Nat) : State :=
  let x := s.core c
  let late := x.coming.any fun e => e.2.1 == l
  let used := x.brought.contains l || (match x.l1.find l with | some y => y.fetched | none => false)
  if late || used then
    s.modCore c fun x => { x with
      pflate := if late then countUp x.pflate 1 else x.pflate, pfuse := if used then countUp x.pfuse 1 else x.pfuse,
      coming := x.coming.filter fun e => e.2.1 != l, brought := x.brought.filter fun e => e != l,
      l1 := x.l1.map fun e => if e.1 = l then (l, { e.2 with fetched := false }) else e }
  else s

/-- A copy that an L1 holds serves a reader at time p: it is no guest copy, or one under a good lease (R301). -/
def L1Line.good (x : L1Line) (p : Nat) : Bool := !x.guest || serialGe 24 x.rts p

/-- A read of one piece: a plain load or fetch from the core's L1 where it holds the line under a good lease, else at the slice, which
refreshes a copy that the L1 holds (R298, R299, R301). An acquire takes the wts of what it read into its pts (R310, log 85). -/
def State.readPiece (s : State) (w : Who) (va n n0 : Nat) (a : Acc) : Nat × State :=
  let (pa, pte) := s.pieceAt w a va n0
  let l := pa / 64
  let p := (s.ctx w.k).ltime
  let d := dieOf w.core
  let cut := fun line => line / 2 ^ (8 * (pa % 64)) % 2 ^ (8 * n)
  let s := s.met w.core l
  match if s.inL1 w a pa pte then ((s.core w.core).l1.find l).filter fun x => x.good p else none with
  | some x => (cut x.data, s)
  | none =>
    let s := s.served d w.asid va pa pte (unleased pte || s.readsHome d l p)
    let (line, s, p, lease) := s.sliceRead d l p (unleased pte)
    let p := if a == .acq then (lease.map fun g => serialMax 24 p g.1).getD p else p
    let line := if s.local_ pa then s.snooped w.core l line else line
    let s := s.modCore w.core fun y => { y with l1 := y.l1.map fun e =>
      if e.1 = l then (l, { e.2 with data := line, guest := lease.isSome, wts := (lease.map (·.1)).getD 0, rts := (lease.map (·.2)).getD 0 }) else e }
    (cut line, s.modCtx w.k fun c => { c with ltime := p })

/-- Plain reads of all pieces, joined little-endian. -/
def State.readPieces (s : State) (w : Who) (n0 : Nat) (a : Acc) : List (Nat × Nat) → Nat × State
  | [] => (0, s)
  | (va, n) :: ps =>
    let (x, s) := s.readPiece w va n n0 a
    let (y, s) := s.readPieces w n0 a ps
    (x + y * 2 ^ (8 * n), s)

/-- A store of one piece: in the own L1 where it holds the line (R298), else at the slice, which has the cluster's dirty bytes of the line first. A
scatter's element goes to its slice (R194). -/
def State.storePiece (s : State) (w : Who) (va n n0 : Nat) (a : Acc) (x : Nat) : State :=
  let (pa, pte) := s.pieceAt w a va n0
  let l := pa / 64
  let d := dieOf w.core
  let s := s.met w.core l
  if s.inL1 w a pa pte then s.hitStore w.k l (pa % 64) n x
  else
    let s := s.served d w.asid va pa pte (uncached pte || ((s.die d).owned.find l).isNone)
    (s.spillCluster w.core l none).sliceStore w.k l (pa % 64) n x (uncached pte)

/-- Plain stores of all pieces. -/
def State.storePieces (s : State) (w : Who) (n0 : Nat) (a : Acc) : List (Nat × Nat) → Nat → State
  | [], _ => s
  | (va, n) :: ps, x => (s.storePiece w va n n0 a (x % 2 ^ (8 * n))).storePieces w n0 a ps (x / 2 ^ (8 * n))

/-- A thread's plain read of n bytes with the checks of R145 in order; the tags accepted are given (a fetch accepts 0x00 alone). -/
def State.plainRead (s : State) (w : Who) (a : Acc) (va n : Nat) : MemRes :=
  let t := winTag va
  if !(t == 0 || (a != .fetch && (t == 0xF0 || t == 0xF1))) || winTag (va + n - 1) != t then .trap false 0x04 va s
  else if t = 0 then
    match s.firstStop w a va n true (piecesOf va n) with
    | some r => r
    | none => let (x, s) := s.readPieces w n a (piecesOf va n); .ok x s
  else if s.scratchIn w.core va n then .ok (s.readScratch w.core va n) s
  else .trap false 0x0C va s

/-- The guest copy of a line goes from a die (R301): its next read is performed at the home. -/
def State.dropGuest (s : State) (d l : Nat) : State := s.modDie d fun x => { x with guest := x.guest.del l }

/-- A read of a doubleword by `LD.ACQ`, `LD.SC` or `SYNC` (R320, R323): the checks, then the read at the slice or bank. One that must see the last
write at the home has the slice replace its copy first (R245, R315, log 85). -/
def State.acquireRead (s : State) (w : Who) (va : Nat) (fresh : Bool) : MemRes :=
  if winTag va = 0 then
    match s.firstStop w .acq va 8 true (piecesOf va 8) with
    | some r => r
    | none =>
      let s := if fresh then s.dropGuest (dieOf w.core) ((s.pieceAt w .acq va 8).1 / 64) else s
      let (x, s) := s.readPieces w 8 .acq (piecesOf va 8)
      .ok x s
  else .ok (s.readScratch w.core va 8) s

/-- A thread's plain store of n bytes (R144, R145). -/
def State.plainStore (s : State) (w : Who) (va n x : Nat) : MemRes :=
  let t := winTag va
  if !(t == 0 || t == 0xF0 || t == 0xF1) || winTag (va + n - 1) != t then .trap false 0x04 va s
  else if t = 0 then
    match s.firstStop w .store va n true (piecesOf va n) with
    | some r => r
    | none => .ok 0 (s.storePieces w n .store (piecesOf va n) x)
  else if s.scratchIn w.core va n then .ok 0 (s.writeScratch w.core va n x)
  else .trap false 0x0C va s

/-- The checks of R320 on a doubleword that the core makes before any slice sees it: alignment, window, carve-out. -/
def State.atomicChecks (s : State) (c va : Nat) : Option Nat :=
  let t := winTag va
  if va % 8 ≠ 0 then some 0x03
  else if !(t == 0 || t == 0xF0 || t == 0xF1) then some 0x04
  else if t != 0 && !s.scratchIn c va 8 then some 0x0C
  else none

/-- One indivisible read-modify-write of the doubleword at va (R320, R321): `f` gives the new value, or none where nothing is written.
Answers the old value. `a` is the kind of check: atomic, or store for JINIT and ST.REL. -/
def State.atomic (s : State) (w : Who) (a : Acc) (va : Nat) (f : Nat → Option Nat) : MemRes :=
  match s.atomicChecks w.core va with
  | some code => .trap false code va s
  | none =>
    if winTag va = 0 then
      match s.firstStop w a va 8 true [(va, 8)] with
      | some r => r
      | none =>
        let (pa, pte) := s.pieceAt w a va 8
        let s := (s.met w.core (pa / 64)).served (dieOf w.core) w.asid va pa pte true
        let s := if s.local_ pa then (s.spillCluster w.core (pa / 64) none).recall (pa / 64) else s
        let m := s.mem.readN pa 8
        match f m with
        | some x =>
          let (s, t) := s.homeWrite w.core (pa / 64) (pa % 64) 8 x (s.ctx w.k).ltime
          .ok m (s.wrote w.k pa t true)
        | none =>
          let (s, p) := if s.local_ pa then s.stampRead (pa / 64) (s.ctx w.k).ltime else (s, (s.ctx w.k).ltime)
          .ok m (s.modCtx w.k fun c => { c with ltime := p })
    else
      let m := s.readScratch w.core va 8
      match f m with
      | some x => .ok m (s.writeScratch w.core va 8 x)
      | none => .ok m s

/-! ### Engine accesses (R343, R386, R409) -/

/-- An engine's read of one piece at the home of its line, after a dirty owner is recalled (R343). -/
def State.engReadPiece (s : State) (pa n p : Nat) : Nat × State :=
  let s := if s.local_ pa then s.recall (pa / 64) else s
  let (s, _) := if s.local_ pa then s.stampRead (pa / 64) p else (s, p)
  (s.mem.readN pa n, s)

/-- What stops an engine's access to n bytes at va in translated memory, piece by piece. -/
def State.engStop (s : State) (w : Who) (a : Acc) (va n : Nat) : Option MemRes := s.firstStop w a va n false (linesOf va n)

/-- An engine's read of translated bytes that have passed. -/
def State.engRead (s : State) (w : Who) (p : Nat) : List (Nat × Nat) → Nat × State
  | [] => (0, s)
  | (va, n) :: ps =>
    let (pa, pte) := s.pieceAt w .engRead va n
    let s := s.served (dieOf w.core) w.asid va pa pte true
    let (x, s) := s.engReadPiece pa n p
    let (y, s) := s.engRead w p ps
    (x + y * 2 ^ (8 * n), s)

/-- An engine's write of translated bytes that have passed: at the home, with the pts of its request; near copies go (R343). Answers the
greatest wts. -/
def State.engWrite (s : State) (w : Who) (p : Nat) : List (Nat × Nat) → Nat → Nat → State × Nat
  | [], _, t => (s, t)
  | (va, n) :: ps, x, t =>
    let (pa, pte) := s.pieceAt w .engWrite va n
    let s := s.served (dieOf w.core) w.asid va pa pte true
    let l := pa / 64
    let s := if s.local_ pa then s.recall l else s
    let (s, t') := if s.local_ pa then s.stampWrite l p else (s, p)
    let s := { s with mem := s.mem.writeN pa n (x % 2 ^ (8 * n)) }
    let s := s.dropL1 l fun _ y => y.outside
    s.engWrite w p ps (x / 2 ^ (8 * n)) (serialMax 24 t t')

/-! ### Acquire and release (R298, R309) -/

/-- An acquire by core c (R298): the dirty bytes of its outside L1 lines are written back, and those lines go. -/
def State.acquire (s : State) (c : Nat) : State :=
  (s.spillIf c fun _ x => x.outside).modCore c fun x => { x with l1 := x.l1.filter fun (e : Nat × L1Line) => !e.2.outside }

/-- A release by context k: the dirty bytes of its core's L1 reach their slices, and every owned line that it wrote its home (R298, R300, R309). -/
def State.release (s : State) (k : Nat) : State :=
  let d := dieOf (coreOf k)
  let s := s.spillIf (coreOf k) fun _ _ => true
  let ls := ((s.die d).owned.filter fun (e : Nat × Owned) => e.2.dirty && e.2.writers.contains k).map (·.1)
  ls.foldl (fun s l => s.writeBack d l) s

/-- The destinations of context k's writes whose tokens have not come (R282); a lost die counts as having returned its tokens. -/
def State.tokensDue (s : State) (k : Nat) : List Nat :=
  let d := s.die (dieOf (coreOf k))
  (((s.ctx k).writes.filter fun (e : Nat × Nat) =>
    !serialGe 32 (Tab.get 0 d.acked e.1) e.2 && !(decide (e.1 / 8 < 8) && (s.die (e.1 / 8)).lost)).map fun e => e.1 / 8).eraseDups

/-- Range locks hold dirty bytes at a slice that context k has written (R360). -/
def State.bytesHeld (s : State) (k : Nat) : Bool := (s.die (dieOf (coreOf k))).held.any fun b => b.copy.writers.contains k

/-- A release writes home what its context has written; where a token is still due it asks for it and must wait (R281, R309), and so it must for dirty
bytes that a range lock holds (R360). -/
def State.released (s : State) (k : Nat) : Bool × State :=
  let s := s.release k
  let due := s.tokensDue k
  (due.isEmpty && !s.bytesHeld k, due.foldl (fun s t => s.post (.tokenReturn t (dieOf (coreOf k)))) s)

/-- The slices of core c's die replace their guest copies, and the core's L1 its own (R301, log 85): its later reads are performed at the homes. -/
def State.refresh (s : State) (c : Nat) : State :=
  (s.modDie (dieOf c) fun x => { x with guest := [] }).modCore c fun x => { x with l1 := x.l1.filter fun (e : Nat × L1Line) => !e.2.guest || e.2.dirty != 0 }

end Sys2Proof.Machine
end

