-- ==== Sys2Proof/Machine/Ops.lean ====
section
/-! DEFINITION. What every instruction shares: issuing under the lookahead rules (R54 to R61), taking a trap and escalating it (R60, R498,
R499), posting a page fault (R292, R293). An instruction's own effect is an `Env → State → Att`: from the registers at its issue to what
its attempt comes to. -/

namespace Sys2Proof

namespace Machine

/-! ### Attempts -/

/-- What an instruction sees at its issue: its context, its place in program order, its address and the one after it, its bits (R53), the registers
(R134), and, when it has waited, what it kept. -/
structure Env where
  k : Nat
  pos : Nat
  pc : Word
  next : Word
  bits : Nat
  regs : Regs
  wait : Option Wait
  deriving DecidableEq, Repr

/-- What an attempt comes to: done with register writes; a trap, `late` where it is met beyond the core (R60, R138); waiting; or done with
the context's windows and PC set by the instruction itself. -/
inductive Att where
  | done (ws : List Wr) (s : State)
  | trap (late : Bool) (code val : Nat) (s : State)
  | wait (w : Wait) (s : State)
  | switch (s : State)
  deriving DecidableEq, Repr

/-- Registers of the issue. -/
def Env.s (e : Env) (r : Reg) : Word := e.regs.rs r
def Env.n (e : Env) (r : Reg) : Nat := (e.regs.rs r).toNat
def Env.v (e : Env) (r : Reg) : VReg := e.regs.rv r
def Env.m (e : Env) (r : KReg) : Word := e.regs.rk r

/-- The core and the die of the issuing context. -/
def Env.core (e : Env) : Nat := coreOf e.k
def Env.die (e : Env) : Nat := dieOf (coreOf e.k)

/-- Trap 0x01 with the instruction's bits (R53). -/
def illegal (e : Env) (s : State) : Att := .trap false 0x01 e.bits s

/-- Trap 0x02 with the instruction's bits (R497). -/
def privileged (e : Env) (s : State) : Att := .trap false 0x02 e.bits s

/-- The context is in user mode (R495). -/
def Env.user (e : Env) (s : State) : Bool := !(s.ctx e.k).sup

/-- Waiting at a stall point for a result: the context counts as running (R203). -/
def stalled (s : State) : Att := .wait { how := .running, deadline := none, aux := [] } s

/-- Waiting at the issue stage: nothing of the context issues until this instruction goes on (R340, R370). -/
def stopped (s : State) : Att := .wait { how := .running, deadline := none, aux := [], stops := true } s

/-- An attempt that waits keeps these numbers behind the address of its fault, if it has one. -/
def Att.keeps (more : List Nat) : Att → Att
  | .wait w s => .wait { w with aux := w.aux.headD 0 :: more } s
  | a => a

/-- Parked with a deadline and numbers of its own (R203, R510). -/
def parked (deadline : Option Nat) (aux : List Nat) (s : State) : Att := .wait { how := .parked, deadline := deadline, aux := aux } s

end Machine

/-! ### Classes of instructions -/

/-- The serialising instructions of R58. -/
def Instr.serial : Instr → Bool
  | .follow .. | .leave | .rejoin .. | .yield | .fence .. | .fenceSc
  | .csrr .. | .csrw .. | .csrset .. | .csrclr .. | .trap .. | .eret | .uiret | .sreplyResume .. | .sreplySignal .. | .sreplyKill ..
  | .biasflipHost .. | .biasflipDevice .. | .wfi
  | .spawn .. | .sync | .pubf .. | .taskend | .donate .. | .jinit .. | .jdec ..
  | .send .. | .sendm .. | .hset .. | .hclr .. | .hold .. | .rels .. | .hmask .. | .hret | .mbxw ..
  | .bara .. | .barw .. | .barx .. | .team .. | .geosub .. => true
  | _ => false

/-- The read-modify-write instructions of the ATOM major (R321). -/
def Instr.isAmo : Instr → Bool
  | .amoAdd .. | .amoAnd .. | .amoOr .. | .amoXor .. | .amoMin .. | .amoMax .. | .amoMinu .. | .amoMaxu .. | .amoSwap .. | .amoCas ..
  | .amoAddn .. => true
  | _ => false

/-- What an instruction accesses: 0 nothing, 1 memory, 2 a sparse region, 3 a grid, 4 by an engine. -/
def Instr.accesses : Instr → Nat
  | .ldB .. | .ldBu .. | .ldH .. | .ldHu .. | .ldW .. | .ldWu .. | .ldD .. | .stB .. | .stH .. | .stW .. | .stD ..
  | .lddN .. | .stdN .. | .ldwN .. | .stwN .. | .ldspN .. | .stspN ..
  | .ldAcq .. | .stRel .. | .ldSc .. | .stSc .. | .vld .. | .vst .. | .vlds .. | .vsts .. | .vldb .. | .vldi .. | .vsti ..
  | .vgather .. | .vscatter .. | .mlda .. | .mldb .. | .mldc .. | .mstc .. => 1
  | .sld .. | .sst .. | .sadd .. | .sstat .. | .siter .. | .snext .. | .sdecl .. | .sdeclFree .. => 2
  | .ldg .. | .stg .. | .gstep .. | .gwait .. | .gstat .. | .gdecl .. | .gdeclFree .. => 3
  | .copy .. | .copym .. | .get .. | .put .. | .dense .. => 4
  | i => if i.isAmo then 1 else 0

/-- Acquires that can wait with a window open: a later access is not performed before them (R309). -/
def Instr.acquires : Instr → Bool
  | .ldAcq .. | .ldSc .. | .ctrw .. | .gwait .. => true
  | i => i.isAmo

/-- Releases that are not serialising and begin with their wait for every earlier access (R308, R309). Those that read a control block first (R330,
R340, R414, R439) wait once they have it. -/
def Instr.releases : Instr → Bool
  | .stRel .. | .stSc .. | .gstep .. | .sdeclFree .. | .gdeclFree .. => true
  | i => i.isAmo

/-- The destinations of the instructions that can wait with a window of their own open (R56). Any other that waits holds up every later one, and
discards older results when it has its own. -/
def Instr.dests : Instr → List Machine.Wr
  | .ldB _ d _ _ | .ldBu _ d _ _ | .ldH _ d _ _ | .ldHu _ d _ _ | .ldW _ d _ _ | .ldWu _ d _ _ | .ldD _ d _ _
  | .amoAdd _ d _ _ | .amoAnd _ d _ _ | .amoOr _ d _ _ | .amoXor _ d _ _ | .amoMin _ d _ _ | .amoMax _ d _ _ | .amoMinu _ d _ _
  | .amoMaxu _ d _ _ | .amoSwap _ d _ _ | .amoCas _ d _ _ | .amoAddn _ d _ _ | .ldAcq _ d _ | .ldSc _ d _
  | .mlease _ d _ | .mclaim _ d _ | .mstat _ d _ | .mwait _ d _ | .sld _ d _ _ | .sstat _ d _ _ | .ldg _ d _ _ | .gstep _ d _ _
  | .gwait _ d _ _ | .gstat _ d _ _ | .copy _ d _ _ | .copym _ d _ _ | .get _ d _ _ | .put _ d _ _ | .dense _ d _ _
  | .ctrx _ d _ _ | .ctrw _ d _ _ | .ctrr _ d _ | .ctrrClear _ d _ | .sdecl _ d _ | .siter _ d _ _ | .gdecl _ d _ => [.s d 0]
  | .vgather _ _ _ d _ _ => [.v d 0]
  | .mldc _ d _ _ | .mma _ d _ _ | .mrun _ d _ _ | .mzero _ d => [.tile d.toNat [] true]
  | .snext _ d .. => [.s d 0]
  | _ => []

/-- Memory accesses that take a place in their core's command queue at issue, whatever accesses precede them (R370). -/
def Instr.queues : Instr → Bool
  | .mldc .. | .mstc .. => true
  | _ => false

namespace Machine

/-! ### Windows (R54 to R57) -/

/-- A result is not yet there. -/
def Outst.pending (o : Outst) : Bool := match o.res with
  | .pend .. => true
  | _ => false

/-- The instruction has faulted. -/
def Outst.faulted (o : Outst) : Bool := match o.res with
  | .trap .. => true
  | _ => false

/-- The window has run out before place n: the instruction at n does not issue until the result is there (R57). -/
def Outst.due (o : Outst) (n : Nat) : Bool := decide (o.pos + o.la < n)

/-- Some result of the context is not yet there (R58). -/
def Win.waiting (w : Win) : Bool := w.outst.any Outst.pending

/-- The instruction keeps its context from issuing whatever its window. -/
def Outst.stops (o : Outst) : Bool := match o.res with
  | .pend _ _ w => w.stops
  | _ => false

/-- The next instruction may not issue: a result whose window has run out is not there, a fault is to be taken, or an instruction stands at the issue
stage (R57, R60, R340, R370). -/
def Win.stuck (w : Win) : Bool := w.outst.any fun o => o.stops || o.due w.seq && (o.pending || o.faulted)

/-- The context has an instruction ready to issue: its own next one, or one latched from its leader (R152, R229). -/
def Ctx.issues (c : Ctx) : Bool := (c.state == .running || c.state == .following && c.latch.isSome) && !c.win.stuck

/-- An instruction whose window is open holds back accesses that must follow it: an acquire holds back every access, any access holds back a release,
an access of bytes that overlap its own, and one to a sparse region or a grid where it is one itself (R59, R309). A `GSTEP` that has committed
(its wait record begins with 2) holds nothing back (R454). -/
def mustWait (i : Instr) (g : Regs) (older : List Outst) : Bool :=
  older.any fun o => match o.res with
    | .pend (.gstep ..) _ { aux := 2 :: _, .. } => false
    | .pend j h _ => (j.acquires && i.accesses != 0) || (i.releases && j.accesses != 0) || i.overlaps g j h ||
        ((i.accesses == 2 || i.accesses == 3) && i.accesses == j.accesses)
    | _ => false

/-- An access that is not yet performed. A `GSTEP` that has committed holds nothing back (R454). -/
def Outst.accessing (o : Outst) : Bool := match o.res with
  | .pend (.gstep ..) _ { aux := 2 :: _, .. } => false
  | .pend j _ _ => j.accesses != 0
  | _ => false

/-- An access of context k before place p of its program order is not yet performed. -/
def State.accessedBefore (s : State) (k p : Nat) : Bool := (s.ctx k).win.outst.any fun o => decide (o.pos < p) && o.accessing

/-- What a release does before its own effect: it waits until every earlier access of its context is performed, and its writes have reached their
homes (R309). -/
def releasing (e : Env) (s : State) (f : State → Att) : Att :=
  if s.accessedBefore e.k e.pos then stalled s
  else match s.released e.k with
    | (true, s') => f s'
    | (false, s') => stalled s'

/-- An instruction that writes these destinations discards older results for them; younger ones stand (R56, R60). -/
def Win.dropFor (w : Win) (ws : List Wr) : Win :=
  { w with outst := w.outst.map fun o => if o.pos < w.seq then { o with dropped := ws ++ o.dropped } else o }

/-- The writes of a result that still stand. -/
def Outst.writes (o : Outst) : List Wr := match o.res with
  | .ok ws => ws.filter fun x => !o.dropped.any fun y => x.same y
  | _ => []

/-- How far results may be written: up to the oldest fault when one is to be taken, so that its window does not close early (R60). -/
def Win.limit (w : Win) : Nat :=
  if w.outst.any fun o => o.faulted && o.due w.seq then
    (w.outst.filter Outst.faulted).foldl (fun n o => min n o.pos) w.seq
  else w.seq

/-- An outstanding entry whose result is there and whose window has run out before the limit. -/
def Outst.ripe (o : Outst) (n : Nat) : Bool := o.due n && !o.pending && !o.faulted

/-- Writes the results whose windows have closed (R56, R57). -/
def State.close (s : State) (k : Nat) : State :=
  let w := (s.ctx k).win
  let n := w.limit
  let s := (w.outst.filter fun o => o.ripe n).foldl (fun s o => s.wrs k o.writes) s
  s.modCtx k fun c => { c with win := { c.win with outst := c.win.outst.filter fun o => !o.ripe n } }

/-! ### Traps (R60, R498, R499) -/

/-- The cause, vector and resume registers of a context's mode (R495). -/
def Ctx.vec (c : Ctx) : Word := if c.sup then c.svec else c.tvec
def Ctx.cause (c : Ctx) : Word := if c.sup then c.scause else c.tcause
def Ctx.epc (c : Ctx) : Word := if c.sup then c.sepc else c.tepc

/-- A context with the trap registers of its mode written (R495, R498). -/
def Ctx.setTrap (c : Ctx) (cause val epc : Word) : Ctx :=
  if c.sup then { c with scause := cause, sval := val, sepc := epc } else { c with tcause := cause, tval := val, tepc := epc }

/-- A context with the cause register of its mode written. -/
def Ctx.setCause (c : Ctx) (cause : Word) : Ctx := if c.sup then { c with scause := cause } else { c with tcause := cause }

/-- A trap that cannot be taken (R499): in user mode the launch ends in a LAUNCH_ERROR, in supervisor mode the service core stops. -/
def State.escalate (s : State) (k code : Nat) : State :=
  let c := coreOf k
  if (s.ctx k).sup then
    (s.modCore c fun x => { x with stopped := true }).hostEvent 0 { type := 3, slot := 0xFFFF, tag := 0, info := code, payload := 0 }
  else s.failLaunch (s.slotOf c) code

/-- The skip mask of a trap at place p (R60): bit j - 1 for each of the next 15 places that is done, and the places it marks. -/
def skipMask (done : List Nat) (p : Nat) : Nat :=
  ((List.range 15).filter fun j => done.contains (p + j + 1)).foldl (fun m j => m + 2 ^ j) 0

/-- Places after p that are done: issued and not faulted, or done before an earlier trap (R60). -/
def Win.doneAfter (w : Win) (p : Nat) : List Nat :=
  let faulted := (w.outst.filter Outst.faulted).map (·.pos)
  ((List.range (w.seq - (p + 1))).map (· + (p + 1))).filter (fun q => !faulted.contains q) ++ w.done.filter fun q => w.seq ≤ q

/-- What places that are done have written of an outstanding result's destinations (R56): an instruction that was cancelled discards nothing. -/
def Win.droppedBy (w : Win) (q : Nat) (gone : List Nat) : List Wr :=
  (w.wrote.filter fun e => decide (q < e.1) && !gone.contains e.1).flatMap (·.2)

/-- The windows as a trap at place p leaves them frozen: faulting instructions cancelled, results held, the next place p (R60). -/
def Win.frozenAt (w : Win) (p : Nat) (pc : Word) (done : List Nat) : Win :=
  let gone := p :: (w.outst.filter Outst.faulted).map (·.pos)
  { outst := (w.outst.filter fun o => !gone.contains o.pos).map fun o => { o with dropped := w.droppedBy o.pos gone }, seq := p, done := done,
    path := w.path.put w.seq pc, wrote := w.wrote.filter fun e => !gone.contains e.1 }

/-- Enters the trap handler of context k at place p of its program order with the places after p that are done (R498): the one operation
through which every trap is taken. The cause, value and address go to the registers of the mode, the windows freeze, and the PC goes to
the vector; with EN clear or a handler running it escalates (R499). -/
def State.enterTrap (s : State) (k p code : Nat) (val epc : Word) (done : List Nat) : State :=
  let c := s.ctx k
  if c.vec.toNat % 2 = 0 || bit c.cause.toNat 63 then s.escalate k code
  else
    let cause := BitVec.ofNat 64 (2 ^ 63 + skipMask done p * 2 ^ 32 + code)
    s.setCtx k { (c.setTrap cause val (epc &&& ~~~1)) with
      pc := c.vec &&& ~~~1, state := .running, member := false, latch := none, frozenT := some (c.win.frozenAt p c.pc done), win := Win.reset }

/-- Takes the trap of the instruction at place p (R60, R498). -/
def State.takeTrap (s : State) (k p code : Nat) (val epc : Word) : State := s.enterTrap k p code val epc ((s.ctx k).win.doneAfter p)

/-- The oldest faulting instruction's trap is taken (R60). -/
def State.trapOldest (s : State) (k : Nat) : State :=
  match (s.ctx k).win.outst.find? Outst.faulted with
  | some o => match o.res with
    | .trap code val => s.takeTrap k o.pos code val o.pc
    | _ => s
  | none => s

/-- A fault that is to be taken is taken, oldest first, once every outstanding instruction has completed or faulted (R60). -/
def State.settleTraps (s : State) (k : Nat) : State :=
  let w := (s.ctx k).win
  if w.waiting || !(w.outst.any fun o => o.faulted && o.due w.seq) then s else s.trapOldest k

/-- The result of an outstanding instruction waits for the reply to a page fault. -/
def Outst.blocked (o : Outst) : Bool := match o.res with
  | .pend _ _ w => w.how == .blocked
  | _ => false

/-- A blocked context no longer follows a leader (R230). -/
def Ctx.waits (c : Ctx) (how : CtxState) : Ctx :=
  if how = .blocked && c.member then { c with state := how, member := false, latch := none } else { c with state := how }

/-- What a context that has just issued or been woken counts as (R203): parked or blocked where the result it stalls on is such a wait, and blocked
while a serialising instruction stalls on a faulted one (R58, R61). -/
def State.setWaitState (s : State) (k : Nat) : State :=
  let c := s.ctx k
  match c.win.outst.find? fun o => o.due c.win.seq && o.pending with
  | some o => match o.res with
    | .pend _ _ w => if w.how = .running then s else s.setCtx k (c.waits w.how)
    | _ => s
  | none =>
    if c.serialWait && c.win.outst.any Outst.blocked then s
    else if c.state = .parked || c.state = .blocked then
      s.setCtx k { c with state := if c.member then .following else .running, serialWait := false }
    else s

/-- A serialising instruction stalls on results that are outstanding (R58): on a faulted one, its context blocks (R61). -/
def State.serialStall (s : State) (k : Nat) : State :=
  let c := s.ctx k
  if c.win.outst.any Outst.blocked then s.setCtx k { c.waits .blocked with serialWait := true } else s

/-- After an instruction or a wake-up: results due are written, a fault due is taken, the context's state is set. -/
def State.advance (s : State) (k : Nat) : State := ((s.close k).settleTraps k).setWaitState k

/-- The fault of the outstanding instruction at place q is found before its window has run out: issue stops, and the trap is taken once every
outstanding instruction has completed or faulted (R60). -/
def State.faultFound (s : State) (k q : Nat) : State :=
  (s.modCtx k fun c => { c with win := { c.win with outst := c.win.outst.map fun o => if o.pos = q then { o with la := 0 } else o } }).advance k

/-! ### Issue -/

/-- The destinations of an instruction of context k that waits. Those of `SNEXT` follow the rank and the format of its cursor's region
(R406, R430). -/
def State.destsOf (s : State) (k : Nat) (i : Instr) : List Wr := match i with
  | .snext _ _ a b c =>
    let core := s.core (coreOf k)
    match core.cursors.find ((s.rs k a).toNat % 16) with
    | none => i.dests
    | some x =>
      let desc := (Tab.get Region.reset s.regions (s.slotOf (coreOf k) * 64 + x.handle % 64)).desc
      i.dests ++ (List.range (desc % 256)).map (fun j => .v (b + BitVec.ofNat 5 j) 0) ++ .v c 0 ::
        if desc / 256 % 256 = 2 then [.v (c + 1) 0] else []
  | _ => i.dests

/-- Places that are kept: those from the oldest outstanding one on. -/
def Win.prune {α : Type} (w : Win) (t : Tab α) : Tab α :=
  let q := w.outst.foldl (fun n o => min n o.pos) w.seq
  t.filter fun e => decide (q ≤ e.1)

/-- The next place has been issued or passed over, with these destinations: older results for them are discarded (R56). -/
def Win.count (w : Win) (ds : List Wr) : Win :=
  { (w.dropFor ds) with seq := w.seq + 1, wrote := w.prune (w.wrote.put w.seq ds) }

/-- An instruction leaves the issue stage with a result at place q: younger destinations discard older results, its own result is written at
once or held for its window (R56), the place is counted. -/
def State.retire (s : State) (k q la : Nat) (pc next : Word) (ws : List Wr) : State :=
  let s := s.modCtx k fun c => { c with win := c.win.count ws }
  let s := if la = 0 then s.wrs k ws
    else s.modCtx k fun c => { c with win := { c.win with outst := c.win.outst ++
      [{ pos := q, la := la, pc := pc, next := next, dropped := [], res := .ok ws }] } }
  s.advance k

/-- An instruction leaves the issue stage without a result: waiting, or faulted. -/
def State.enter (s : State) (k q la : Nat) (pc next : Word) (ds : List Wr) (r : Res) : State :=
  (s.modCtx k fun c => { c with win := { c.win.count ds with outst := (c.win.dropFor ds).outst ++
    [{ pos := q, la := la, pc := pc, next := next, dropped := [], res := r }] } }).advance k

/-- What the current context's instruction sees at its issue. -/
def State.env (s : State) (i : Instr) : Env :=
  let c := s.ctx s.cur
  { k := s.cur, pos := c.win.seq, pc := c.pc, next := c.pc + BitVec.ofNat 64 i.length, bits := i.word, regs := c.regs, wait := none }

/-- The PC of the current context moves past its instruction, and the address of the place is kept (R60). -/
def State.started (s : State) (i : Instr) : State :=
  let c := s.ctx s.cur
  s.setCtx s.cur { c with pc := c.pc + BitVec.ofNat 64 i.length, win := { c.win with path := c.win.prune (c.win.path.put c.win.seq c.pc) } }

/-- Issues an instruction in the current context with lookahead count la (R54 to R61): the PC moves past it, its attempt is made, and its
outcome is recorded. A serialising instruction does not issue while a result is outstanding (R58), and nothing issues past a result
that is due (R57). -/
def State.issue (s : State) (i : Instr) (la : Nat) (f : Env → State → Att) : Host.Outcome State Fault Refusal :=
  let k := s.cur
  let w := (s.ctx k).win
  let e := s.env i
  if (i.serial && w.waiting) || w.stuck then .next s
  else if i.serial && w.outst.any Outst.faulted then .next (s.trapOldest k)
  else
    let s1 := s.started i
    .next <|
      if mustWait i e.regs w.outst && !i.queues then
        s1.enter k w.seq la e.pc e.next (s.destsOf k i) (.pend i e.regs { how := .running, deadline := none, aux := [] })
      else match f e s1 with
        | .done ws s2 => s2.retire k w.seq la e.pc e.next ws
        | .trap late code val s2 => s2.enter k w.seq (if late then la else 0) e.pc e.next [] (.trap code (BitVec.ofNat 64 val))
        | .wait x s2 => s2.enter k w.seq la e.pc e.next (s.destsOf k i) (.pend i e.regs x)
        | .switch s2 => s2

/-- An instruction that always completes at once: its register writes from the registers of its issue. -/
def State.compute (s : State) (i : Instr) (la : La) (f : Env → List Wr) : Host.Outcome State Fault Refusal :=
  s.issue i la.toNat fun e s' => .done (f e) s'

/-- The instruction at place q has its result: it discards older ones for its destinations (R56). -/
def Win.resolved (w : Win) (q : Nat) (ws : List Wr) : Win :=
  { w with
    outst := w.outst.map fun x =>
      if x.pos = q then { x with res := .ok ws } else if x.pos < q then { x with dropped := ws ++ x.dropped } else x
    wrote := w.wrote.put q ws }

/-- Records what a later attempt of a waiting instruction has come to (R57, R61). -/
def resolve (k : Nat) (o : Outst) : Att → State
  | .done ws s => (s.modCtx k fun c => { c with win := c.win.resolved o.pos ws }).advance k
  | .trap _ code val s => (s.modCtx k fun c => { c with win := { c.win with
      outst := c.win.outst.map fun x => if x.pos = o.pos then { x with res := .trap code (BitVec.ofNat 64 val) } else x } }).advance k
  | .wait w s => (s.modCtx k fun c => { c with win := { c.win with
      outst := c.win.outst.map fun x => if x.pos = o.pos then
        { x with res := match x.res with
            | .pend i g _ => .pend i g w
            | r => r }
        else x } }).advance k
  | .switch s => s

/-! ### Page faults of a context (R292 to R297) -/

/-- Posts a page fault of context k, or joins the one outstanding (R293): MBX shows it and the pager is told. -/
def State.pageFault (s : State) (k : Nat) (a : Acc) (va cause level pte : Nat) : State :=
  let c := s.ctx k
  let core := coreOf k
  if bit c.mbx.toNat 63 then s
  else
    let no := (s.core core).faultCount
    let s := s.modCore core fun x => { x with faultCount := (x.faultCount + 1) % 2 ^ 32 }
    let s := s.setCtx k { c with mbx := BitVec.ofNat 64 (2 ^ 63 + a.code * 2 ^ 60 + va % 2 ^ 56), faultNo := no }
    s.postFault core (faultPayload va c.asid a.code cause level (!c.sup) (s.threadWord k) no pte 0) c.ltime

/-- Turns what an access came to into what the attempt comes to: a fault of a service core traps locally (R297), any other is posted and
waited for (R61); a home die that is asleep is waited for (R518). -/
def lsu (e : Env) (a : Acc) (s : State) (done : Nat → State → Att) : MemRes → Att
  | .ok x s => done x s
  | .trap late code val s => .trap late code val s
  | .stall => stalled s
  | .fault va cause level pte =>
    if (s.ctx e.k).sup then .trap true 0x13 va s
    else .wait { how := .blocked, deadline := none, aux := [va] } (s.pageFault e.k a va cause level pte)

/-- The control blocks that a waiting instruction has read, in their order (R330). -/
def Env.kept (e : Env) : List Nat := (e.wait.map fun w => w.aux.tail).getD []

/-- An attempt that waits keeps a control block before those it has read later. -/
def Att.keepsBlock (b : Nat) : Att → Att
  | .wait w s => .wait { w with aux := w.aux.headD 0 :: b :: w.aux.tail } s
  | a => a

/-- Control block j of an instruction is read once (R330): what the instruction does with it, now or at a later attempt. -/
def snapshot (j : Nat) (e : Env) (s : State) (read : MemRes) (go : Nat → State → Att) : Att :=
  match e.kept[j]? with
  | some b => (go b s).keepsBlock b
  | none => lsu e .load s (fun b s => (go b s).keepsBlock b) read

end Machine

end Sys2Proof
end

