-- ==== Sys2Proof/Machine/Boot.lean ====
section
/-! DEFINITION. A launch as it stands when its first instruction is about to be fetched (log 13): what bring-up, the host's commands, a doorbell,
placement and root dispatch come to, and the program's bytes in memory. -/

namespace Sys2Proof.Machine

/-- Where the launch's tables, its one page and its code lie: the ASID table, the four levels, the page at VA 0, and the code in it. -/
def bootAsids : Nat := 0x8000
def bootTables : Nat := 0x10000
def bootPage : Nat := 0x20000
def bootCode : Nat := 0x8000

/-- Doublewords at addresses. -/
def Mem.doublewords (m : Mem) (l : List (Nat × Nat)) : Mem := l.foldl (fun m e => m.writeN e.1 8 e.2) m

/-- Bytes from an address on. -/
def Mem.bytes (m : Mem) (a : Nat) : List Byte → Mem
  | [] => m
  | b :: bs => (m.write a b).bytes (a + 1) bs

/-- The page table of address space 0: VA 0 to 0xFFFF is a page that user code may read, write and execute (R286 to R288). -/
def bootMap : List (Nat × Nat) :=
  [(bootAsids, bootTables + 1), (bootTables, bootTables + 0x2000 + 1), (bootTables + 0x2000, bootTables + 0x4000 + 1),
   (bootTables + 0x4000, bootTables + 0x6000 + 1), (bootTables + 0x6000, bootPage + 0x9F)]

/-- A die in use after bring-up, with its page tables named. -/
def bootDie : Die := { Die.reset with ptroot := bootAsids + 1, up := true, loss := false, bound := 3 }

/-- The partition word of the launch: 8 contexts, one of them for handlers, 8 tiles, 64 KiB of L1, 64 KiB shared. -/
def bootPword : Nat := 8 + 1 * 2 ^ 4 + 8 * 2 ^ 7 + 2 * 2 ^ 13 + 8 * 2 ^ 16

/-- Slot 0 runs on cluster 0. -/
def bootLaunch : Launch :=
  { Launch.reset with state := .running, code := bootCode, pword := bootPword, clusters := [0], level := 1, began := some 0, rootReady := true }

/-- The bring-up has ended, and context 0 of core 0 runs the bytes given as the first of its program, in user mode. -/
def State.launched (s : State) (code : List Byte) : State :=
  { s with
    dies := (List.range 8).map fun d => (d, if d = 0 then { bootDie with bound := 0 } else bootDie)
    mem := (s.mem.doublewords bootMap).bytes (bootPage + bootCode) code
    launches := s.launches.put 0 bootLaunch
    cores := (List.range 14).map fun c => (c, { Core.reset Config.serviceDefault true c with pword := bootPword, slot := some 0 })
    ctxs := s.ctxs.put 0 { Ctx.reset false with state := .running, gen := 1, pc := BitVec.ofNat 64 bootCode, isRoot := true }
    pkg := { s.pkg with bringup := 6 }
    agenda := [], pace := [], turns := [0], cur := 0 }

end Sys2Proof.Machine
end

