-- ==== Sys2Proof/Machine/Operands.lean ====
section
/-! DEFINITION. The operand forms of the instruction formats: immediates, displacements, targets and effective addresses (R39 to R50, R140
to R149), as functions of the instruction's fields and the registers at its issue. -/

namespace Sys2Proof.Machine

/-- A signed immediate (R140). -/
def imm {n : Nat} (i : BitVec n) : Word := i.signExtend 64

/-- The value of an upper immediate (R142). -/
def upper (i : BitVec 20) : Word := i.signExtend 64 <<< 12

/-- The effective address of a load or store of n bytes: the displacement counts units of the access (R143, R144). -/
def Env.ea (e : Env) (a : Reg) (p : BitVec 8) (n : Nat) : Nat := (e.s a + p.signExtend 64 * BitVec.ofNat 64 n).toNat

/-- The effective address of a compact load or store: an unsigned displacement in units of the access (R50). -/
def Env.eaN (e : Env) (a : Reg) (i : Nat) (n : Nat) : Nat := (e.s a + BitVec.ofNat 64 (i * n)).toNat

/-- The target of a branch or jump: the displacement counts two-byte units from the instruction's address (R147, R149). -/
def Env.target (e : Env) {n : Nat} (p : BitVec n) : Word := e.pc + p.signExtend 64 <<< 1

end Sys2Proof.Machine
end

