-- ==== Sys2Proof/Machine/Post.lean ====
section
/-! DEFINITION. The receiving side of messages (R205 to R224): handler tables, pending messages, the undeliverable rings, bounces, the selector
and the start of an occupancy of a context (R204, R214, R248). -/

namespace Sys2Proof.Machine

/-! ### Occupancies -/

/-- A context at the start of an occupancy (R204, R214, R248): running at an address with the registers given, the next generation, and
every register that the tables of those rules name at zero. -/
def Ctx.begun (c : Ctx) (pc : Word) (g : Regs) : Ctx :=
  { c with
    state := .running, gen := (c.gen + 1) % 256, pc := pc, regs := g, fflags := 0, vstat := 0, tvec := 0, tcause := 0, tval := 0, tepc := 0,
    xid := 0, uiepc := 0, uien := 0, mbx := 0, hold := 0, frame := 0, depth := 0, snap := 0, taskSnap := 0, taskFrame := 0, landed := [],
    isRoot := false, cls := none, leader := none, member := false, port := [], latch := none, carried := 0, win := Win.reset, frozenT := none, frozenU := none,
    yielded := [], retry := false, writes := [] }

/-- A context of a core is backed (R112, R113). -/
def State.backed (s : State) (k : Nat) : Bool := decide (k % 8 < pwBacked (s.core (coreOf k)).pword)

/-- The contexts of a core. -/
def contextsOf (c : Nat) : List Nat := (List.range 8).map (· + 8 * c)

/-- The lowest free handler context of a core (R213). -/
def State.freeHandler (s : State) (c : Nat) : Option Nat := (contextsOf c).find? fun k => s.isHandler k && (s.ctx k).state == .free

/-- A free task context of a core. -/
def State.freeForTask (s : State) (k : Nat) : Bool := decide (k % 8 < pwTasks (s.core (coreOf k)).pword) && (s.ctx k).state == .free

/-- The lowest free task context of a core that no claim has reserved (R248). -/
def State.freeTask (s : State) (c : Nat) : Option Nat :=
  (contextsOf c).find? fun k => s.freeForTask k && (s.core c).claims.all fun x => x.ctx != k

/-! ### Classes -/

/-- A class is held while any context of the core has its bit set (R218). -/
def State.held (s : State) (c cls : Nat) : Bool := (contextsOf c).any fun k => bit (s.ctx k).hold cls

/-- The core's held set (R218). -/
def State.heldSet (s : State) (c : Nat) : Nat := (contextsOf c).foldl (fun x k => x ||| (s.ctx k).hold) 0

/-- A class runs a handler on the core (R213). -/
def State.runs (s : State) (c cls : Nat) : Bool := (contextsOf c).any fun k => (s.ctx k).cls == some cls

/-- A class is enabled in `HMASK` (R210). -/
def State.enabled (s : State) (c cls : Nat) : Bool := bit (s.core c).hmask cls

/-- The oldest pending message of a class. -/
def State.oldest (s : State) (c cls : Nat) : Option Msg := (s.core c).recv.find? fun m => m.cls == cls

/-- A class is pending, enabled and not held (R213, R505). -/
def State.ready (s : State) (c cls : Nat) : Bool := (s.oldest c cls).isSome && s.enabled c cls && !s.held c cls

/-- Messages in the receive store; of one class. -/
def Core.stored (x : Core) : Nat := (x.recv.filter fun m => !m.spilled).length
def Core.storedOf (x : Core) (cls : Nat) : Nat := (x.recv.filter fun m => !m.spilled && m.cls == cls).length
def Core.spilledOf (x : Core) (cls : Nat) : Nat := (x.recv.filter fun m => m.spilled && m.cls == cls).length

/-- Refills the store from the ring, class by class in order, while it has room (R209). -/
def refillFrom (x : Core) : List Msg → List Msg
  | [] => []
  | m :: ms =>
    if m.spilled && decide (x.storedOf m.cls < 15) && decide (x.stored < 256) then
      { m with spilled := false } :: refillFrom { x with recv := { m with spilled := false } :: x.recv } ms
    else m :: refillFrom x ms

/-- The core after the overflow engine has refilled its store. -/
def Core.refilled (x : Core) : Core := { x with recv := refillFrom { x with recv := x.recv.filter fun m => !m.spilled } x.recv }

/-- Removes the oldest pending message of a class. -/
def removeFirst (cls : Nat) : List Msg → List Msg
  | [] => []
  | m :: ms => if m.cls = cls then ms else m :: removeFirst cls ms

/-- Takes the oldest message of a class from the core's store (R213, R218). -/
def State.takeMsg (s : State) (c cls : Nat) : State := s.modCore c fun x => { x with recv := removeFirst cls x.recv }.refilled

/-- The payload, zero-filled (R214). -/
def Msg.image (m : Msg) : VReg := BitVec.ofNat 512 (m.payload % 2 ^ (8 * m.len))

/-! ### Arrival (R208, R209, R220, R221) -/

/-- The message goes on the core's list, in the store or in the ring. -/
def State.pend (s : State) (c : Nat) (m : Msg) (spill : Bool) : State :=
  (s.modCore c fun x => { x with recv := x.recv ++ [{ m with spilled := spill }] }).post (.handlerStart c)

/-- A message of this class would be spilled (R208). -/
def State.wouldSpill (s : State) (c cls : Nat) : Bool :=
  let x := s.core c
  decide (15 ≤ x.storedOf cls) || decide (256 ≤ x.stored) || decide (0 < x.spilledOf cls)

/-- The ring has room for one more message (R209). -/
def State.ringRoom (s : State) (c : Nat) : Bool := decide (((s.core c).recv.filter Msg.spilled).length < (s.core c).msgQuota)

/-- A class-1 notice of a cluster or core goes to core 15 of the cluster (R209, R221). It carries its die's H as pts (log 88: the manual gives a
hardware message no pts). -/
def State.notice (s : State) (cl payload slot : Nat) : State :=
  s.send (hwMsg (cl * 16 + 15) 1 4 8 payload slot (s.die (cl / 32)).home)

/-- Writes a message into the undeliverable ring of a cluster and sends the notice; a full ring counts a drop (R221). Where its entries lie against
the header line, and how they leave it, are the model's (log 89). -/
def State.undeliverable (s : State) (cl : Nat) (m : Msg) : State :=
  let x := s.cluster cl
  if x.undQuota ≤ x.undCount then
    let n := x.undDropped + 1
    { (s.modCluster cl fun y => { y with undDropped := n }) with mem := s.mem.writeN x.undBase 8 n }
  else
    let image := m.dst + m.info * 2 ^ 64 + m.slot % 2 ^ 32 * 2 ^ 128 + m.payload % 2 ^ (8 * m.len) * 2 ^ 512
    let s := { s with mem := s.mem.writeN (x.undBase + 64 + 128 * x.undCount) 128 image }
    (s.modCluster cl fun y => { y with undCount := x.undCount + 1 }).notice cl x.undCount m.slot

/-- A discarded notice is counted in the ring's header line (R221). -/
def State.noticeDropped (s : State) (cl : Nat) : State :=
  let n := (s.cluster cl).noticesDropped + 1
  { (s.modCluster cl fun y => { y with noticesDropped := n }) with mem := s.mem.writeN ((s.cluster cl).undBase + 8) 8 n }

/-- The core is of a launch that is being saved, from step 1 on, or saved: its arrivals are kept with the launch (R231). -/
def State.savedHere (s : State) (slot c : Nat) : Bool :=
  let l := s.launch slot
  decide (slot < 1024) && (l.state == .saved || l.save.isSome) && l.clusters.contains (c / 16)

/-- Keeps an arrival with its launch, behind those that came before it. -/
def State.keepArrival (s : State) (slot : Nat) (m : Msg) : State :=
  s.modLaunch slot fun l => match l.saved with
    | some v => { l with saved := some { v with arrivals := v.arrivals ++ [m] } }
    | none => { l with late := l.late ++ [m] }

/-- The named context of a thread destination is backed, not free and at its generation (R206). -/
def State.threadHere (s : State) (dst : Nat) : Bool :=
  let k := dstCore dst * 8 + bits dst 14 12
  s.backed k && (s.ctx k).state != .free && (s.ctx k).gen == bits dst 22 15

/-- A message arrives at its core (R208), in the order of the table. -/
def State.arrive (s : State) (c : Nat) (m : Msg) : State :=
  if !s.isService c && s.savedHere m.slot c then s.keepArrival m.slot m
  else if !s.isService c && (s.core c).slot != some m.slot then s.bounceMsg m 2
  else if dstKind m.dst = 1 && !s.threadHere m.dst then s.bounceMsg m 1
  else match (s.core c).handlers.find m.cls with
    | none => if m.hsrc && m.cls = 1 then s.noticeDropped (c / 16) else s.undeliverable (c / 16) m
    | some h =>
      let m := { m with bound := some h }
      if s.wouldSpill c m.cls then
        if s.ringRoom c then s.pend c m true
        else if m.hsrc && m.cls = 1 then s.noticeDropped (c / 16)
        else (s.bounceMsg m 3).notice (c / 16) m.cls m.slot
      else s.pend c m false

/-- A bounce arrives at its sender's core (R220). -/
def State.arriveBounce (s : State) (c : Nat) (m : Msg) : State :=
  if !s.isService c && s.savedHere m.slot c then s.keepArrival m.slot m
  else if !s.isService c && (s.core c).slot != some m.slot then s
  else
    let drop := s.modCore c fun x => { x with bounces := min (x.bounces + 1) 0xFFFFFFFF }
    if !s.enabled c 0 then drop
    else match (s.core c).handlers.find 0 with
      | none => drop
      | some h =>
        let m := { m with bound := some h }
        if s.wouldSpill c 0 then (if s.ringRoom c then s.pend c m true else drop) else s.pend c m false

/-! ### The selector (R213, R214) -/

/-- The order of two messages under the selector: the better bound priority, then the earlier arrival. -/
def better (a b : Msg) : Bool := decide ((a.bound.map (·.prio)).getD 8 < (b.bound.map (·.prio)).getD 8)

/-- The message that the selector chooses: of every class that may start, its oldest; of these the best. -/
def State.selected (s : State) (c : Nat) : Option Msg :=
  let heads := ((s.core c).recv.filter fun m =>
    s.ready c m.cls && !s.runs c m.cls && (s.oldest c m.cls == some m) && !m.spilled)
  heads.foldl (fun x m => match x with
    | none => some m
    | some y => if better m y then some m else some y) none

/-- Starts a handler for a message on a context (R214): an acquire edge, at which the context's pts takes the one carried (R303). -/
def State.startHandler (s : State) (k : Nat) (m : Msg) : State :=
  let c := coreOf k
  let s := (s.takeMsg c m.cls).acquire c
  let h := m.bound.getD { pc := 0, prio := 0, arg := 0 }
  let g := (((Regs.reset).ws 1 (BitVec.ofNat 64 m.info)).ws 2 h.arg).wv 0 m.image
  s.modCtx k fun x => { x.begun h.pc g with cls := some m.cls, ltime := serialMax 24 x.ltime m.pts }

/-- A renegotiated release of the core's team is under way (R131). -/
def State.renegotiating (s : State) (c : Nat) : Bool :=
  (s.cluster (clusterOf c)).barriers.any fun e => e.1 / 64 == s.teamId c && e.2.releasing

/-- What the selector of a core would start, and where (R213). A core whose launch is being saved starts nothing (R512), nor does one whose words
are changing (R131); one that has stopped runs nothing (R499). -/
def State.choice (s : State) (c : Nat) : Option (Nat × Msg) :=
  if (s.core c).saving || (s.core c).stopped || s.renegotiating c then none
  else match s.freeHandler c, s.selected c with
    | some k, some m => some (k, m)
    | _, _ => none

/-- One cycle of the selector (R213). -/
def State.select (s : State) (c : Nat) : State := match s.choice c with
  | some (k, m) => s.startHandler k m
  | none => s

/-! ### The die's distributor (R215) -/

/-- A worker core meets the conditions under which it accepts a die message. -/
def State.accepts (s : State) (c : Nat) (m : Msg) : Bool :=
  !s.isService c && (s.core c).slot == some m.slot && ((s.core c).handlers.find m.cls).isSome && s.enabled c m.cls && !s.held c m.cls &&
    (s.freeHandler c).isSome && (s.oldest c m.cls).isNone && !(s.core c).saving && !s.renegotiating c

/-- Messages whose order of arrival R217 fixes: those of one source die on one network class. -/
def Msg.stream (m : Msg) : Bool × Nat × Nat := (m.hsrc, m.sender % 4096 / 512, m.nc)

/-- The oldest message of each such stream. -/
def streamHeads : List Msg → List Msg
  | [] => []
  | m :: ms => m :: (streamHeads ms).filter fun x => x.stream != m.stream

/-- What becomes of a message that the distributor of die d offers: the core that accepts it, from the class's pointer on; no core, where none has
the class's entry set; or it waits. -/
def State.offerTo (s : State) (d : Nat) (m : Msg) : Option (Msg × Option Nat) :=
  let cores := (List.range 512).map (· + 512 * d)
  let p := Tab.get 0 (s.die d).pointers m.cls % 512
  match (cores.drop p ++ cores.take p).find? fun c => s.accepts c m with
  | some c => some (m, some c)
  | none =>
    if cores.any fun c => !s.isService c && (s.core c).slot == some m.slot && ((s.core c).handlers.find m.cls).isSome then none
    else some (m, none)

/-- The first message of die d's distributor that does not wait, and where it goes. -/
def State.offered (s : State) (d : Nat) : Option (Msg × Option Nat) := (streamHeads (s.die d).fifo).findSome? (s.offerTo d)

/-- The distributor of a die offers its messages from the class's pointer on (R215). -/
def State.offerDie (s : State) (d : Nat) : State :=
  match s.offered d with
  | none => s
  | some (m, to_) =>
    let s := s.modDie d fun x => { x with fifo := x.fifo.erase m }
    match to_ with
    | some c => (s.modDie d fun x => { x with pointers := x.pointers.put m.cls ((c + 1) % 512) }).arrive c m
    | none => s.undeliverable (d * 32) m

end Sys2Proof.Machine
end

