-- ==== Sys2Proof/Machine/Msg.lean ====
section
/-! DEFINITION. The MSG major (R216 to R225) and the events of the message path. -/

namespace Sys2Proof.Machine

/-! ### Sending (R216) -/

/-- A die that takes no messages: in D2 or D3. -/
def State.deaf (s : State) (d : Nat) : Bool := (s.die d).power == .d2 || (s.die d).power == .d3

/-- Reserved bits of a destination word (R205). -/
def dstReserved (d : Nat) : Bool := match dstKind d with
  | 0 => bits d 61 12 != 0
  | 1 => bits d 61 23 != 0
  | 2 => bits d 61 12 != 0 || bits d 8 0 != 0
  | _ => bits d 61 0 != 0

/-- The destination checks of R216. -/
def State.badDst (s : State) (user : Bool) (d : Nat) : Bool :=
  dstReserved d || (match dstKind d with
    | 0 => user && s.isService (dstCore d) || s.deaf (dieOf (dstCore d))
    | 1 => user && s.isService (dstCore d) || s.deaf (dieOf (dstCore d))
    | 2 => s.deaf (bits d 11 9)
    | _ => false)

/-- The core mask and the cluster of a `SENDM` destination (R216). -/
def multiMask (d : Nat) : Nat := bits d 39 24
def multiCluster (d : Nat) : Nat := bits d 11 4

/-- The checks on a `SENDM` destination. -/
def State.badMulti (s : State) (user : Bool) (d : Nat) : Bool :=
  bits d 63 40 != 0 || bits d 23 12 != 0 || bits d 3 0 != 0 || s.deaf (multiCluster d / 32) ||
    user && ((List.range 16).any fun i => bit (multiMask d) i && s.isService (multiCluster d * 16 + i))

/-- LEN, NC and HC of a control word (R216). -/
def ctlLen (c : Nat) : Nat := bits c 22 16
def ctlNC (c : Nat) : Nat := bits c 10 8
def ctlHC (c : Nat) : Nat := bits c 5 0

/-- A control word breaks R216. -/
def ctlBad (multi : Bool) (c : Nat) : Bool :=
  bits c 63 23 != 0 || bits c 15 11 != 0 || bits c 7 6 != 0 || decide (64 < ctlLen c) ||
    (if multi then ctlNC c != 0 else ctlNC c != 4 && ctlNC c != 7)

/-- A program's message from context k (R217). A service core runs no launch, and its messages carry slot 0xFFFF (log 90). -/
def State.ownMsg (s : State) (k dst cls nc len payload : Nat) : Msg :=
  { dst := dst, cls := cls, sent := cls, nc := nc, len := len, payload := payload % 2 ^ (8 * len), hsrc := false, sender := s.senderBits k, reason := 0,
    slot := s.slotOf (coreOf k), pts := (s.ctx k).ltime, bound := none, born := 0, spilled := false }

/-- The core's launch is being saved: its contexts stall at the issue of a send (R512). -/
def Env.halted (e : Env) (s : State) : Bool := (s.core e.core).saving

/-- An attempt of `SEND` (R216). -/
def trySend (a b v : Reg) (e : Env) (s : State) : Att :=
  let ctl := e.n b
  let dst := e.n a
  if ctlBad false ctl then illegal e s
  else if e.user s && decide (ctlHC ctl ≤ 3) then privileged e s
  else if s.badDst (e.user s) dst then .trap false 0x10 dst s
  else if e.halted s then stalled s
  else releasing e s fun s => .done [] (s.send (s.ownMsg e.k dst (ctlHC ctl) (ctlNC ctl) (ctlLen ctl) (e.v v).toNat))

/-- An attempt of `SENDM` (R216): one copy for each bit of the mask, in ascending core order, on class 5. -/
def trySendm (a b v : Reg) (e : Env) (s : State) : Att :=
  let ctl := e.n b
  let dst := e.n a
  if ctlBad true ctl then illegal e s
  else if e.user s && decide (ctlHC ctl ≤ 3) then privileged e s
  else if s.badMulti (e.user s) dst then .trap false 0x10 dst s
  else if e.halted s then stalled s
  else releasing e s fun s => .done [] <|
    ((List.range 16).filter fun i => bit (multiMask dst) i).foldl (fun s i =>
      s.send (s.ownMsg e.k (multiCluster dst * 16 + i) (ctlHC ctl) 5 (ctlLen ctl) (e.v v).toNat)) s

/-- SEND (R216). -/
def execSend (a b v : Reg) (s : State) : Host.Outcome State Fault Refusal := s.issue (.send a b v) 0 (trySend a b v)

/-- SENDM (R216). -/
def execSendm (a b v : Reg) (s : State) : Host.Outcome State Fault Refusal := s.issue (.sendm a b v) 0 (trySendm a b v)

/-! ### The handler table (R222, R223) -/

/-- HSET (R222): sD is a source, the class and the priority. -/
def execHset (d a b : Reg) (s : State) : Host.Outcome State Fault Refusal :=
  s.issue (.hset d a b) 0 fun e s' =>
    let w := e.n d
    let cls := w % 64
    if bits w 63 11 != 0 || bits w 7 6 != 0 then illegal e s'
    else if e.user s' && decide (1 ≤ cls ∧ cls ≤ 3) then privileged e s'
    else if e.n a % 2 = 1 then .trap false 0x03 (e.n a) s'
    else .done [] (s'.modCore e.core fun x => { x with handlers := x.handlers.put cls { pc := e.s a, prio := bits w 10 8, arg := e.s b } })

/-- HCLR (R222). -/
def execHclr (a : Reg) (s : State) : Host.Outcome State Fault Refusal :=
  s.issue (.hclr a) 0 fun e s' =>
    let w := e.n a
    if bits w 63 6 != 0 then illegal e s'
    else if e.user s' && decide (1 ≤ w ∧ w ≤ 3) then privileged e s'
    else .done [] (s'.modCore e.core fun x => { x with handlers := x.handlers.del w })

/-- HMASK (R224): user mode leaves bits [3:1] as they are. -/
def execHmask (d a b : Reg) (s : State) : Host.Outcome State Fault Refusal :=
  s.issue (.hmask d a b) 0 fun e s' =>
    let old := BitVec.ofNat 64 (s'.core e.core).hmask
    let new := (old &&& ~~~e.s a) ||| e.s b
    let keep : Word := if e.user s' then 0xE else 0
    let w := (new &&& ~~~keep) ||| (old &&& keep)
    .done [.s d old] ((s'.modCore e.core fun x => { x with hmask := w.toNat }).post (.handlerStart e.core))

/-! ### Holds and the mailbox (R218) -/

/-- The classes that a hold instruction acts on: user mode ignores bits 1 to 3. -/
def Env.holdBits (e : Env) (s : State) (a : Reg) : Nat := (if e.user s then e.s a &&& ~~~(0xE : Word) else e.s a).toNat

/-- HOLD (R218): sD takes the core's held set after the change. -/
def execHold (d a : Reg) (s : State) : Host.Outcome State Fault Refusal :=
  s.issue (.hold d a) 0 fun e s' =>
    let s2 := s'.modCtx e.k fun c => { c with hold := c.hold ||| e.holdBits s' a }
    .done [.s d (BitVec.ofNat 64 (s2.heldSet e.core))] s2

/-- RELS (R218). -/
def execRels (d a : Reg) (s : State) : Host.Outcome State Fault Refusal :=
  s.issue (.rels d a) 0 fun e s' =>
    let s2 := s'.modCtx e.k fun c => { c with hold := (BitVec.ofNat 64 c.hold &&& ~~~BitVec.ofNat 64 (e.holdBits s' a)).toNat }
    .done [.s d (BitVec.ofNat 64 (s2.heldSet e.core))] (s2.post (.handlerStart e.core))

/-- The deadline of a waiting instruction: that of the attempt that first waited for it. -/
def Env.until (e : Env) (s : State) (t : Word) : Option Nat :=
  match e.wait.bind (·.deadline) with
  | some x => some x
  | none => s.deadline e.die t

/-- An attempt of `MBXW` (R218): takes the oldest message of the class, gives up at the deadline, or parks. -/
def tryMbxw (d a b : Reg) (e : Env) (s : State) : Att :=
  let cls := e.n a
  if decide (64 ≤ cls) || !bit (s.ctx e.k).hold cls then illegal e s
  else match s.oldest e.core cls with
    | some m =>
      let s := ((s.takeMsg e.core cls).acquire e.core).raisePts e.k m.pts
      .done [.v 0 m.image, .s d (BitVec.ofNat 64 m.info)] s
    | none =>
      let t := e.until s (e.s b)
      if s.passed e.die t then .done [.s d 0] s else parked t [] s

/-- MBXW (R218). -/
def execMbxw (d a b : Reg) (s : State) : Host.Outcome State Fault Refusal := s.issue (.mbxw d a b) 0 (tryMbxw d a b)

/-- HRET (R225): the handler ends, its windows are discarded, and the context is free. -/
def execHret (s : State) : Host.Outcome State Fault Refusal :=
  s.issue .hret 0 fun e s' =>
    if !s'.isHandler e.k then illegal e s'
    else .switch (((s'.modCtx e.k Ctx.freed).post (.handlerStart e.core)).post (.distributorOffer e.die))

/-! ### Events of the message path -/

/-- The first message in the network that is bound for a core. -/
def takeFor (p : Msg → Bool) : List Msg → Option (Msg × List Msg)
  | [] => none
  | m :: ms => if p m then some (m, ms) else (takeFor p ms).map fun r => (r.1, m :: r.2)

/-- The next message of the network for a core: the first sent on class 7, which has strict priority (R472), else the first sent. -/
def State.nextFor (s : State) (core : Nat) : Option (Msg × List Msg) :=
  let here := fun (m : Msg) => dstKind m.dst < 2 && dstCore m.dst == core
  (takeFor (fun m => here m && m.nc == 7) s.net).or (takeFor here s.net)

/-- A message arrives at a core (R208), or waits for a release that changes the core's word (R131). -/
def execMessageArrival (core : Nat) (s : State) : Host.Outcome State Fault Refusal :=
  if s.renegotiating core then .next (s.post (.messageArrival core))
  else match s.nextFor core with
  | none => .next s
  | some (m, rest) =>
    let s := if m.nc = 7 then ({ s with net := rest } : State).latency (dieOf core) 8 core else { s with net := rest }
    .next (s.arrive core m)

/-- A bounce arrives at its sender's core (R220). -/
def execBounce (core : Nat) (s : State) : Host.Outcome State Fault Refusal :=
  if s.renegotiating core then .next (s.post (.bounce core))
  else match takeFor (fun m => dstCore m.dst == core) s.bounces with
  | none => .next s
  | some (m, rest) => .next ({ s with bounces := rest }.arriveBounce core m)

/-- The selector of a core (R213): it starts at most one handler a cycle, and has its next cycle while it can start another. -/
def execHandlerStart (core : Nat) (s : State) : Host.Outcome State Fault Refusal :=
  let t := s.select core
  .next (if (t.choice core).isSome then t.post (.handlerStart core) else t)

/-- The distributor of a die offers its messages (R215), one at a time while one does not wait. -/
def execDistributorOffer (die : Nat) (s : State) : Host.Outcome State Fault Refusal :=
  let t := s.offerDie die
  .next (if (t.offered die).isSome then t.post (.distributorOffer die) else t)

/-- A message for the host reaches the management complex (R206, R490): it becomes a MESSAGE event, or bounces when ring and buffer are
full. -/
def execHostMessage (evq : Nat) (s : State) : Host.Outcome State Fault Refusal :=
  match takeFor (fun m => dstKind m.dst == 3 && s.evqOf m.slot == evq) s.net with
  | none => .next s
  | some (m, rest) =>
    let s := { s with net := rest }
    if s.hostAccepts evq then
      .next (s.hostEvent evq { type := 1, slot := m.slot, tag := s.tagOf m.slot, info := m.info, payload := m.payload })
    else .next (s.bounceMsg m 3)

end Sys2Proof.Machine
end

