-- ==== Sys2Proof/Machine/Atomic.lean ====
section
/-! DEFINITION. The ATOM major (R314, R315, R320 to R324): atomics, acquires, releases, SC operations and fences, and the events of tokens and
of SC windows. -/

namespace Sys2Proof.Machine

/-! ### Read-modify-writes (R321, R322) -/

/-- An attempt of a read-modify-write, an acquire and a release (R321): `f` gives the new value from the old, or none. `extra` is what follows
the write. -/
def tryAmo (d a : Reg) (f : Env → Nat → Option Nat) (extra : Env → Nat → State → State) (e : Env) (s : State) : Att :=
  let ea := e.n a
  match s.atomicChecks e.core ea with
  | some code => .trap false code ea s
  | none => releasing e s fun s =>
    lsu e .atomic s (fun m s' => .done [.s d (BitVec.ofNat 64 m)] ((extra e m s').acquire e.core)) (s.atomic (s.who e.k) .atomic ea (f e))

/-- A read-modify-write whose new value is a function of the old doubleword and s[B]. -/
def tryAmo2 (d a b : Reg) (g : Word → Word → Word) : Env → State → Att :=
  tryAmo d a (fun e m => some (g (BitVec.ofNat 64 m) (e.s b)).toNat) fun _ _ s => s

/-- The functions of R321. -/
def amoMin (x y : Word) : Word := if x.slt y then x else y
def amoMax (x y : Word) : Word := if x.slt y then y else x
def amoMinu (x y : Word) : Word := if x.ult y then x else y
def amoMaxu (x y : Word) : Word := if x.ult y then y else x

/-- AMO.ADD (R321). -/
def execAmoAdd (l : La) (d a b : Reg) (s : State) : Host.Outcome State Fault Refusal :=
  s.issue (.amoAdd l d a b) l.toNat (tryAmo2 d a b (· + ·))

/-- AMO.AND (R321). -/
def execAmoAnd (l : La) (d a b : Reg) (s : State) : Host.Outcome State Fault Refusal :=
  s.issue (.amoAnd l d a b) l.toNat (tryAmo2 d a b (· &&& ·))

/-- AMO.OR (R321). -/
def execAmoOr (l : La) (d a b : Reg) (s : State) : Host.Outcome State Fault Refusal :=
  s.issue (.amoOr l d a b) l.toNat (tryAmo2 d a b (· ||| ·))

/-- AMO.XOR (R321). -/
def execAmoXor (l : La) (d a b : Reg) (s : State) : Host.Outcome State Fault Refusal :=
  s.issue (.amoXor l d a b) l.toNat (tryAmo2 d a b (· ^^^ ·))

/-- AMO.MIN (R321). -/
def execAmoMin (l : La) (d a b : Reg) (s : State) : Host.Outcome State Fault Refusal :=
  s.issue (.amoMin l d a b) l.toNat (tryAmo2 d a b amoMin)

/-- AMO.MAX (R321). -/
def execAmoMax (l : La) (d a b : Reg) (s : State) : Host.Outcome State Fault Refusal :=
  s.issue (.amoMax l d a b) l.toNat (tryAmo2 d a b amoMax)

/-- AMO.MINU (R321). -/
def execAmoMinu (l : La) (d a b : Reg) (s : State) : Host.Outcome State Fault Refusal :=
  s.issue (.amoMinu l d a b) l.toNat (tryAmo2 d a b amoMinu)

/-- AMO.MAXU (R321). -/
def execAmoMaxu (l : La) (d a b : Reg) (s : State) : Host.Outcome State Fault Refusal :=
  s.issue (.amoMaxu l d a b) l.toNat (tryAmo2 d a b amoMaxu)

/-- AMO.SWAP (R321). -/
def execAmoSwap (l : La) (d a b : Reg) (s : State) : Host.Outcome State Fault Refusal :=
  s.issue (.amoSwap l d a b) l.toNat (tryAmo2 d a b fun _ y => y)

/-- An attempt of `AMO.CAS` (R321): s[B] if the doubleword equals s[D] at issue, else nothing is written. -/
def tryCas (d a b : Reg) : Env → State → Att :=
  tryAmo d a (fun e m => if m = e.n d then some (e.n b) else none) fun _ _ s => s

/-- AMO.CAS (R321). -/
def execAmoCas (l : La) (d a b : Reg) (s : State) : Host.Outcome State Fault Refusal :=
  s.issue (.amoCas l d a b) l.toNat (tryCas d a b)

/-- The destination and class of a notify word (R322). -/
def notifyDst (w : Nat) : Nat := w - bits w 29 24 * 2 ^ 24
def notifyClass (w : Nat) : Nat := bits w 29 24

/-- Reserved bits, or KIND 3, in a notify word. -/
def notifyBad (w : Nat) : Bool := dstKind w == 3 || dstReserved (notifyDst w)

/-- The pts that a message of a fabric operation at ea carries: the line's wts (R322), or the context's own for scratch. -/
def State.linePts (s : State) (k ea : Nat) : Nat :=
  if winTag ea = 0 then
    match s.xlate (s.who k) .atomic ea 8 with
    | .ok pa _ => if s.local_ pa then (s.lineStamps (pa / 64)).1 else (s.ctx k).ltime
    | _ => (s.ctx k).ltime
  else (s.ctx k).ltime

/-- An attempt of `AMO.ADDN` (R322): its checks in order, the addition, and the message when the new value is 0. -/
def tryAddn (d a b : Reg) (e : Env) (s : State) : Att :=
  let ea := e.n a
  let w := e.n d
  match s.atomicChecks e.core ea with
  | some code => .trap false code ea s
  | none =>
    if notifyBad w then illegal e s
    else if e.user s && decide (notifyClass w ≤ 3) then privileged e s
    else if s.badDst (e.user s) (notifyDst w) then .trap false 0x10 w s
    else tryAmo d a (fun e m => some (BitVec.ofNat 64 m + e.s b).toNat) (fun e m s =>
      if BitVec.ofNat 64 m + e.s b = 0 then
        s.send { s.ownMsg e.k (notifyDst w) (notifyClass w) 4 8 ea with pts := s.linePts e.k ea }
      else s) e s

/-- AMO.ADDN (R322). -/
def execAmoAddn (l : La) (d a b : Reg) (s : State) : Host.Outcome State Fault Refusal :=
  s.issue (.amoAddn l d a b) l.toNat (tryAddn d a b)

/-! ### Acquire loads and release stores (R323) -/

/-- An acquiring load (R323); `fresh` says that it must see the last write at the home (R315). -/
def loadAcquire (fresh : Bool) (d a : Reg) (e : Env) (s : State) : Att :=
  let ea := e.n a
  match s.atomicChecks e.core ea with
  | some code => .trap false code ea s
  | none => lsu e .acq s (fun x s' => .done [.s d (BitVec.ofNat 64 x)] (s'.acquire e.core)) (s.acquireRead (s.who e.k) ea fresh)

/-- An attempt of `LD.ACQ` (R323). -/
def tryLdAcq (d a : Reg) : Env → State → Att := loadAcquire false d a

/-- LD.ACQ (R323). -/
def execLdAcq (l : La) (d a : Reg) (s : State) : Host.Outcome State Fault Refusal := s.issue (.ldAcq l d a) l.toNat (tryLdAcq d a)

/-- An attempt of `ST.REL` (R323): the store is performed at the home. -/
def tryStRel (a b : Reg) (e : Env) (s : State) : Att :=
  let ea := e.n a
  match s.atomicChecks e.core ea with
  | some code => .trap false code ea s
  | none => releasing e s fun s => lsu e .rel s (fun _ s' => .done [] s') (s.atomic (s.who e.k) .rel ea fun _ => some (e.n b))

/-- ST.REL (R323). -/
def execStRel (a b : Reg) (s : State) : Host.Outcome State Fault Refusal := s.issue (.stRel a b) 0 (tryStRel a b)

/-! ### SC operations (R315) -/

/-- What a waiting SC operation keeps: its number in its core, whether its turn in S has come, and the pts at its issue. -/
def scWaits (n p : Nat) : List Nat := [n, 1, p]
def scTurn (n p : Nat) : List Nat := [n, 2, p]

/-- Announces an SC operation of context k on its die's notification network (R315); p is its pts at issue. -/
def State.announce (s : State) (k p : Nat) : Att :=
  let c := coreOf k
  let n := (s.core c).scSeq
  let s := s.modCore c fun x => { x with scSeq := n + 1 }
  let s := s.modDie (dieOf c) fun x => { x with scq := x.scq ++ [{ ctx := k, seq := n, stamp := none }] }
  .wait { how := .running, deadline := none, aux := scWaits n p } (s.post (.scWindowClose (dieOf c)))

/-- The operation leaves the queue of its die as it is performed. -/
def State.unqueue (s : State) (k n : Nat) : State :=
  s.modDie (dieOf (coreOf k)) fun x => { x with scq := x.scq.filter fun o => o.ctx != k || o.seq != n }

/-- The doubleword lies in another package or in host memory, where an operation has no place in S (R315). -/
def State.outsideS (s : State) (k ea : Nat) : Bool :=
  winTag ea == 0 && (match s.xlate (s.who k) .acq ea 8 with
    | .ok pa _ => !s.local_ pa
    | _ => false)

/-- An SC operation (R315): after its checks and its release it is announced, and it is performed when its turn in S has come. -/
def scOp (e : Env) (a : Acc) (ea : Nat) (s : State) (perform : State → Att) : Att :=
  match s.atomicChecks e.core ea with
  | some code => .trap false code ea s
  | none =>
    match e.wait.map (·.aux) with
    | some [n, 2, _] => perform (s.unqueue e.k n)
    | some [n, 1, p] => .wait { how := .running, deadline := none, aux := scWaits n p } s
    | _ =>
      match if winTag ea = 0 then s.firstStop (s.who e.k) a ea 8 true (piecesOf ea 8) else none with
      | some r => lsu e a s (fun _ s' => .done [] s') r
      | none => releasing e s fun s => if s.outsideS e.k ea then perform s else s.announce e.k (s.ctx e.k).ltime

/-- An attempt of `LD.SC` (R323): at its turn it reads what the home has. -/
def tryLdSc (d a : Reg) (e : Env) (s : State) : Att := scOp e .acq (e.n a) s (loadAcquire true d a e)

/-- LD.SC (R323). -/
def execLdSc (l : La) (d a : Reg) (s : State) : Host.Outcome State Fault Refusal := s.issue (.ldSc l d a) l.toNat (tryLdSc d a)

/-- An attempt of `ST.SC` (R323). -/
def tryStSc (a b : Reg) (e : Env) (s : State) : Att := scOp e .rel (e.n a) s fun s =>
  lsu e .rel s (fun _ s' => .done [] (s'.acquire e.core)) (s.atomic (s.who e.k) .rel (e.n a) fun _ => some (e.n b))

/-- ST.SC (R323). -/
def execStSc (a b : Reg) (s : State) : Host.Outcome State Fault Refusal := s.issue (.stSc a b) 0 (tryStSc a b)

/-! ### Fences (R314, R324) -/

/-- The end of a fence of package scope or wider (R282, R303): the write set is emptied, of its dies or of all, and the pts is at least one
above what it was at the fence's issue. The slices of the die replace their guest copies, so that every later read sees what writes before an
earlier fence have left at the homes (R314, R315, log 85). -/
def State.fenceEnd (s : State) (k p0 : Nat) (system : Bool) : State :=
  ((s.modCtx k fun c => { c with writes := c.writes.filter fun e => !system && decide (8 ≤ e.1 / 8) }).raisePts k ((p0 + 1) % 2 ^ 24)).refresh (coreOf k)

/-- The pts at a fence's issue, which it keeps while it waits. -/
def Env.issuePts (e : Env) (s : State) : Nat := match e.wait.map (·.aux) with
  | some [p] => p
  | _ => (s.ctx e.k).ltime

/-- A fence's wait for its tokens (R314, R282). -/
def fenceWait (e : Env) (s : State) (f : State → Nat → Att) : Att :=
  let p0 := e.issuePts s
  match s.released e.k with
  | (true, s') => f s' p0
  | (false, s') => .wait { how := .running, deadline := none, aux := [p0] } s'

/-- An attempt of `FENCE` (R314, R324): CONTEXT and CLUSTER wait for nothing that is not already performed; DIE is a release and an acquire;
PACKAGE and SYSTEM also end as `fenceEnd` says. -/
def tryFence (scope : Nat) (e : Env) (s : State) : Att :=
  if 4 < scope then illegal e s
  else if scope < 2 then .done [] s
  else fenceWait e s fun s p0 => .done [] ((if scope = 2 then s else s.fenceEnd e.k p0 (scope = 4)).acquire e.core)

/-- FENCE (R324). -/
def execFence (sc : Reg) (s : State) : Host.Outcome State Fault Refusal := s.issue (.fence sc) 0 (tryFence sc.toNat)

/-- Every dirty line that a die owns is written home (R315, R514). -/
def State.writeBackAll (s : State) (d : Nat) : State :=
  (((s.die d).owned.filter fun (x : Nat × Owned) => x.2.dirty).map (·.1)).foldl (fun s l => s.writeBack d l) s

/-- Every dirty line of context k's cluster reaches its slice, and every dirty line that its die owns its home, k being told with the writers (R315: those
that k has read are among them, log 87). -/
def State.scWriteBack (s : State) (k : Nat) : State :=
  let d := dieOf (coreOf k)
  let s := (List.range 16).foldl (fun s i => s.spillIf (coreOf k / 16 * 16 + i) fun _ _ => true) s
  (s.modDie d fun x => { x with owned := x.owned.map fun e =>
    if e.2.dirty && !e.2.writers.contains k then (e.1, { e.2 with writers := k :: e.2.writers }) else e }).writeBackAll d

/-- An attempt of `FENCE.SC` (R315): the owned lines of the die and the dirty lines of the cluster go home first, then the fence has a place in S. -/
def tryFenceSc (e : Env) (s : State) : Att :=
  match e.wait.map (·.aux) with
  | some [n, 2, p] => .done [] (((s.unqueue e.k n).fenceEnd e.k p false).acquire e.core)
  | some [n, 1, p] => .wait { how := .running, deadline := none, aux := scWaits n p } s
  | _ => fenceWait e (s.scWriteBack e.k) fun s p => s.announce e.k p

/-- FENCE.SC (R324). -/
def execFenceSc (s : State) : Host.Outcome State Fault Refusal := s.issue .fenceSc 0 tryFenceSc

/-! ### Events -/

/-- The die's notification window closes: every operation in it takes the stamp (R315). -/
def execScWindowClose (die : Nat) (s : State) : Host.Outcome State Fault Refusal :=
  let d := s.die die
  let fresh := d.scq.filter fun o => o.stamp.isNone
  let s := s.modDie die fun x =>
    { x with scWindow := x.scWindow + 1, scq := x.scq.map fun o => if o.stamp.isNone then { o with stamp := some (d.tclk, d.scWindow) } else o }
  .next (fresh.foldl (fun s o => s.post (.scCompletion o.ctx)) s)

/-- The Treut window of a stamp (R315). -/
def scWindowOf (stamp : Nat) : Nat := stamp / 65536 / 128

/-- The key of a stamped operation in S (R315): Treut window, die, die window, core, number in the core. -/
def ScOp.key (o : ScOp) : List Nat := match o.stamp with
  | some (t, w) => [scWindowOf t, dieOf (coreOf o.ctx), w, coreOf o.ctx, o.seq]
  | none => []

/-- The order of keys. -/
def keyLt : List Nat → List Nat → Bool
  | a :: as, b :: bs => decide (a < b) || (a == b && keyLt as bs)
  | _, _ => false

/-- The context's waiting SC operation learns that its turn has come. -/
def Ctx.scTurn (c : Ctx) (n : Nat) : Ctx :=
  { c with win := { c.win with outst := c.win.outst.map fun o => match o.res with
      | .pend i g w => match w.aux with
        | [m, 1, p] => if m = n then { o with res := .pend i g { w with aux := Machine.scTurn n p } } else o
        | _ => o
      | _ => o } }

/-- The SC operation of context k completes once its die's `TCLK` has passed its window by 12 ns and it is the first of the package in S
(R315). -/
def execScCompletion (k : Nat) (s : State) : Host.Outcome State Fault Refusal :=
  let d := dieOf (coreOf k)
  let stamped := ((List.range 8).flatMap fun d => (s.die d).scq).filter fun o => o.stamp.isSome
  match ((s.die d).scq.find? fun o => o.ctx == k && o.stamp.isSome) with
  | none => .next s
  | some o =>
    if stamped.any fun x => keyLt x.key o.key then .next (s.post (.scCompletion k))
    else
      let t := (o.stamp.map (·.1)).getD 0
      .next ((s.runTo d (((scWindowOf t + 1) * 128 + 12) * 65536)).modCtx k fun c => c.scTurn o.seq)

/-- The streams of write packets from one die to one destination (R281). -/
def streamsTo (dst : Nat) : List Nat := (List.range 8).map fun cls => dst * 8 + cls

/-- The home die returns the tokens of a die's write packets, or a package does (R281): how many of each class it has performed. A home that is not in D0
returns none. -/
def execTokenReturn (home src : Nat) (s : State) : Host.Outcome State Fault Refusal :=
  if home < 8 && (s.die home).power != .d0 then .next s
  else
    let sent := (s.die src).sent
    let s := s.modDie src fun x => { x with owing := x.owing.del home }
    let s := if home < 8 then s.modDie home fun x =>
        { x with seen := (streamsTo home).foldl (fun t n => if (sent.find n).isSome then t.put (src * 64 + n) (Tab.get 0 sent n) else t) x.seen } else s
    .next (s.post (.tokenArrival home src))

/-- A token arrives (R281, R282): the packets it covers count as performed, and their writers' pts rise to the wts it reports (R302). -/
def execTokenArrival (home src : Nat) (s : State) : Host.Outcome State Fault Refusal :=
  let d := s.die src
  let seen := fun (n : Nat) => if home < 8 then Tab.get 0 (s.die home).seen (src * 64 + n) else Tab.get 0 d.sent n
  let covered := fun (r : Report) => (streamsTo home).contains r.dst && serialGe 32 (seen r.dst) r.no
  let due := d.reports.filter covered
  let acked := (streamsTo home).foldl (fun t n =>
    let old := Tab.get 0 t n
    if serialGe 32 old (seen n) then t else t.put n (seen n)) d.acked
  let s := s.modDie src fun x => { x with acked := acked, reports := x.reports.filter fun r => !covered r }
  .next (due.foldl (fun s r => s.raisePts r.ctx r.wts) s)

end Sys2Proof.Machine
end

