-- ==== Sys2Proof/Machine/Task.lean ====
section
/-! DEFINITION. The TASK major (R232 to R246, R253 to R258): frames, the deque, spawning, ending and joining tasks, and donation. -/

namespace Sys2Proof.Machine

/-! ### Frames (R232 to R235) -/

/-- The fields of a frame snapshot (R232). -/
def frPC (f : Nat) : Nat := f % 2 ^ 64
def frArg (f : Nat) : Nat := f / 2 ^ 64 % 2 ^ 64
def frJoin (f : Nat) : Nat := f / 2 ^ 128 % 2 ^ 64
def frParent (f : Nat) : Nat := f / 2 ^ 192 % 2 ^ 64
def frTile (f i : Nat) : Nat := f / 2 ^ (256 + 64 * i) % 2 ^ 64

/-- The fields of a named-tile entry (R233). -/
def tileO (t : Nat) : Bool := bit t 63
def tileP (t : Nat) : Bool := bit t 62
def tileW (t : Nat) : Bool := bit t 61
def tileV (t : Nat) : Bool := bit t 60
def tileUnits (t : Nat) : Nat := bits t 59 50 + 1
def tileAddr (t : Nat) : Nat := bits t 49 0
def tileKind (t : Nat) : Nat := bits t 49 48
def tileOffset (t : Nat) : Nat := bits t 47 0 * 64

/-- The address that a tile entry stands for: translated, private scratch or cluster window (R234). -/
def tileVA (t : Nat) : Nat := match tileKind t with
  | 2 => 0xF0 * 2 ^ 56 + tileOffset t
  | 3 => 0xF1 * 2 ^ 56 + tileOffset t
  | _ => tileAddr t * 64

/-- The valid tiles of a frame. -/
def frTiles (f : Nat) : List Nat := ((List.range 4).map (frTile f)).filter tileV

/-- The footprint in 64-byte units (R239). -/
def footprint (f : Nat) : Nat := ((frTiles f).map tileUnits).foldl (· + ·) 0

/-- Cluster-bound (R235). -/
def clusterBound (at_ f : Nat) : Bool :=
  winTag at_ == 0xF1 || winTag (frJoin f) == 0xF1 || winTag (frParent f) == 0xF1 || (frTiles f).any fun t => tileKind t == 3

/-- The windows that hold frames and join counters (R232). -/
def frameWindow (va : Nat) : Bool := winTag va == 0 || winTag va == 0xF1

/-- The checks of `PUBF` on a snapshot, in order: the trap and its value (R242). -/
def frameFault (f : Nat) : Option (Nat × Nat) :=
  if frPC f % 2 = 1 then some (0x03, frPC f)
  else if frJoin f % 8 ≠ 0 then some (0x03, frJoin f)
  else if frParent f % 64 ≠ 0 then some (0x03, frParent f)
  else if !frameWindow (frJoin f) then some (0x04, frJoin f)
  else if frParent f ≠ 0 && !frameWindow (frParent f) then some (0x04, frParent f)
  else ((frTiles f).find? fun t => tileW t && tileO t).map fun t => (0x01, t)

/-! ### FRAME (R236) -/

/-- FRAME from its fields. -/
def mkFrame (addr : Nat) (d st pub : Bool) : Word := BitVec.ofNat 64 (addr / 64 * 64 + ofBool d * 4 + ofBool st * 2 + ofBool pub)

/-- Fields of FRAME. -/
def Ctx.frameAddr (c : Ctx) : Nat := c.frame.toNat / 64 * 64
def Ctx.frameD (c : Ctx) : Bool := bit c.frame.toNat 2
def Ctx.frameS (c : Ctx) : Bool := bit c.frame.toNat 1
def Ctx.framePub (c : Ctx) : Bool := bit c.frame.toNat 0

/-- A context publishes the frame at an address with its snapshot (R242). -/
def Ctx.publish (c : Ctx) (addr f : Nat) : Ctx :=
  { c with snap := f, frame := mkFrame addr (c.frameD && c.frameAddr == addr) (!c.isRoot && c.taskFrame == addr) true }

/-- An attempt of `PUBF` (R242). -/
def tryPubf (a : Reg) (e : Env) (s : State) : Att :=
  let addr := e.n a
  if s.isHandler e.k then illegal e s
  else if addr % 64 ≠ 0 then .trap false 0x03 addr s
  else if !frameWindow addr then .trap false 0x04 addr s
  else lsu e .load s (fun f s => match frameFault f with
    | some (code, val) => .trap true code val s
    | none => .done [] (s.modCtx e.k fun c => c.publish addr f)) (s.plainRead (s.who e.k) .load addr 64)

/-- PUBF (R242). -/
def execPubf (a : Reg) (s : State) : Host.Outcome State Fault Refusal := s.issue (.pubf a) 0 (tryPubf a)

/-! ### The deque and its ring (R238 to R241, R253, R254) -/

/-- The launch that a core runs. -/
def State.launchOf (s : State) (c : Nat) : Launch := s.launch (s.slotOf c)

/-- Entries in the hardware part: the youngest ones; the oldest `spilled` lie in the ring. -/
def Core.hardware (x : Core) : Nat := x.deque.length - x.spilled

/-- The codes of R239. -/
def DqState.code : DqState → Nat
  | .present => 1 | .claimed => 2 | .stolen => 3

/-- An entry in its 128-byte form (R239). -/
def DqEntry.image (e : DqEntry) : Nat :=
  e.snap % 2 ^ 512 + e.frame % 2 ^ 64 * 2 ^ 512 + e.resume.toNat * 2 ^ 576 +
    (coreOf e.owner % 4096 + e.owner % 8 * 2 ^ 12 + e.gen % 256 * 2 ^ 15) * 2 ^ 640 + e.foot % 2 ^ 32 * 2 ^ 672 + e.state.code * 2 ^ 704 +
    (ofBool e.bound + ofBool e.fS * 2 + ofBool e.fD * 4) * 2 ^ 712 + e.pts % 2 ^ 24 * 2 ^ 736

/-- An entry as its ring's bytes give it (R239); its state and its bar stay with the deque. -/
def DqEntry.ofImage (e : DqEntry) (n : Nat) : DqEntry :=
  let w := bits n 671 640
  { e with snap := bits n 511 0, frame := bits n 575 512, resume := BitVec.ofNat 64 (bits n 639 576), owner := bits w 11 0 * 8 + bits w 14 12, gen := bits w 22 15,
           foot := bits n 703 672, bound := bit n 712, fS := bit n 713, fD := bit n 714, pts := bits n 759 736 }

/-- The overflow engine as an accessor for core c (R253): the rings of a core lie in its launch's address space (log 34). -/
def State.overflow (s : State) (c : Nat) : Who := { k := c * 8, core := c, asid := (s.launchOf c).asid, sup := true, unit := true }

/-- The pts of the overflow engine: its die's H (log 34). -/
def State.overflowPts (s : State) (c : Nat) : Nat := (s.die (dieOf c)).home

/-- The place of entry i of core c's ring: oldest first (R254). -/
def State.ringAt (s : State) (c i : Nat) : Nat := (s.core c).ringBase + 128 * i

/-- Writes n entries of a deque, from the i-th on, to their places in its ring (R239, R253). -/
def State.ringWrite (s : State) (c i n : Nat) : MemRes :=
  let va := s.ringAt c i
  let p := s.overflowPts c
  let x := (((s.core c).deque.drop i).take n).foldr (fun e y => e.image + y * 2 ^ 1024) 0
  match s.engStop (s.overflow c) .engWrite va (128 * n) with
  | some r => r
  | none => let (s, t) := s.engWrite (s.overflow c) p (linesOf va (128 * n)) x p; .ok t s

/-- Reads n entries of a ring from the i-th on. -/
def State.ringRead (s : State) (c i n : Nat) : MemRes :=
  let va := s.ringAt c i
  match s.engStop (s.overflow c) .engRead va (128 * n) with
  | some r => r
  | none => let (x, s) := s.engRead (s.overflow c) (s.overflowPts c) (linesOf va (128 * n)); .ok x s

/-- What a fault held by a unit waits for where a ring of core c meets it. -/
def placeRing (c : Nat) : Nat := 8 + 16 * c

/-- What stops a spill or refill of core c's deque (R253): a page fault is posted, as one that the core's cluster streamer holds, and waited for; a
POISON line ends the launch (log 34). -/
def State.ringStop (s : State) (c : Nat) (write : Bool) : MemRes → State
  | .fault va cause level pte =>
    let (key, s) := s.unitFault (dieOf c) (32 + clusterOf c % 32) va (s.launchOf c).asid (if write then 5 else 4) (cause, level, pte) false (c * 8) 0 (placeRing c)
    s.modCore c fun x => { x with ringFault := some key }
  | .trap _ code _ s => s.failLaunch (s.slotOf c) code
  | _ => s

/-- Spills the n oldest hardware entries of a deque (R253). -/
def State.spillDeque (s : State) (c n : Nat) : State :=
  let x := s.core c
  if x.ringFault.isSome || n = 0 then s
  else match s.ringWrite c x.spilled n with
    | .ok _ s => s.modCore c fun x => { x with spilled := x.spilled + n }
    | r => s.ringStop c true r

/-- The hardware part is to be refilled: it holds 16 entries or fewer, and the ring is not empty (R254). -/
def Core.refills (x : Core) : Bool := decide (x.hardware ≤ 16) && x.spilled != 0 && x.ringFault.isNone

/-- Entries in hardware whose owners' occupancies have ended (R238): of a context that has become free, all that is left is STOLEN. -/
def State.dropEnded (s : State) (c : Nat) : State :=
  let ended := fun (e : DqEntry) => e.state == .stolen && ((s.ctx e.owner).state == .free || (s.ctx e.owner).gen != e.gen)
  s.modCore c fun x => { x with deque := x.deque.take x.spilled ++ (x.deque.drop x.spilled).filter fun e => !ended e }

/-- Refills the hardware part from the youngest entries of the ring, up to 32 (R254). -/
def State.refillDeque (s : State) (c : Nat) : State :=
  let x := s.core c
  if !x.refills then s
  else
    let n := min 32 x.spilled
    let i := x.spilled - n
    match s.ringRead c i n with
    | .ok v s =>
      let back := ((x.deque.drop i).take n).zipIdx.map fun e => e.1.ofImage (v / 2 ^ (1024 * e.2) % 2 ^ 1024)
      (s.modCore c fun x => { x with deque := x.deque.take i ++ back ++ x.deque.drop (i + n), spilled := i }).dropEnded c
    | r => s.ringStop c false r

/-- A refill of core c's deque can go on. -/
def State.refillsNow (s : State) (c : Nat) : Bool :=
  let x := s.core c
  x.refills && match s.ringRead c (x.spilled - min 32 x.spilled) (min 32 x.spilled) with
    | .stall => false
    | _ => true

/-- An entry of a core's deque changed, in its ring too where it lies there. -/
def State.modEntry (s : State) (v i : Nat) (f : DqEntry → DqEntry) : State :=
  let s := s.modCore v fun x => { x with deque := x.deque.modify i f }
  if i < (s.core v).spilled then (match s.ringWrite v i 1 with
    | .ok _ s => s
    | _ => s) else s

/-- The entry that a `SPAWN` of context k pushes. -/
def State.entryOf (s : State) (k : Nat) (resume : Word) : DqEntry :=
  let c := s.ctx k
  { snap := c.snap, frame := c.frameAddr, resume := resume, owner := k, gen := c.gen, foot := footprint c.snap, state := .present,
    bound := clusterBound c.frameAddr c.snap, fS := c.frameS, fD := c.frameD, pts := c.ltime, barred := 0 }

/-- A push by context k onto a deque with room (R243). -/
def State.push (s : State) (k : Nat) (resume : Word) : State :=
  s.modCore (coreOf k) fun x => { x with deque := x.deque ++ [s.entryOf k resume] }

/-- A deque whose hardware part is full spills its 32 oldest entries before a push (R253). -/
def State.makeRoom (s : State) (c : Nat) : State := if (s.core c).hardware < 64 then s else s.spillDeque c 32

/-- The spill that a push needs would breach the ring's quota (R253). -/
def Core.breaches (x : Core) : Bool := decide (64 ≤ x.hardware) && decide (x.ringQuota < x.spilled + 32)

/-- An attempt of `SPAWN` (R243). It waits while the spill that it needs meets a page fault (R253). -/
def trySpawn (a : Reg) (e : Env) (s : State) : Att :=
  let t := e.n a
  if s.isHandler e.k || !(s.ctx e.k).framePub then illegal e s
  else if t % 2 = 1 then .trap false 0x03 t s
  else releasing e s fun s =>
    if (s.core e.core).breaches then .trap false 0x0D e.bits s
    else
      let s := s.makeRoom e.core
      if (s.ctx e.k).state = .free then .switch s
      else if (s.core e.core).hardware < 64 then .done [] ((s.push e.k e.next).modCtx e.k fun c => { c with depth := c.depth + 1, pc := e.s a })
      else stalled s

/-- SPAWN (R243). -/
def execSpawn (a : Reg) (s : State) : Host.Outcome State Fault Refusal := s.issue (.spawn a) 0 (trySpawn a)

/-- The place in the deque of the youngest entry that context k owns. -/
def youngest (k gen : Nat) : Nat → List DqEntry → Option Nat
  | _, [] => none
  | i, e :: es => match youngest k gen (i + 1) es with
    | some j => some j
    | none => if e.owner = k && e.gen == gen then some i else none

/-- The deque without its i-th entry, one of the hardware part. -/
def Core.popAt (x : Core) (i : Nat) : Core := { x with deque := x.deque.take i ++ x.deque.drop (i + 1) }

/-- A window with its results discarded (R244). -/
def Win.discard (w : Win) : Win := { w with outst := w.outst.filter Outst.pending }

/-- What `TASKEND` does first (R244): open windows are discarded, and the hold mask is cleared. -/
def State.closeTask (s : State) (k : Nat) : State :=
  let held := (s.ctx k).hold != 0
  let s := s.modCtx k fun c => { c with hold := 0, win := c.win.discard, frozenT := c.frozenT.map Win.discard, frozenU := c.frozenU.map Win.discard }
  if held then s.post (.handlerStart (coreOf k)) else s

/-- Context k's youngest entry leaves the deque (R244). -/
def State.popEntry (s : State) (k i : Nat) : State :=
  (s.modCore (coreOf k) fun x => x.popAt i).modCtx k fun c => { c with depth := c.depth - 1 }

/-- The continuation of an entry resumes locally (R244). -/
def Ctx.resumeLocal (c : Ctx) (q : DqEntry) : Ctx :=
  { c with frame := mkFrame q.frame q.fD q.fS true, snap := q.snap, pc := q.resume, win := Win.reset, carried := 0 }

/-- A context's task has ended (R238, R244): it is free, what is left of its entries goes, and its core may look for work (R247). -/
def State.freeTaskCtx (s : State) (k : Nat) : State := ((s.modCtx k Ctx.freed).dropEnded (coreOf k)).post (.stealProbe (coreOf k))

/-- The decrement of a join counter by the ending task (R244): a fabric atomic, with the faults of R246. -/
def jdecThen (j : Nat) (e : Env) (s : State) (f : State → Att) : Att :=
  lsu e .atomic s (fun _ s => f s) (s.atomic (s.who e.k) .atomic j fun m => some ((m + (2 ^ 64 - 1)) % 2 ^ 64))

/-! ### Landed tiles (R244, R249, R250) -/

/-- Reads n bytes of a landing copy. -/
def Landed.bytes (t : Landed) (s : State) (c : Nat) : Nat := (s.core c).scratch.readN t.off t.size

/-- Writes one landed tile back to its source (R244): through the slices for a translated one, else at the pool of its owner. The value of a trap
over a tile in private scratch is its window-0xF0 address (log 94). -/
def State.writeTileBack (s : State) (k : Nat) (t : Landed) : MemRes :=
  let c := coreOf k
  let x := t.bytes s c
  match tileKind t.entry with
  | 2 =>
    let o := tileOffset t.entry
    if s.isService t.owner || s.scratchBytes t.owner < o + t.size then .trap true 0x0C (tileVA t.entry) s
    else .ok 0 (s.modCore t.owner fun y => { y with scratch := y.scratch.writeN o t.size x })
  | 3 =>
    if s.shareHasAll t.owner (tileOffset t.entry) t.size then .ok 0 (s.writeShare t.owner (tileOffset t.entry) t.size x)
    else .trap true 0x0C (tileVA t.entry) s
  | _ =>
    let w := s.who k
    let va := tileVA t.entry
    match s.engStop w .engWrite va t.size with
    | some r => r
    | none =>
      let (s, p) := s.engWrite w (s.ctx k).ltime (linesOf va t.size) x (s.ctx k).ltime
      .ok 0 (s.raisePts k p)

/-- How far a waiting `TASKEND` has come: the tile that it writes back, the read of the parent's counter, the decrement of a counter. -/
def taskendTile (i : Nat) : List Nat := [1, i]
def taskendParent : List Nat := [2]
def taskendCount (j : Nat) : List Nat := [3, j]

/-- The decrement at a join counter, and then the context's end (R244). -/
def lastDecrement (j : Nat) (e : Env) (s : State) : Att := (jdecThen j e s fun s => .switch (s.freeTaskCtx e.k)).keeps (taskendCount j)

/-- The join counter of the parent is read and decremented (R244). -/
def parentDecrement (e : Env) (s : State) : Att :=
  (lsu e .load s (fun j s => lastDecrement j e s) (s.plainRead (s.who e.k) .load (frParent (s.ctx e.k).taskSnap + 16) 8)).keeps
    taskendParent

/-- The end of a task at depth 0 once its tiles are written back (R244): landing space, shared copies and pins are released, and the parent's counter is
decremented, or the launch ends. Pins are registered under `1024 + context`. -/
def endTask (unpin : Nat → State → State) (e : Env) (s : State) : Att :=
  let s := unpin e.k (s.modCtx e.k fun c => { c with landed := [] })
  if frParent (s.ctx e.k).taskSnap = 0 then .switch ((s.freeTaskCtx e.k).finishLaunch (s.slotOf e.core) 0) else parentDecrement e s

/-- Writes the W tiles back in order from the i-th on, and ends the task. -/
def writeTiles (unpin : Nat → State → State) (e : Env) : Nat → List Landed → State → Att
  | _, [], s => endTask unpin e s
  | i, t :: ts, s =>
    if t.size ≠ 0 && tileW t.entry then
      match s.writeTileBack e.k t with
      | .ok _ s => writeTiles unpin e (i + 1) ts s
      | r => (lsu e .store s (fun _ s => stalled s) r).keeps (taskendTile i)
    else writeTiles unpin e (i + 1) ts s

/-- `TASKEND` at a depth above 0 (R244): the context's youngest entry is popped, and waited for while it is CLAIMED or lies in the ring. A context
without an entry becomes free (log 92). -/
def popTask (e : Env) (s : State) : Att :=
  match youngest e.k (s.ctx e.k).gen 0 (s.core e.core).deque with
  | none => .switch (s.freeTaskCtx e.k)
  | some i => match (s.core e.core).deque[i]? with
    | none => stalled s
    | some q =>
      if i < (s.core e.core).spilled then stalled (if (s.core e.core).refills then s.post (.overflowRefill e.core 0) else s)
      else match q.state with
        | .claimed => stalled s
        | .present => .switch ((s.popEntry e.k i).modCtx e.k fun c => c.resumeLocal q)
        | .stolen => lastDecrement (frJoin q.snap) e (s.popEntry e.k i)

/-- An attempt of `TASKEND` (R244), from where an earlier one has come to. -/
def tryTaskend (unpin : Nat → State → State) (e : Env) (s : State) : Att :=
  match e.wait.map (·.aux) with
  | some [_, 1, i] => writeTiles unpin e i ((s.ctx e.k).landed.drop i) s
  | some [_, 2] => parentDecrement e s
  | some [_, 3, j] => lastDecrement j e s
  | _ =>
    if s.isHandler e.k then illegal e s
    else releasing e s fun s =>
      let s := s.closeTask e.k
      if 0 < (s.ctx e.k).depth then popTask e s else writeTiles unpin e 0 (s.ctx e.k).landed s

/-! ### Joining (R245, R246, R252) -/

/-- A unit that holds watches, and where the counter lies for it (R252): the home slice of a translated counter, with its physical address, or the bank
of the core that holds one in the cluster window. -/
def State.watchAt (s : State) (w : Who) (va : Nat) : Option (Nat × Nat) :=
  if winTag va = 0 then match s.xlate w .load va 8 with
    | .ok pa pte => if s.local_ pa then some (homeDie pa * 32 + sliceHash (keyOf w.asid pte) va, pa) else none
    | _ => none
  else some (256 + w.core / 16 * 16 + (shareAt (winOff va)).1, va)

/-- What a parked `SYNC` keeps: its watch, that it reads its counter every 256 ns, or that it has been woken (R252). -/
def syncWatch (u at_ : Nat) : List Nat := [0, 1, u, at_]
def syncPolls : List Nat := [0, 2]
def syncWoken : List Nat := [0, 3]

/-- The watch of a parked `SYNC`. -/
def Outst.watch (o : Outst) : Option (Nat × Nat) := match o.res with
  | .pend .sync _ { aux := [0, 1, u, at_], .. } => some (u, at_)
  | _ => none

/-- The watch of a context. -/
def Ctx.watch (c : Ctx) : Option (Nat × Nat) := c.win.outst.findSome? Outst.watch

/-- The watches that a unit holds: 64 at most (R252). -/
def State.watchesAt (s : State) (u : Nat) : Nat := (s.ctxs.filter fun e => (e.2.watch.map (·.1)) == some u).length

/-- The counter that context k watches has become 0 at its home (R252). -/
def State.wakes (s : State) (k : Nat) (c : Ctx) : Bool := match c.watch with
  | some (_, at_) => (if winTag at_ = 0 then s.mem.readN at_ 8 else s.readScratch (coreOf k) at_ 8) == 0
  | none => false

/-- The counter is not 0: the `SYNC` parks with a watch, or where its home has none free until it reads again after 256 ns (R252). -/
def parkSync (e : Env) (c : Nat) (s : State) : Att :=
  match s.watchAt (s.who e.k) c with
  | some (u, at_) => if s.watchesAt u < 64 then parked none (syncWatch u at_) s else parked (s.deadline e.die 256) syncPolls s
  | none => parked (s.deadline e.die 256) syncPolls s

/-- `SYNC` reads its counter (R245): at 0 it completes, an acquire. -/
def readSync (e : Env) (s : State) : Att :=
  let c := frJoin (s.ctx e.k).snap
  match s.atomicChecks e.core c with
  | some code => .trap true code c s
  | none => lsu e .load s (fun v s =>
      if v = 0 then .done [] ((s.modCtx e.k fun c => { c with frame := c.frame &&& ~~~4 }).acquire e.core) else parkSync e c s)
      (s.acquireRead (s.who e.k) c true)

/-- An attempt of `SYNC` (R245): a parked one waits for its wake-up or its time (R252). -/
def trySync (e : Env) (s : State) : Att :=
  match e.wait with
  | some { deadline := t, aux := [0, 1, u, at_], .. } => parked t (syncWatch u at_) s
  | some { deadline := t, aux := [0, 2], .. } => if s.passed e.die t then readSync e s else parked t syncPolls s
  | _ =>
    let c := s.ctx e.k
    if s.isHandler e.k then illegal e s
    else if c.framePub && (c.frameS || c.frameD) then readSync e s
    else .done [] (s.acquire e.core)

/-- SYNC (R245). -/
def execSync (s : State) : Host.Outcome State Fault Refusal := s.issue .sync 0 trySync

/-- An attempt of `JINIT` (R246). -/
def tryJinit (a b : Reg) (e : Env) (s : State) : Att :=
  let ea := e.n a
  match s.atomicChecks e.core ea with
  | some code => .trap false code ea s
  | none => releasing e s fun s => lsu e .atomic s (fun _ s' => .done [] s') (s.atomic (s.who e.k) .atomic ea fun _ => some (e.n b))

/-- JINIT (R246). -/
def execJinit (a b : Reg) (s : State) : Host.Outcome State Fault Refusal := s.issue (.jinit a b) 0 (tryJinit a b)

/-- An attempt of `JDEC` (R246, R308). -/
def tryJdec (d a : Reg) (e : Env) (s : State) : Att :=
  let ea := e.n a
  match s.atomicChecks e.core ea with
  | some code => .trap false code ea s
  | none => releasing e s fun s =>
    lsu e .atomic s (fun m s' => .done [.s d (BitVec.ofNat 64 m - 1)] (s'.acquire e.core))
      (s.atomic (s.who e.k) .atomic ea fun m => some (BitVec.ofNat 64 m - 1).toNat)

/-- JDEC (R246). -/
def execJdec (d a : Reg) (s : State) : Host.Outcome State Fault Refusal := s.issue (.jdec d a) 0 (tryJdec d a)

/-! ### Donation (R257, R258) -/

/-- The first address of a frame that a donation may not name (R257). -/
def donationFault (f : Nat) : Option Nat :=
  let scratch := fun va => winTag va == 0xF0 || winTag va == 0xF1 || winTag va == 0xF2
  if scratch (frJoin f) then some (frJoin f)
  else if scratch (frParent f) then some (frParent f)
  else ((frTiles f).find? fun t => tileKind t == 2 || tileKind t == 3).map tileVA

/-- The entry that a donation sends (R258). -/
def State.donated (s : State) (k at_ f : Nat) : DqEntry :=
  { snap := f, frame := at_, resume := 0, owner := k, gen := (s.ctx k).gen, foot := footprint f, state := .present, bound := false,
    fS := false, fD := false, pts := (s.ctx k).ltime, barred := 0 }

/-- What a waiting `DONATE` keeps once its entry is sent: the counter that it has raised, or 0, and the frame's parent. -/
def donateSent (j parent : Nat) : List Nat := [1, j, parent]

/-- What a `DONATE` keeps while the addition that it takes back waits: the counter, and the status. -/
def donateBack (j st : Nat) : List Nat := [2, j, st]

/-- Sends the entry to its queue, and waits for the status (R258). -/
def donateSend (q pkg at_ f j : Nat) (e : Env) (s : State) : Att :=
  .wait { how := .running, deadline := none, aux := donateSent j (frParent f) }
    (({ s with offers := s.offers ++ [{ queue := q, entry := s.donated e.k at_ f, ctx := e.k, pkg := pkg, status := none }] } : State).post
      (.donationEntry q))

/-- The status has come: ACCEPTED may set `FRAME.D`; any other takes the addition back (R258). -/
def donateEnd (d : Reg) (j parent st : Nat) (e : Env) (s : State) : Att :=
  let gone := fun (s : State) => { s with offers := s.offers.filter fun o => o.ctx != e.k }
  let ws := [Wr.s d (BitVec.ofNat 64 st)]
  if st = 0 then
    .done ws (gone (if parent ≠ 0 && parent == (s.ctx e.k).frameAddr then s.modCtx e.k fun c => { c with frame := c.frame ||| 4 } else s))
  else if parent = 0 then .done ws (gone s)
  else (jdecThen j e s fun s => .done ws (gone s)).keeps (donateBack j st)

/-- An attempt of `DONATE` (R257, R258). -/
def tryDonate (d a b : Reg) (e : Env) (s : State) : Att :=
  match e.wait.map (·.aux) with
  | some [1, j, parent] =>
    match (s.offers.find? fun o => o.ctx == e.k).bind (·.status) with
    | some st => donateEnd d j parent st e s
    | none => .wait { how := .running, deadline := none, aux := donateSent j parent } s
  | some [_, 2, j, st] => donateEnd d j 1 st e s
  | _ =>
    let at_ := e.n a
    let w := e.n b
    if bits w 63 16 != 0 || bits w 7 4 != 0 then .trap false 0x01 w s
    else if at_ % 64 ≠ 0 then .trap false 0x03 at_ s
    else if winTag at_ == 0xF0 || winTag at_ == 0xF1 || winTag at_ == 0xF2 then .trap false 0x0E at_ s
    else if e.halted s then stalled s
    else lsu e .load s (fun f s =>
      match donationFault f with
      | some va => .trap true 0x0E va s
      | none => releasing e s fun s =>
        let send := donateSend (bits w 3 0) (bits w 15 8) at_ f
        if frParent f = 0 then send 0 e s
        else lsu e .load s (fun j s =>
          lsu e .atomic s (fun _ s => send j e s) (s.atomic (s.who e.k) .atomic j fun m => some ((m + 1) % 2 ^ 64)))
          (s.plainRead (s.who e.k) .load (frParent f + 16) 8)) (s.plainRead (s.who e.k) .load at_ 64)

/-- DONATE (R257). -/
def execDonate (d a b : Reg) (s : State) : Host.Outcome State Fault Refusal := s.issue (.donate d a b) 0 (tryDonate d a b)

/-- The link by which a die's packets leave for another package has a previous-generation peer (R493, R494). -/
def State.oldPeer (s : State) (d pkg : Nat) : Bool := (s.linkFor d pkg).any fun l => s.pkg.oldPeers.contains l.1

/-- The die of a donation queue, which R257 calls its target die and no rule names (log 93), is in D2 or D3. -/
def State.queueAsleep (s : State) (q : Nat) : Bool := ((List.range 8).filter s.deaf).contains (Config.queueDie q % 8)

/-- The status of an entry that reaches a donation queue (R257): one of another package is a free value where there is a route. -/
def State.offerStatus (s : State) (o : Offer) : Nat × State :=
  if o.pkg ≠ s.pkg.number then
    if s.routed o.pkg && !s.oldPeer (dieOf (coreOf o.ctx)) o.pkg then let (w, s) := s.free; (w.toNat % 4, s) else (3, s)
  else
    let q := Tab.get DonQueue.reset s.donq o.queue
    if s.queueAsleep o.queue then (3, s) else if q.slot.isNone then (2, s) else if 64 + q.quota ≤ q.entries.length then (1, s) else (0, s)

/-- Gives the status to the first unanswered offer of a list that goes to a queue. -/
def answerOffer (q st : Nat) : List Offer → List Offer
  | [] => []
  | o :: os => if o.queue = q && o.status.isNone then { o with status := some st } :: os else o :: answerOffer q st os

/-- DONATION_ENTRY (R258): an entry reaches queue q. -/
def execDonationEntry (q : Nat) (s : State) : Host.Outcome State Fault Refusal :=
  match s.offers.find? fun o => o.queue == q && o.status.isNone with
  | none => .next s
  | some o =>
    let (st, s) := s.offerStatus o
    let s := { s with offers := answerOffer q st s.offers }
    if st = 0 && o.pkg == s.pkg.number then
      let x := Tab.get DonQueue.reset s.donq q
      .next { s with donq := s.donq.put q { x with entries := x.entries ++ [o.entry] } }
    else .next s

/-! ### Overflow (R253, R254) -/

/-- OVERFLOW_SPILL (R253): a deque spills its oldest entries when it is full; a message spills as it arrives (R208). -/
def execOverflowSpill (core kind : Nat) (s : State) : Host.Outcome State Fault Refusal :=
  if kind = 0 && !(s.core core).breaches then .next (s.makeRoom core) else .next s

/-- OVERFLOW_REFILL (R254, R209): kind 0 refills the deque, any other the receive store. -/
def execOverflowRefill (core kind : Nat) (s : State) : Host.Outcome State Fault Refusal :=
  if kind = 0 then .next (s.refillDeque core) else .next (s.modCore core Core.refilled)

end Sys2Proof.Machine
end

