-- ==== Sys2Proof/Machine/Bar.lean ====
section
/-! DEFINITION. The halyard major (R261 to R273): teams, named barriers with their renegotiating release (R129 to R131), and `GEOSUB`. -/

namespace Sys2Proof.Machine

/-! ### Barriers (R267 to R270) -/

/-- What a barrier of core c's team expects: an arrival for each member and each of PER + 1 (R266). -/
def State.expect (s : State) (c : Nat) : Nat := (s.team c).length * (geomPer (s.core c).geom + 1)

/-- The key of barrier b of core c's team in its cluster. -/
def State.barKey (s : State) (c b : Nat) : Nat := s.teamId c * 64 + b

/-- Barrier b of core c's team. -/
def State.barrier (s : State) (c b : Nat) : Barrier :=
  Tab.get (Barrier.reset (s.expect c)) (s.cluster (clusterOf c)).barriers (s.barKey c b)

/-- The state with a barrier replaced. -/
def State.setBarrier (s : State) (c b : Nat) (x : Barrier) : State :=
  s.modCluster (clusterOf c) fun y => { y with barriers := y.barriers.put (s.barKey c b) x }

/-- A phase completes (R267). -/
def Barrier.complete (x : Barrier) : Barrier :=
  { x with phase := (x.phase + 1) % 2 ^ 16, arrived := 0, phasePts := some x.pts, words := [], releasing := false }

/-- The arrival record of a barrier: ARR and LASTPH (R268). -/
def Ctx.arrived (c : Ctx) (b : Nat) : Bool := bit (Tab.get 0 c.arr b) 16
def Ctx.lastPhase (c : Ctx) (b : Nat) : Nat := Tab.get 0 c.arr b % 2 ^ 16

/-- The contexts of the members of core c's team. -/
def State.teamCtxs (s : State) (c : Nat) : List Nat := (s.team c).flatMap fun i => contextsOf (c / 16 * 16 + i)

/-- The phase of barrier b completes (R267); what waits for it takes note of its greatest pts (R269). -/
def State.completeBar (s : State) (c b : Nat) : State :=
  let x := s.barrier c b
  let s := s.setBarrier c b x.complete
  (s.teamCtxs c).foldl (fun s k => if (s.ctx k).arrived b && (s.ctx k).lastPhase b == x.phase then
    s.modCtx k fun y => { y with arrPts := y.arrPts.put b x.pts } else s) s

/-- A barrier whose arrivals have reached its number: the phase completes, or its release begins where it is a renegotiating one (R270). -/
def State.checkBarrier (s : State) (c b : Nat) : State :=
  let x := s.barrier c b
  if x.arrived < x.expect || x.releasing then s
  else if x.words.isEmpty then s.completeBar c b
  else (s.setBarrier c b { x with releasing := true }).post (.barxRelease (clusterOf c) (s.teamId c) b)

/-- Context k arrives at barrier b with its pts, and with a word where it is a `BARX` (R267, R269). -/
def State.arriveBar (s : State) (k b : Nat) (word : Option Nat) : State :=
  let c := coreOf k
  let x := s.barrier c b
  let p := (s.ctx k).ltime
  let x' := { x with arrived := x.arrived + 1, pts := if x.arrived = 0 then p else serialMax 24 x.pts p,
                     words := match word with
                       | some w => x.words ++ [(c, k, w)]
                       | none => x.words }
  ((s.setBarrier c b x').modCtx k fun y => { y with arr := y.arr.put b (2 ^ 16 + x.phase), arrPts := y.arrPts.del b }).checkBarrier c b

/-- A completion that context k observes: an acquire, with the greatest pts of the phase that it arrived in, or of the last one where it has not
arrived (R269). -/
def State.observe (s : State) (k b : Nat) : State :=
  let s := s.acquire (coreOf k)
  match ((s.ctx k).arrPts.find b).or (s.barrier (coreOf k) b).phasePts with
  | some p => (s.modCtx k fun y => { y with arrPts := y.arrPts.del b }).raisePts k p
  | none => s

/-- The barrier number N (R269). -/
def barN (n : BitVec 5) (m : BitVec 1) : Nat := n.toNat + 32 * m.toNat

/-- An attempt of `BARA`; a release under way on the barrier is waited for. -/
def tryBara (d : Reg) (b : Nat) (e : Env) (s : State) : Att :=
  let x := s.barrier e.core b
  if x.releasing then stalled s
  else releasing e s fun s => .done [.s d (BitVec.ofNat 64 x.phase)] (s.arriveBar e.k b none)

/-- BARA (R269). -/
def execBara (d : Reg) (n : BitVec 5) (m : BitVec 1) (s : State) : Host.Outcome State Fault Refusal :=
  s.issue (.bara d n m) 0 (tryBara d (barN n m))

/-- The wait of `BARW` and `BARX` for the phase of the context's arrival (R269). -/
def awaitPhase (aux : List Nat) (b : Nat) (e : Env) (s : State) (f : Nat → State → Att) : Att :=
  let c := s.ctx e.k
  let phase := (s.barrier e.core b).phase
  if c.arrived b && phase == c.lastPhase b then parked none aux s
  else f phase ((s.modCtx e.k fun y => { y with arr := y.arr.put b (Tab.get 0 y.arr b % 2 ^ 16) }).observe e.k b)

/-- An attempt of `BARW`. -/
def tryBarw (d : Reg) (b : Nat) (e : Env) (s : State) : Att :=
  awaitPhase [] b e s fun phase s => .done [.s d (BitVec.ofNat 64 phase)] s

/-- BARW (R269). -/
def execBarw (d : Reg) (n : BitVec 5) (m : BitVec 1) (s : State) : Host.Outcome State Fault Refusal :=
  s.issue (.barw d n m) 0 (tryBarw d (barN n m))

/-- The value with which a context's `BARX` is to trap (R129). -/
def Barrier.failure (x : Barrier) (k : Nat) : Option Nat := (x.failed.find? fun e => e.1 == k).map (·.2)

/-- An attempt of `BARX` (R269, R270): it arrives once with its word, and then waits. -/
def tryBarx (d : Reg) (b : Nat) (e : Env) (s : State) : Att :=
  let x := s.barrier e.core b
  let wait := fun (s : State) => awaitPhase [1] b e s fun _ s => .done [] s
  if s.isHandler e.k then illegal e s
  else if (e.wait.map (·.aux)) = some [1] then
    match x.failure e.k with
    | some v => .trap true 0x0F v (s.setBarrier e.core b { x with failed := x.failed.filter fun y => y.1 != e.k })
    | none => wait s
  else if x.releasing then stalled s
  else releasing e s fun s => wait (s.arriveBar e.k b (some (e.n d % 2 ^ 32)))

/-- BARX (R269): D is a source, the new word. -/
def execBarx (d : Reg) (n : BitVec 5) (m : BitVec 1) (s : State) : Host.Outcome State Fault Refusal :=
  s.issue (.barx d n m) 0 (tryBarx d (barN n m))

/-! ### The renegotiated release (R129 to R131, R270) -/

/-- The new word of a member: that of its last `BARX` arrival of the phase, or its own (R270). A service core keeps its word until its die's next
reset (R121). -/
def State.newWord (s : State) (x : Barrier) (c : Nat) : Nat :=
  match if s.isService c then none else (x.words.filter fun w => w.1 == c).getLast? with
  | some w => w.2.2
  | none => (s.core c).pword

/-- Context i of a core is backed and in which set: 0 unbacked, 1 task, 2 handler (R112). -/
def setOf (w i : Nat) : Nat := if i < pwTasks w then 1 else if i < pwBacked w then 2 else 0

/-- Every context that a new word unbacks or moves between the sets is free (R129). -/
def State.mayTake (s : State) (c w : Nat) : Bool :=
  (List.range 8).all fun i =>
    let was := setOf (s.core c).pword i
    was == 0 || was == setOf w i || (s.ctx (c * 8 + i)).state == .free

/-- The word that the first violated row of R129 names, or none where the release may proceed. -/
def State.wordFault (s : State) (x : Barrier) (members : List Nat) : Option Nat :=
  let word := s.newWord x
  match members.find? fun c => !pwValid (word c) with
  | some c => some (word c)
  | none =>
    match members.find? fun c => pwShared (word c) != pwShared (word (members.headD 0)) with
    | some c => some (word c)
    | none => (members.find? fun c => !s.mayTake c (word c)).map word

/-- A virtual address lies in the private scratch of a member or in the cluster's window, for an access of core c. -/
def touchesPool (members : List Nat) (cl c va : Nat) : Bool :=
  match winTag va with
  | 0xF0 => members.contains c
  | 0xF1 => clusterOf c == cl
  | 0xF2 => members.contains (bits va 55 44)
  | _ => false

/-- The destination of core c's transfer lies in a member's scratch or the cluster's window: that of a multicast in the scratch of every masked core
(R342). -/
def Xfer.writesPool (y : Xfer) (members : List Nat) (cl c : Nat) : Bool :=
  if y.op = .copym then clusterOf c == cl && members.any fun i => bit y.mask (i % 16) else touchesPool members cl c y.dst

/-- The fetch of a tile by core c writes a member's scratch, or reads it or the cluster's window (R249). -/
def Landed.inPool (t : Landed) (members : List Nat) (cl c : Nat) : Bool :=
  t.size != 0 && (members.contains c || (match tileKind t.entry with
    | 2 => members.contains t.owner
    | 3 => clusterOf c == cl
    | _ => false))

/-- An engine operation or a fetch of tiles in flight touches a member's scratch or the cluster's window (R130, log 95). -/
def State.poolBusy (s : State) (members : List Nat) (cl : Nat) : Bool :=
  s.cores.any fun (e : Nat × Core) =>
    (e.2.xfers.any fun y => touchesPool members cl e.1 y.2.src || y.2.writesPool members cl e.1 || touchesPool members cl e.1 y.2.list) ||
      e.2.claims.any fun x => x.tiles.any fun t => t.inPool members cl e.1

/-- Accumulator tiles and their dirty bits below a number are kept (R130). -/
def keepTiles (x : Core) (n : Nat) : Core := { x with tiles := x.tiles.filter fun e => decide (e.1 < n), dirty := x.dirty % 2 ^ n }

/-- A member takes its new word, its pool as the table of R130 says. -/
def State.applyWord (s : State) (c w : Nat) : State :=
  let old := (s.core c).pword
  let s := if pwL1 old = pwL1 w then s else s.spillIf c fun _ _ => true
  let s := (List.range 8).foldl (fun s i =>
    if pwBacked old ≤ i ∧ i < pwBacked w then s.modCtx (c * 8 + i) fun y => { y.freed with gen := (y.gen + 1) % 256 } else s) s
  s.modCore c fun x => { keepTiles x (min (pwAcc old) (pwAcc w)) with
    pword := w, l1 := if pwL1 old = pwL1 w then x.l1 else [], share := if pwShared old = pwShared w then x.share else [],
    scratch := x.scratch.filter fun e => decide (e.1 < min (scratchSize old) (scratchSize w)) }

/-- PER of the team after its members have taken their words, and the numbers its barriers expect (R270). -/
def State.rePer (s : State) (members : List Nat) : State :=
  let t := (members.map fun c => pwTasks (s.core c).pword).foldl min 8
  let s := members.foldl (fun s c => s.modCore c fun x => { x with geom := setBits x.geom 18 3 (min (geomPer x.geom + 1) t - 1) }) s
  match members with
  | [] => s
  | c :: _ =>
    let n := s.expect c
    let id := s.teamId c
    let s := s.modCluster (clusterOf c) fun y =>
      { y with barriers := y.barriers.map fun e => if e.1 / 64 = id then (e.1, { e.2 with expect := n }) else e }
    (List.range 64).foldl (fun s b => if (s.barrier c b).arrived = 0 then s else s.checkBarrier c b) s

/-- BARX_RELEASE (R129 to R131, R403): the phase completes, with the words of all members or of none. -/
def execBarxRelease (cluster team b : Nat) (s : State) : Host.Outcome State Fault Refusal :=
  let c := cluster * 16 + team
  let x := s.barrier c b
  let members := (s.team c).map (· + cluster * 16)
  if !x.releasing || s.teamId c != team then .next s
  else match s.wordFault x members with
    | some v =>
    let s := s.completeBar c b
    .next (s.setBarrier c b { s.barrier c b with failed := x.failed ++ x.words.map fun w => (w.2.1, v) })
    | none =>
      if s.poolBusy members cluster || members.any (fun c => !(s.core c).queue.isEmpty || !(s.core c).storing.isEmpty) then .next (s.post (.barxRelease cluster team b))
      else
        let s := members.foldl (fun y c => y.applyWord c (s.newWord x c)) (s.completeBar c b)
        .next (members.foldl (fun s c => (s.post (.handlerStart c)).post (.stealProbe c)) (s.rePer members))

/-! ### Teams (R264 to R266) -/

/-- The checks of R264 on a proposal. -/
def badTeamWord (p : Nat) : Bool :=
  let rows := geomRows p
  let cols := geomCols p
  bits p 63 37 != 0 || bits p 7 0 != 0 || rows == 0 || decide (16 < rows) || cols == 0 || decide (16 < cols) || rows * cols != popcount 16 (geomMask p)

/-- The pending proposal of a core of a cluster. -/
def State.proposalOf (s : State) (cl i : Nat) : Option Proposal := (s.core (cl * 16 + i)).proposal

/-- The cores, as a mask, that must act together with those of a mask: their teams and what they propose. -/
def State.teamStep (s : State) (cl m : Nat) : Nat :=
  (List.range 16).foldl (fun x i =>
    if bit m i then x ||| geomMask (s.core (cl * 16 + i)).geom ||| (match s.proposalOf cl i with
      | some p => geomMask p.word
      | none => 0)
    else x) m

/-- The smallest set closed under teams and proposals that holds a core. -/
def State.teamSet (s : State) (cl : Nat) : Nat → Nat → Nat
  | 0, m => m
  | n + 1, m => s.teamSet cl n (s.teamStep cl m)

/-- Every core of the set proposes, and all cores of each proposed mask the same word (R265). -/
def State.agreed (s : State) (cl m : Nat) : Bool :=
  (List.range 16).all fun i => !bit m i || (match s.proposalOf cl i with
    | some p => (List.range 16).all fun j => !bit (geomMask p.word) j || (s.proposalOf cl j).map (·.word) == some p.word
    | none => false)

/-- A context is parked at a barrier. -/
def Ctx.atBarrier (c : Ctx) : Bool := c.win.outst.any fun o => match o.res with
  | .pend (.barw ..) _ w => w.how == .parked
  | .pend (.barx ..) _ w => w.how == .parked
  | _ => false

/-- A barrier of the set's teams is not idle (R265). -/
def State.teamsBusy (s : State) (cl m : Nat) : Bool :=
  ((s.cluster cl).barriers.any fun e => bit m (e.1 / 64) && (e.2.arrived != 0 || e.2.releasing)) ||
    (List.range 128).any fun j => bit m (j / 8) && (s.ctx (cl * 128 + j)).atBarrier

/-- GEOM of a member after the change (R263, R266). -/
def newGeom (old word i : Nat) : Nat :=
  let cols := geomCols word
  let rank := popcount i (geomMask word)
  old / 2 ^ 37 * 2 ^ 37 + geomMask word * 2 ^ 21 + geomPer word * 2 ^ 18 + cols * 2 ^ 13 + geomRows word * 2 ^ 8 +
    rank % cols * 2 ^ 4 + rank / cols

/-- The set's cores change team at one instant (R266). -/
def State.formTeams (s : State) (cl m : Nat) : State :=
  let cores := (List.range 16).filter fun i => bit m i
  let s := cores.foldl (fun s i => match s.proposalOf cl i with
    | some p => s.modCore (cl * 16 + i) fun x => { x with geom := newGeom x.geom p.word i }
    | none => s) s
  let s := s.modCluster cl fun y => { y with barriers := y.barriers.filter fun e => !bit m (e.1 / 64) }
  cores.foldl (fun s i => (contextsOf (cl * 16 + i)).foldl (fun s k => s.modCtx k fun c => { c with arr := [], arrPts := [] }) s) s

/-- What a waiting `TEAM` keeps: its proposal stands, or has ended with an outcome. -/
def teamWaits : List Nat := [1]
def teamEnded (o : Nat) : List Nat := [2, o]

/-- The waiting `TEAM` of a context learns its outcome. -/
def Ctx.teamOutcome (c : Ctx) (o : Nat) : Ctx :=
  { c with win := { c.win with outst := c.win.outst.map fun x => match x.res with
      | .pend (.team d a b) g w => { x with res := .pend (.team d a b) g { w with aux := teamEnded o } }
      | _ => x } }

/-- The proposals of the cores of a mask end with an outcome. -/
def State.endProposals (s : State) (cl m o : Nat) : State :=
  ((List.range 16).filter fun i => bit m i).foldl (fun s i => match s.proposalOf cl i with
    | some p => (s.modCore (cl * 16 + i) fun x => { x with proposal := none }).modCtx p.ctx fun c => c.teamOutcome o
    | none => s) s

/-- The cores whose proposals name a common core with core i's, with another word (R265). -/
def State.clashes (s : State) (cl i : Nat) : Nat :=
  match s.proposalOf cl i with
  | none => 0
  | some p => (List.range 16).foldl (fun m j => match s.proposalOf cl j with
      | some q => if q.word != p.word && (geomMask q.word &&& geomMask p.word) != 0 then m + 2 ^ j else m
      | none => m) 0

/-- The greatest pts of the proposals of a set. -/
def State.teamPts (s : State) (cl m p0 : Nat) : Nat :=
  (List.range 16).foldl (fun p i => if bit m i then (match s.proposalOf cl i with
    | some q => serialMax 24 p q.pts
    | none => p) else p) p0

/-- The proposers' pts rise to the greatest of the set (R266, R269). -/
def State.raiseTeam (s : State) (cl m p : Nat) : State :=
  (List.range 16).foldl (fun s i => if bit m i then (match s.proposalOf cl i with
    | some q => s.raisePts q.ctx p
    | none => s) else s) s

/-- The barrier unit acts on the proposals after core i of cluster cl has proposed (R265): the outcome for that core, if there is one. -/
def State.actTeam (s : State) (cl i : Nat) : Option Nat × State :=
  let m := s.teamSet cl 16 (2 ^ i)
  if s.agreed cl m then
    if s.teamsBusy cl m then (some 2, s.endProposals cl m 2)
    else (some 1, ((s.formTeams cl m).raiseTeam cl m (s.teamPts cl m ((s.proposalOf cl i).map (·.pts) |>.getD 0))).endProposals cl m 1)
  else
    let x := s.clashes cl i
    if x = 0 then (none, s) else (some 3, s.endProposals cl (x ||| 2 ^ i) 3)

/-- The proposal of a core is withdrawn. -/
def State.withdraw (s : State) (c : Nat) : State := s.modCore c fun x => { x with proposal := none }

/-- `TEAM` completes with an outcome: an acquire (R266). -/
def teamDone (d : Reg) (o : Nat) (e : Env) (s : State) : Att := .done [.s d (BitVec.ofNat 64 o)] (s.acquire e.core)

/-- The wait of a `TEAM` whose proposal stands (R265). -/
def teamWait (d b : Reg) (e : Env) (s : State) : Att :=
  let t := e.until s (e.s b)
  if s.passed e.die t then teamDone d 0 e (s.withdraw e.core) else parked t teamWaits s

/-- An attempt of `TEAM` (R264, R265). -/
def tryTeam (d a b : Reg) (e : Env) (s : State) : Att :=
  let p := e.n a
  match e.wait.map (·.aux) with
  | some [2, o] => teamDone d o e s
  | some [1] => teamWait d b e s
  | _ =>
    if s.isHandler e.k || badTeamWord p || decide (pwTasks (s.core e.core).pword < geomPer p + 1) then illegal e s
    else if !bit (geomMask p) (e.core % 16) || ((List.range 16).any fun i => bit (geomMask p) i && s.isService (clusterOf e.core * 16 + i)) then
      .trap false 0x10 p s
    else if (s.core e.core).proposal.isSome then teamDone d 2 e s
    else if e.halted s then stalled s
    else releasing e s fun s =>
      let s := s.modCore e.core fun x =>
        { x with proposal := some { ctx := e.k, word := p, pts := (s.ctx e.k).ltime, deadline := e.until s (e.s b) } }
      match s.actTeam (clusterOf e.core) (e.core % 16) with
      | (some o, s) => teamDone d o e s
      | (none, s) => teamWait d b e s

/-- TEAM (R264). -/
def execTeam (d a b : Reg) (s : State) : Host.Outcome State Fault Refusal := s.issue (.team d a b) 0 (tryTeam d a b)

/-- A core's proposal ends by its timeout on its die's own clock (R265). -/
def execTeamTimeout (core : Nat) (s : State) : Host.Outcome State Fault Refusal :=
  match (s.core core).proposal with
  | none => .next s
  | some p => match p.deadline with
    | none => .next s
    | some t => .next ((s.runTo (dieOf core) t).endProposals (clusterOf core) (2 ^ (core % 16)) 0)

/-! ### GEOSUB (R273) -/

/-- Tiles of one axis that a member has: those at its place, one every `step`. -/
def tilesOn (total place step : Nat) : Nat := if place < total then (total - place + step - 1) / step else 0

/-- The mask of the rows of the last tile that lie inside the matrix. -/
def edgeMask (n place step m : Nat) : Nat :=
  if n = 0 then 0
  else (List.range 32).foldl (fun x t => if 32 * (place + (n - 1) * step) + t < m then x + 2 ^ t else x) 0

/-- The pair that `GEOSUB` writes. -/
def geosub (geom m n k : Nat) : Nat × Nat :=
  let rows := geomRows geom
  let cols := geomCols geom
  let ni := tilesOn ((m + 31) / 32) (geomRow geom) rows
  let nj := tilesOn ((n + 31) / 32) (geomCol geom) cols
  (ni + nj * 2 ^ 16 + (k + 31) / 32 * 2 ^ 32 + m % 32 * 2 ^ 48 + n % 32 * 2 ^ 53 + k % 32 * 2 ^ 58,
   edgeMask ni (geomRow geom) rows m + edgeMask nj (geomCol geom) cols n * 2 ^ 32)

/-- GEOSUB (R273). -/
def execGeosub (d a b : Reg) (s : State) : Host.Outcome State Fault Refusal :=
  s.issue (.geosub d a b) 0 fun e s' =>
    let m := e.n a % 2 ^ 32
    let n := e.n a / 2 ^ 32
    let k := e.n b % 2 ^ 32
    if d.toNat % 2 = 1 || d == 0 || e.n b / 2 ^ 32 != 0 || decide (2 ^ 20 < m) || decide (2 ^ 20 < n) || decide (2 ^ 20 < k) then illegal e s'
    else
      let r := geosub (s'.core e.core).geom m n k
      .done [.s d (BitVec.ofNat 64 r.1), .s (d + 1) (BitVec.ofNat 64 r.2)] s'

end Sys2Proof.Machine
end

