-- ==== Sys2Proof/Machine/Csr.lean ====
section
/-! DEFINITION. The control and status registers of R158, and the four CSR instructions (R154 to R156). -/

namespace Sys2Proof.Machine

/-! ### Values that are formed when they are read -/

/-- `CTXID` (R159). -/
def State.csrCtxid (s : State) (k : Nat) : Nat := ofBool (s.isHandler k) * 2 ^ 11 + (s.ctx k).gen % 256 * 2 ^ 3 + k % 8

/-- A bound as it stands at a time: while synchronisation is lost it grows with the time since the last completed exchange (R278). -/
def boundNow (cross loss : Bool) (bound since : Nat) : Nat := if loss && bound != 0xFFFF then lostBound cross since else bound

/-- `TSTAT` (R276). -/
def State.csrTstat (s : State) (d : Nat) : Nat :=
  let x := s.die d
  let g := s.die s.pkg.gmDie
  (if s.pkg.sysref then 0 else boundNow true g.xloss g.xbound (g.tclk - g.lastSync) % 2 ^ 16) * 2 ^ 48 +
    boundNow false x.loss x.bound (x.tclk - x.lastSync) % 2 ^ 16 * 2 ^ 32 + x.missed % 256 * 2 ^ 24 + s.pkg.gmDie % 8 * 2 ^ 9 +
    ofBool s.pkg.sysref * 2 ^ 8 + ofBool (g.xloss && !s.pkg.sysref) * 4 + ofBool x.slewmax * 2 + ofBool x.loss

/-- `HPEND` (R211): a bit for each class with a message pending, in the store or spilled. -/
def State.csrHpend (s : State) (c : Nat) : Nat :=
  (List.range 64).foldl (fun x i => if (s.core c).recv.any fun m => m.cls == i then x + 2 ^ i else x) 0

/-- The code of a lease state (R377). -/
def LeaseState.code : LeaseState → Nat
  | .none => 0 | .wait => 1 | .held => 2 | .spent => 3

/-- Array cycles left of a lease (R373): 4,096 from its grant. -/
def Lease.cyclesLeft (l : Lease) (cyc : Nat) : Nat := 4096 - min 4096 (cyc - l.cycles)

/-- The lease has run out at array cycle cyc: no command or cycle left, or 256 cycles with no command of the core executing (R373). -/
def Lease.out (l : Lease) (cyc : Nat) : Bool := l.left = 0 || l.cyclesLeft cyc = 0 || decide (256 ≤ cyc - l.idle)

/-- `MLEFT` (R377). -/
def State.csrMleft (s : State) (k : Nat) : Nat :=
  let x := s.core (coreOf k)
  let held := x.lease.state == .held
  x.lease.state.code * 2 ^ 62 + x.lease.n % 128 * 2 ^ 55 + (if held then x.lease.left % 128 else 0) * 2 ^ 48 +
    (if held then x.lease.cyclesLeft (s.die (dieOf (coreOf k))).cyc else 0) * 2 ^ 32 + (x.queue.filter fun q => q.ctx == k && q.op != .place).length % 256

/-- The value of CSR n for context k (R158); a write-only register reads 0. -/
def State.readCsr (s : State) (k n : Nat) : Word :=
  let c := s.ctx k
  let core := coreOf k
  let x := s.core core
  let d := s.die (dieOf core)
  match n with
  | 0x000 => BitVec.ofNat 64 core
  | 0x001 => BitVec.ofNat 64 (s.csrCtxid k)
  | 0x002 => BitVec.ofNat 64 d.cyc
  | 0x003 => BitVec.ofNat 64 d.tclk
  | 0x004 => BitVec.ofNat 64 (c.ltime % 2 ^ 24)
  | 0x005 => c.fflags
  | 0x006 => c.vstat
  | 0x007 => BitVec.ofNat 64 (s.csrTstat (dieOf core))
  | 0x010 => BitVec.ofNat 64 x.pword
  | 0x011 => BitVec.ofNat 64 x.geom
  | 0x012 => c.frame
  | 0x013 => BitVec.ofNat 64 x.stealcfg
  | 0x020 => c.tvec
  | 0x021 => c.tcause
  | 0x022 => c.tval
  | 0x023 => c.tepc
  | 0x024 => c.xid
  | 0x025 => c.uiepc
  | 0x026 => c.uien
  | 0x030 => BitVec.ofNat 64 x.hmask
  | 0x031 => BitVec.ofNat 64 (s.csrHpend core)
  | 0x032 => BitVec.ofNat 64 x.bounces
  | 0x033 => c.mbx
  | 0x040 => BitVec.ofNat 64 (s.csrMleft k)
  | 0x050 => BitVec.ofNat 64 x.pfiss
  | 0x051 => BitVec.ofNat 64 x.pfuse
  | 0x052 => BitVec.ofNat 64 x.pflate
  | 0x053 => BitVec.ofNat 64 x.pfdrop
  | 0x100 => c.svec
  | 0x101 => c.scause
  | 0x102 => c.sval
  | 0x103 => c.sepc
  | 0x110 => BitVec.ofNat 64 c.asid
  | 0x111 => BitVec.ofNat 64 d.ptroot
  | 0x112 => BitVec.ofNat 64 x.pagermap
  | 0x113 => BitVec.ofNat 64 d.ltperiod
  | 0x114 => BitVec.ofNat 64 d.lease
  | _ => 0

/-- The CSRs whose access is R (R158). -/
def csrReadOnly (n : Nat) : Bool :=
  [0x000, 0x001, 0x002, 0x003, 0x004, 0x007, 0x010, 0x011, 0x012, 0x031, 0x033, 0x040].contains n

/-- The privileged range (R155). -/
def csrPrivileged (n : Nat) : Bool := decide (0x100 ≤ n ∧ n ≤ 0x1FF)

/-! ### Writes -/

/-- The bits of m from w, the others from old (R7: a write leaves read-only fields as they are). -/
def merge (m old w : Word) : Word := (old &&& ~~~m) ||| (w &&& m)

/-- Writable bits of the registers that have read-only fields (R84, R168, R237, R352, R496). -/
def maskFflags : Word := 0x7F
def maskVstat : Word := 0x3
def maskCause : Word := 0x00007FFF000000FF
def maskXid : Word := 0x80FF007FFFFFFFFF
def maskPtroot : Word := 0x000FFFFFFFFF8001
def maskSteal : Word := 0x000FFFFF00FFFF00

/-- The frozen windows of context k close: each held result goes to its register, unless a later write of its window has dropped it
(R500). Places that were done stay done only by SKIP, which is cleared; what is issued from there on is a leader's stream anew. -/
def State.closeFrozen (s : State) (k : Nat) : State :=
  match (s.ctx k).frozenT with
  | none => s
  | some w =>
    let s := w.outst.foldl (fun s o => s.wrs k o.writes) s
    s.modCtx k fun c => { c with frozenT := some { w with outst := [], done := [], path := [], wrote := [] }, carried := min c.carried w.seq }

/-- A write of `TEPC`, or of `SEPC` when `sup` (R500): SKIP is cleared and the frozen windows close. -/
def State.writeEpc (s : State) (k : Nat) (sup : Bool) (x : Word) : State :=
  let noSkip := fun (c : Word) => c &&& ~~~(0x00007FFF00000000 : Word)
  (s.modCtx k fun c =>
    if sup then { c with sepc := x &&& ~~~1, scause := noSkip c.scause } else { c with tepc := x &&& ~~~1, tcause := noSkip c.tcause }).closeFrozen k

/-- A write of `LTSET` (R304): x if it lies within 2^21 of H, else H. -/
def State.writeLtset (s : State) (k x : Nat) : State :=
  let h := (s.die (dieOf (coreOf k))).home
  let near := (x + 2 ^ 24 - h) % 2 ^ 24
  s.modCtx k fun c => { c with ltime := if near ≤ 2 ^ 21 ∨ 2 ^ 24 - 2 ^ 21 ≤ near then x % 2 ^ 24 else h }

/-- A write of `LTPERIOD` (R303, R304): the next tick falls at the first multiple of the new period after the write. -/
def State.writeLtperiod (s : State) (d x : Nat) : State :=
  if 64 ≤ x ∧ x ≤ 2 ^ 20 then s.modDie d fun y => { y with ltperiod := x, nextTick := (y.tclk / 65536 / x + 1) * x } else s

/-- Writing w to CSR n (R154, R158): writable fields take it, the others keep their values. -/
def State.writeCsr (s : State) (k n : Nat) (w : Word) : State :=
  let core := coreOf k
  let die := dieOf core
  let sup := (s.ctx k).sup
  let inCtx := s.modCtx k
  let inCore := s.modCore core
  match n with
  | 0x005 => inCtx fun c => { c with fflags := merge maskFflags c.fflags w }
  | 0x006 => inCtx fun c => { c with vstat := merge maskVstat c.vstat w }
  | 0x013 => inCore fun x =>
      let y := merge maskSteal (BitVec.ofNat 64 x.stealcfg) w
      { x with stealcfg := if bits w.toNat 2 0 < 4 then setBits y.toNat 0 3 w.toNat else y.toNat }
  | 0x020 => inCtx fun c => { c with tvec := w }
  | 0x021 => inCtx fun c => { c with tcause := merge maskCause c.tcause w }
  | 0x022 => inCtx fun c => { c with tval := w }
  | 0x023 => s.writeEpc k false w
  | 0x024 => inCtx fun c => { c with xid := merge maskXid c.xid w }
  | 0x025 => inCtx fun c => { c with uiepc := w &&& ~~~1 }
  | 0x026 => (inCtx fun c => { c with uien := merge 1 c.uien w }).post (.completionInterrupt k)
  | 0x030 => (inCore fun x =>
      { x with hmask := (merge (if sup then BitVec.allOnes 64 else ~~~(0xE : Word)) (BitVec.ofNat 64 x.hmask) w).toNat }).post (.handlerStart core)
  | 0x032 => inCore fun x => { x with bounces := w.toNat % 2 ^ 32 }
  | 0x050 => inCore fun x => { x with pfiss := w.toNat }
  | 0x051 => inCore fun x => { x with pfuse := w.toNat }
  | 0x052 => inCore fun x => { x with pflate := w.toNat }
  | 0x053 => inCore fun x => { x with pfdrop := w.toNat }
  | 0x100 => inCtx fun c => { c with svec := w }
  | 0x101 => inCtx fun c => { c with scause := merge maskCause c.scause w }
  | 0x102 => inCtx fun c => { c with sval := w }
  | 0x103 => s.writeEpc k true w
  | 0x110 => inCtx fun c => { c with asid := w.toNat % 2 ^ 12 }
  | 0x111 => s.modDie die fun x => { x with ptroot := (merge maskPtroot (BitVec.ofNat 64 x.ptroot) w).toNat }
  | 0x112 => if s.isService (core / 16 * 16 + w.toNat % 16) then inCore fun x => { x with pagermap := w.toNat % 16 } else s
  | 0x113 => s.writeLtperiod die (w.toNat % 2 ^ 32)
  | 0x114 => if w.toNat % 256 = 0 then s else s.modDie die fun x => { x with lease := w.toNat % 256 }
  | 0x115 => s.writeLtset k (w.toNat % 2 ^ 24)
  | _ => s

/-! ### The instructions -/

/-- The mould of R154: the checks of R155 in order, the old value to sD, and the value to write, if any. -/
def csrOp (s : State) (i : Instr) (d : Reg) (n : Nat) (f : Env → Word → Option Word) : Host.Outcome State Fault Refusal :=
  s.issue i 0 fun e s' =>
    let old := s'.readCsr e.k n
    if !Csr.listed n then illegal e s'
    else if e.user s' && csrPrivileged n then privileged e s'
    else match f e old with
      | none => .done [.s d old] s'
      | some w => if csrReadOnly n then illegal e s' else .done [.s d old] (s'.writeCsr e.k n w)

/-- CSRR (R154). -/
def execCsrr (d : Reg) (c : BitVec 12) (s : State) : Host.Outcome State Fault Refusal :=
  csrOp s (.csrr d c) d c.toNat fun _ _ => none

/-- CSRW (R154). -/
def execCsrw (d a : Reg) (c : BitVec 12) (s : State) : Host.Outcome State Fault Refusal :=
  csrOp s (.csrw d a c) d c.toNat fun e _ => some (e.s a)

/-- CSRSET (R154): writes nothing with A = 0. -/
def execCsrset (d a : Reg) (c : BitVec 12) (s : State) : Host.Outcome State Fault Refusal :=
  csrOp s (.csrset d a c) d c.toNat fun e old => if a = 0 then none else some (old ||| e.s a)

/-- CSRCLR (R154): writes nothing with A = 0. -/
def execCsrclr (d a : Reg) (c : BitVec 12) (s : State) : Host.Outcome State Fault Refusal :=
  csrOp s (.csrclr d a c) d c.toNat fun e old => if a = 0 then none else some (old &&& ~~~e.s a)

/-- The event of a write to `LTSET` by context k (R304). -/
def execLtsetWrite (k x : Nat) (s : State) : Host.Outcome State Fault Refusal := .next (s.writeLtset k (x % 2 ^ 24))

/-- The event of a write to `LTPERIOD` of die d (R303). -/
def execLtperiodWrite (die x : Nat) (s : State) : Host.Outcome State Fault Refusal := .next (s.writeLtperiod die (x % 2 ^ 32))

/-- The event of a write to `TEPC` by context k (R500). -/
def execTepcWrite (k x : Nat) (s : State) : Host.Outcome State Fault Refusal := .next (s.writeEpc k false (BitVec.ofNat 64 x))

end Sys2Proof.Machine
end

