-- ==== Sys2Proof/Machine/Hoist.lean ====
section
/-! DEFINITION. Hoists (R226 to R230): joining, leaving, and the stream of decoded instructions from a leader to the ports of the contexts
that remember it. A follower's instruction is latched by `FOLLOWER_EXECUTE` and run by `step` like any other. -/

namespace Sys2Proof

namespace Machine

/-- Context j remembers context k, at its present generation, as its leader. -/
def State.remembers (s : State) (j k : Nat) : Bool := (s.ctx j).leader == some (k, (s.ctx k).gen)

/-- The contexts of the cluster of context k. -/
def clusterContexts (k : Nat) : List Nat := (List.range 128).map (· + coreOf k / 16 * 128)

/-- The members that follow context k. -/
def State.followers (s : State) (k : Nat) : List Nat := (clusterContexts k).filter fun j => (s.ctx j).member && s.remembers j k

/-- The contexts whose ports receive context k's stream: its followers, and those that have left and remember it (R230). -/
def State.listeners (s : State) (k : Nat) : List Nat := (clusterContexts k).filter fun j => s.remembers j k

/-- A remembered leader is still the occupancy that was joined (R228). -/
def State.leads (s : State) (l : Nat × Nat) : Bool := (s.ctx l.1).gen == l.2 && (s.ctx l.1).state != .free

/-- A full port stops its leader's decode (R229); a context that has left reads nothing, so its port does not. -/
def State.portFull (s : State) (k : Nat) : Bool := (s.followers k).any fun j => decide (32 ≤ (s.ctx j).port.length)

/-- A handler of the context runs: a trap's or a completion interrupt's. -/
def Ctx.handling (c : Ctx) : Bool := c.frozenT.isSome || c.frozenU.isSome

/-- The address of the next instruction of the context's own stream: behind a handler, the one that it returns to. -/
def Ctx.streamPc (c : Ctx) : Word := if c.frozenU.isSome then c.uiepc else if c.frozenT.isSome then c.epc else c.pc

/-- After a step of a context at place q: the instruction there is done, and not the one that a trap has been taken at (R60). -/
def Ctx.hasDone (c : Ctx) (q : Nat) : Bool := match c.frozenT with
  | some w => w.done.contains q || decide (q < w.seq)
  | none => c.frozenU.isNone

/-- Where the context's stream goes on after place q. -/
def Ctx.afterPlace (c : Ctx) (q : Nat) : Word := match c.frozenT with
  | some w => (w.path.find (q + 1)).getD c.epc
  | none => c.pc

/-- The leader's instruction at place q goes to every port, once (R229, R506). -/
def State.carry (s : State) (k q : Nat) (d : Decoded) : State :=
  let s := (s.listeners k).foldl (fun s j => (s.modCtx j fun x => { x with port := x.port ++ [d] }).post (.followerExecute j)) s
  s.modCtx k fun x => { x with carried := if x.frozenT.isSome then q + 1 else x.win.seq }

/-- A follower leaves its hoist and fetches for itself at an address (R230). It keeps its remembered leader. -/
def State.leave (s : State) (k : Nat) (pc : Word) : State :=
  s.modCtx k fun c => { c with member := false, latch := none, pc := pc, state := if c.state = .following then .running else c.state }

/-- FOLLOW (R226): a joiner's shadow PC is the address of its leader's next instruction. -/
def execFollow (d a : Reg) (s : State) : Host.Outcome State Fault Refusal :=
  s.issue (.follow d a) 0 fun e s' =>
    let w := e.n a
    let t := dstCore w * 8 + bits w 14 12
    if s'.isHandler e.k then illegal e s'
    else if dstKind w ≠ 1 || bits w 61 23 != 0 || decide (dstCore w / 16 ≠ e.core / 16) || s'.isService (dstCore w) || t == e.k then
      .trap false 0x10 w s'
    else
      let c := s'.ctx t
      if c.state = .free || c.gen != bits w 22 15 || s'.isHandler t || c.member || decide (15 ≤ (s'.followers t).length) ||
          !(s'.followers e.k).isEmpty then .done [.s d 0] s'
      else .done [.s d 1] (s'.modCtx e.k fun x =>
        { x with state := .following, member := true, leader := some (t, c.gen), port := [], latch := none, pc := c.streamPc })

/-- LEAVE (R227). -/
def execLeave (s : State) : Host.Outcome State Fault Refusal :=
  s.issue .leave 0 fun e s' => .done [] (if (s'.ctx e.k).member then s'.leave e.k e.next else s')

/-- What a parked `REJOIN` keeps: waiting for its label, joined, or given up. -/
def rejoinWaits (label : Nat) : List Nat := [0, label]
def rejoinJoined : List Nat := [1]

/-- An attempt of `REJOIN` (R228). -/
def tryRejoin (d : Reg) (p : BitVec 10) (e : Env) (s : State) : Att :=
  let c := s.ctx e.k
  if c.member then .done [.s d 1] s
  else if (e.wait.map (·.aux)) = some rejoinJoined then .done [.s d 1] s
  else match c.leader with
    | none => .done [.s d 0] s
    | some l =>
      if (!s.leads l && c.port.isEmpty) || (s.ctx l.1).gen != l.2 then .done [.s d 0] (s.modCtx e.k fun x => { x with leader := none })
      else parked none (rejoinWaits (e.target p).toNat) s

/-- REJOIN (R228). -/
def execRejoin (d : Reg) (p : BitVec 10) (s : State) : Host.Outcome State Fault Refusal := s.issue (.rejoin d p) 0 (tryRejoin d p)

end Machine

/-- Instructions before which a follower leaves (R230, R271): the TASK and SYS majors, `HRET`, `FOLLOW`, `BARW`, `BARX` and `TEAM`. -/
def Instr.leavesHoist : Instr → Bool
  | .spawn .. | .sync | .pubf .. | .taskend | .donate .. | .jinit .. | .jdec .. | .hret | .follow ..
  | .csrr .. | .csrw .. | .csrset .. | .csrclr .. | .trap .. | .eret | .uiret | .sreplyResume .. | .sreplySignal .. | .sreplyKill ..
  | .biasflipHost .. | .biasflipDevice .. | .wfi | .barw .. | .barx .. | .team .. => true
  | _ => false

/-- The outcome of a conditional branch, `BKANY` or `BKNONE` from the registers at its issue (R147, R230). -/
def Instr.taken (g : Machine.Regs) : Instr → Option Bool
  | .beq a b _ => some (g.rs a == g.rs b)
  | .bne a b _ => some (g.rs a != g.rs b)
  | .blt a b _ => some ((g.rs a).slt (g.rs b))
  | .bge a b _ => some (!(g.rs a).slt (g.rs b))
  | .bltu a b _ => some ((g.rs a).ult (g.rs b))
  | .bgeu a b _ => some (!(g.rs a).ult (g.rs b))
  | .bkany k _ => some (g.rk k != 0)
  | .bknone k _ => some (g.rk k == 0)
  | .beqzN a _ => some (g.rs (Machine.regN a) == 0)
  | .bnezN a _ => some (g.rs (Machine.regN a) != 0)
  | _ => none

namespace Machine

/-- The label a context's parked `REJOIN` watches for. -/
def Ctx.watches (c : Ctx) : Option Nat :=
  (c.win.outst.filterMap fun o => match o.res with
    | .pend (.rejoin ..) _ w => match w.aux with
      | [0, label] => some label
      | _ => none
    | _ => none).head?

/-- The parked `REJOIN` of a context is told that its label has come. -/
def Ctx.joins (c : Ctx) : Ctx :=
  { c with member := true, win := { c.win with outst := c.win.outst.map fun o => match o.res with
      | .pend (.rejoin d p) g w => { o with res := .pend (.rejoin d p) g { w with aux := rejoinJoined } }
      | _ => o } }

/-- The next instruction of a context's port is at hand, or the stream has ended (R229, R230). -/
def State.portMoves (s : State) (c : Ctx) : Bool :=
  c.latch.isNone && match c.leader with
    | some l => !c.port.isEmpty || !s.leads l
    | none => false

/-- The next instruction of a context's port (R229, R230): a follower latches it, or leaves before it; a context that has left passes it
over unless its `REJOIN` watches for it, which then joins at it. With the stream at its end the hoist dissolves. -/
def State.takePort (s : State) (k : Nat) : State :=
  let c := s.ctx k
  match c.leader, c.port with
  | none, _ => s
  | some _, [] => (s.leave k c.pc).modCtx k fun x => { x with leader := none }
  | some l, d :: ds =>
    if c.member then
      let s := s.modCtx k fun x => { x with port := ds }
      match decodeBits d.len d.bits with
      | some i => if i.leavesHoist then s.leave k d.pc else s.modCtx k fun x => { x with latch := some d, pc := d.pc }
      | none => s.leave k d.pc
    else if c.watches = some d.pc.toNat then
      if (s.followers l.1).length < 15 then s.modCtx k Ctx.joins else s.modCtx k fun x => { x with leader := none }
    else s.modCtx k fun x => { x with port := ds }

/-- FOLLOWER_EXECUTE (R229, R230): the port delivers one instruction, and the next while no instruction is latched. -/
def execFollowerExecute (k : Nat) (s : State) : Host.Outcome State Fault Refusal :=
  if s.portMoves (s.ctx k) then
    let t := s.takePort k
    .next (if t.portMoves (t.ctx k) then t.post (.followerExecute k) else t)
  else .next s

end Machine

end Sys2Proof
end

