-- ==== Sys2Proof/Machine/Lock.lean ====
section
/-! DEFINITION. The range-lock table of a die (R356 to R358): registrations, their order, and their release; counters as registration touches them,
and the inboxes that requests enter (R335, R346). -/

namespace Sys2Proof.Machine

/-- The lines that n bytes at va touch, first and last. -/
def lineRange (va n : Nat) : Nat × Nat := (va / 64, (va + n - 1) / 64)

/-- Two ranges of one address-space key overlap. -/
def Lock.meets (e : Lock) (r : Nat × Nat × Nat × Bool) : Bool := e.key == r.1 && decide (e.lo ≤ r.2.2.1 ∧ r.2.1 ≤ e.hi)

/-- The table can take a registration whole (R358); `scatters` are the lines that scatters hold. -/
def grantable (locks : List Lock) (scatters : List (Nat × Nat × Nat)) (q : LockReq) : Bool :=
  decide (locks.length + q.ranges.length ≤ 256) &&
    q.ranges.all fun r => (locks.all fun e => !(e.meets r && (e.dest || r.2.2.2))) &&
      scatters.all fun x => !(x.2.1 == r.1 && decide (r.2.1 ≤ x.2.2 ∧ x.2.2 ≤ r.2.2.1))

/-- The entries of a registration. -/
def LockReq.locks (q : LockReq) : List Lock :=
  q.ranges.map fun r => { key := r.1, lo := r.2.1, hi := r.2.2.1, dest := r.2.2.2, core := q.core, xfer := q.xfer }

/-- The event by which a unit serves a request. -/
def Req.event (d unit : Nat) (r : Req) : Event := match r.op with
  | .copy => .copySegment d unit
  | .copym => .copymUnit d unit
  | .get => .getChunk d unit
  | .put => .putChunk d unit
  | .dense => .denseShard d

/-- A counter as it stands at placement (R346). -/
def Counter.reset : Counter :=
  { value := 0, armed := false, done := false, err := false, uip := false, code := 0, uipc := 0, tag := 0, ccwts := 0, armer := 0, armerGen := 0 }

/-- Counter n of core c. -/
def State.counter (s : State) (c n : Nat) : Counter := Tab.get Counter.reset (s.core c).counters n

/-- The state with a counter replaced. -/
def State.setCounter (s : State) (c n : Nat) (x : Counter) : State := s.modCore c fun y => { y with counters := y.counters.put n x }

/-- A transfer registers: a UIPC that is not zero replaces its counter's, with its TAG (R346). -/
def State.register (s : State) (c cc : Nat) (uipc : Word) (tag : Nat) : State :=
  if uipc = 0 then s else s.setCounter c cc { s.counter c cc with uipc := uipc, tag := tag }

/-- An acknowledgement sets out to the issuing core (R334). -/
def State.ack (s : State) (core xfer bytes wts : Nat) (last : Bool) (error : Option Nat) : State :=
  ({ s with acks := s.acks ++ [{ core := core, xfer := xfer, bytes := bytes, wts := wts, last := last, error := error }] } : State).post
    (.byteAcknowledgement core)

/-- Requests that a unit holds in hardware, and those of them that it serves at once (R335). -/
def inboxDepth : Nat := 32
def inboxServed : Nat := 8

/-- A request enters a unit's inbox, in hardware or spilled; one beyond the ring's quota is not accepted, and ends its piece with 0x0D (R333 to R335,
R366). -/
def State.inject (s : State) (d unit : Nat) (r : Req) : State :=
  let l := Tab.get [] (s.die d).inbox unit
  if inboxDepth + (s.die d).inboxQuota ≤ l.length then s.ack r.core r.xfer 0 0 true (some 0x0D)
  else (s.modDie d fun x => { x with inbox := x.inbox.put unit (l ++ [r]) }).post (r.event d unit)

/-- Requests to units numbered through the package: die * 64 + unit. -/
def State.injectAll (s : State) (rs : List (Nat × Req)) : State := rs.foldl (fun s r => s.inject (r.1 / 64) (r.1 % 64) r.2) s

/-- A transfer that has its ranges is registered, and sends its requests (R340). -/
def State.sendXfer (s : State) (q : LockReq) : State :=
  (match (s.core q.core).xfers.find q.xfer with
    | some x => s.register q.core x.cc x.uipc x.tag
    | none => s).injectAll q.reqs

/-- Registrations of a landed tile's pin stand under these numbers, above those of the transfer records. -/
def pinOf (k : Nat) : Nat := 1024 + k % 8

/-- Grants at the head of the table's queue as far as it goes (R358): each grant starts what waited for it. -/
def State.grantLocks (s : State) (d : Nat) : Nat → State
  | 0 => s
  | fuel + 1 =>
    match (s.die d).lockQ with
    | [] => s
    | q :: qs =>
      if grantable (s.die d).locks (s.die d).scatters q then
        let s := s.modDie d fun x => { x with locks := x.locks ++ q.locks, lockQ := qs }
        let s := s.latency d 7 0
        (if 1024 ≤ q.xfer then s.post (.stealDispatch q.core) else s.sendXfer q).grantLocks d fuel
      else s

/-- Asks for a registration at the end of the queue. -/
def State.askLocks (s : State) (d : Nat) (q : LockReq) : State :=
  (s.modDie d fun x => { x with lockQ := x.lockQ ++ [q] }).post (.rangeLockGrant d)

/-- The entries of a registrant go, on every die; dirty bytes that they held are performed (R360). -/
def State.unlock (s : State) (core xfer : Nat) : State :=
  (List.range 8).foldl (fun s d =>
    if (s.die d).locks.any fun e => e.core == core && e.xfer == xfer then
      ((s.modDie d fun x => { x with locks := x.locks.filter fun e => !(e.core == core && e.xfer == xfer) }).freeHeld d).post (.rangeLockGrant d)
    else s) s

/-- A transfer may register: the context that issued it has performed every earlier access, as for a release, or has ended (R309, R340). -/
def State.mayRegister (s : State) (x : Issuing) : Bool × State :=
  let c := s.ctx x.ctx
  if c.gen != x.gen || c.state == .free then (true, s)
  else if s.accessedBefore x.ctx x.pos then (false, s)
  else s.released x.ctx

/-- A transfer asks for its ranges, or sends its requests at once where it has none to register; it carries its context's pts (R334, R340). -/
def State.startXfer (s : State) (d : Nat) (x : Issuing) : State :=
  let c := s.ctx x.ctx
  let stamp := fun (t : Xfer) => if c.gen = x.gen then { t with pts := c.ltime, acked := c.ltime } else t
  let s := s.modDie d fun y => { y with issuing := y.issuing.filter fun z => z != x }
  let s := s.modCore x.req.core fun y => { y with xfers := y.xfers.map fun e => if e.1 = x.req.xfer then (e.1, stamp e.2) else e }
  if x.req.ranges.isEmpty then s.sendXfer x.req else s.askLocks d x.req

/-- The transfers of a die that have yet to register do so, those of one context in program order (R340). -/
def State.letIn (s : State) (d : Nat) : List Nat → List Issuing → State
  | _, [] => s
  | held, x :: xs =>
    if held.contains x.ctx then s.letIn d held xs
    else match s.mayRegister x with
      | (true, s) => (s.startXfer d x).letIn d held xs
      | (false, s) => s.letIn d (x.ctx :: held) xs

/-- A transfer of a die waits no longer for accesses of its own context. -/
def State.letsIn (s : State) (d : Nat) : Bool := (s.die d).issuing.any fun x => !s.accessedBefore x.ctx x.pos

/-- RANGE_LOCK_GRANT (R340, R358, R360): transfers whose releases are done ask for their ranges, dirty bytes that no entry holds any longer are
performed, and registrations are granted. -/
def execRangeLockGrant (die : Nat) (s : State) : Host.Outcome State Fault Refusal :=
  let s := (s.letIn die [] (s.die die).issuing).freeHeld die
  .next (s.grantLocks die ((s.die die).lockQ.length + 1))

end Sys2Proof.Machine
end

