-- ==== Sys2Proof/Machine/Steal.lean ====
section
/-! DEFINITION. Steals and dispatch (R240, R247 to R250, R256): the rounds of a steal engine, the claim and its increment, landing, and the
dispatch of stolen, donated and root frames. -/

namespace Sys2Proof.Machine

/-! ### STEALCFG and landing (R237, R249) -/

/-- Fields of STEALCFG (R237). -/
def stealDomain (w : Nat) : Nat := bits w 2 0
def stealBudget (w : Nat) : Nat := bits w 15 8
def stealBackoffNs (w : Nat) : Nat := bits w 23 16 * 64
def landBase (w : Nat) : Nat := bits w 41 32 * 1024
def landSize (w : Nat) : Nat := bits w 51 42 * 1024

/-- The landing area of a core: its first byte and its end. -/
def State.landing (s : State) (c : Nat) : Nat × Nat :=
  let w := (s.core c).stealcfg
  (landBase w, min (landBase w + landSize w) (s.scratchBytes c))

/-- The landings in use on a core, shared copies once for each sharer. -/
def State.landedOn (s : State) (c : Nat) : List Landed :=
  ((contextsOf c).flatMap fun k => (s.ctx k).landed).filter fun t => t.size != 0

/-- The landings that a core's claims have reserved (R249): copies that are still to be fetched, which nobody shares. -/
def State.reservedOn (s : State) (c : Nat) : List Landed :=
  (((s.core c).claims.flatMap fun x => x.tiles).filter fun t => t.size != 0).map fun t => { t with entry := 0 }

/-- A tile does not meet any in use. -/
def clear (used : List Landed) (o n : Nat) : Bool := used.all fun t => decide (t.off + t.size ≤ o ∨ o + n ≤ t.off)

/-- The lowest free offset, from o on, that holds n bytes (R249). -/
def lowestFree (used : List Landed) (n hi : Nat) : Nat → Nat → Option Nat
  | 0, _ => none
  | fuel + 1, o => if hi < o + n then none else if clear used o n then some o else lowestFree used n hi fuel (o + 64)

/-- A tile entry stands for one source under two publishers (R234): a translated address, the window of one cluster, or the scratch of one core. -/
def sameSource (t a b : Nat) : Bool := match tileKind t with
  | 2 => a == b
  | 3 => clusterOf a == clusterOf b
  | _ => true

/-- Places a frame's four tiles in order: an invalid one nowhere, an O tile at a copy already landed, any other at the lowest free place
(R249). -/
def placeTiles (owner : Nat) (lo hi : Nat) : List Landed → List Nat → Option (List Landed)
  | _, [] => some []
  | used, t :: ts =>
    let n := tileUnits t * 64
    let rest := fun (used : List Landed) (x : Landed) => (placeTiles owner lo hi used ts).map (x :: ·)
    if !tileV t then rest used { off := 0, size := 0, entry := t, owner := owner }
    else match if tileO t then used.find? fun u => tileO u.entry && u.size == n && tileAddr u.entry == tileAddr t && sameSource t u.owner owner
        else none with
      | some u => rest used { u with entry := t, owner := owner }
      | none => match lowestFree used n hi (hi / 64 + 1) lo with
        | some o =>
          let x : Landed := { off := o, size := n, entry := t, owner := owner }
          rest (x :: used) x
        | none => none

/-- Landing space for a frame on core c. -/
def State.land (s : State) (c owner f : Nat) : Option (List Landed) :=
  let (lo, hi) := s.landing c
  placeTiles owner lo hi (s.landedOn c ++ s.reservedOn c) ((List.range 4).map (frTile f))

/-! ### The round (R247) -/

/-- A steal engine searches (R247). -/
def State.searches (s : State) (c : Nat) : Bool :=
  !s.isService c && (s.core c).slot.isSome && (s.freeTask c).isSome && stealBudget (s.core c).stealcfg != 0 && !(s.core c).saving

/-- A steal engine that searches is to send a probe: it neither pauses nor waits for one. -/
def State.probing (s : State) (c : Nat) : Bool := s.searches c && !(s.core c).steal.round && (s.core c).steal.resumeAt.isNone

/-- Inserts a cluster or die by its distance, ties to the lower number. -/
def insertBy (f : Nat → Nat) (x : Nat) : List Nat → List Nat
  | [] => [x]
  | y :: ys => if f x < f y || (f x == f y && decide (x < y)) then x :: y :: ys else y :: insertBy f x ys

/-- Numbers sorted by distance. -/
def sortBy (f : Nat → Nat) (l : List Nat) : List Nat := l.foldr (insertBy f) []

/-- What a probe goes to: a core, a cluster of the die, a die, or the donation queues. -/
inductive Probe where
  | core (c : Nat)
  | cluster (n : Nat)
  | die (d : Nat)
  | queues
  deriving DecidableEq, Repr

/-- The probes of a round in order, as far as the domain reaches (R247). -/
def State.probes (s : State) (c : Nat) : List Probe :=
  let dom := stealDomain (s.core c).stealcfg
  let d := dieOf c
  let cl := clusterOf c
  let ring := ((List.range 16).map fun i => cl * 16 + (c % 16 + i + 1) % 16).filter fun i => !s.isService i
  let clusters := (sortBy (clusterDistance cl) (((List.range 32).map (· + d * 32)).filter (· != cl)))
  let dies := sortBy (linkDistance d) ((List.range 8).filter (· != d))
  ring.map .core ++ (if 1 ≤ dom then clusters.map .cluster else []) ++ (if 2 ≤ dom then dies.map .die else []) ++
    (if 3 ≤ dom then [.queues] else [])

/-- The oldest PRESENT entry of a core's deque, with its place (R241). -/
def oldestPresent : Nat → List DqEntry → Option (Nat × DqEntry)
  | _, [] => none
  | i, e :: es => if e.state = .present then some (i, e) else oldestPresent (i + 1) es

/-- The entry of victim v that thief c may take: the oldest PRESENT one, if it is eligible (R247). -/
def State.eligible (s : State) (c v : Nat) (far : Bool) : Option (Nat × DqEntry × List Landed) :=
  if (s.core v).slot != (s.core c).slot || (s.core v).saving then none
  else match oldestPresent 0 (s.core v).deque with
    | some (i, e) =>
      if e.barred ≠ 0 || (far && e.bound) then none
      else (s.land c (coreOf e.owner) e.snap).map fun ts => (i, e, ts)
    | none => none

/-- The worker cores of a cluster, lowest first. -/
def State.workersOf (s : State) (n : Nat) : List Nat := ((List.range 16).map (· + n * 16)).filter fun c => !s.isService c

/-- The first core of a list with an entry that thief c may take. -/
def State.firstVictim (s : State) (c : Nat) (far : Bool) : List Nat → Option (Nat × Nat × DqEntry × List Landed)
  | [] => none
  | v :: vs => match s.eligible c v far with
    | some x => some (v, x)
    | none => s.firstVictim c far vs

/-- The cluster of die d that serves a probe from cluster cl: the nearest of those that run the launch (R247). -/
def State.servingCluster (s : State) (c d : Nat) : Option Nat :=
  let runs := ((List.range 32).map (· + d * 32)).filter fun n => (s.workersOf n).any fun v => (s.core v).slot == (s.core c).slot
  (sortBy (clusterDistance (clusterOf c)) runs).head?

/-- What a probe of a deque finds. -/
def State.probe (s : State) (c : Nat) : Probe → Option (Nat × Nat × DqEntry × List Landed)
  | .core v => s.firstVictim c false [v]
  | .cluster n => s.firstVictim c true (s.workersOf n)
  | .die d => match s.servingCluster c d with
    | some n => s.firstVictim c true (s.workersOf n)
    | none => none
  | .queues => none

/-- The first of the sixteen donation queues whose oldest entry fits the prober (R256). -/
def State.probeQueues (s : State) (c : Nat) : List Nat → Option (Nat × DqEntry × List Landed)
  | [] => none
  | q :: qs =>
    let x := Tab.get DonQueue.reset s.donq q
    match if x.slot == (s.core c).slot then x.entries.head? else none with
    | some e => match s.land c (coreOf e.owner) e.snap with
      | some ts => some (q, e, ts)
      | none => s.probeQueues c qs
    | none => s.probeQueues c qs

/-- STEAL_PROBE (R247): the engine sends its next probe, unless it is pausing or a probe is out. -/
def execStealProbe (core : Nat) (s : State) : Host.Outcome State Fault Refusal :=
  if s.probing core then .next ((s.modCore core fun y => { y with steal := { y.steal with round := true } }).post (.stealClaim core)) else .next s

/-- A probe fails: the round goes on, or ends and the engine pauses (R247). -/
def State.probeFailed (s : State) (c : Nat) : State :=
  let x := (s.core c).steal
  let pos := x.pos + 1
  if stealBudget (s.core c).stealcfg ≤ pos || (s.probes c).length ≤ pos then
    let t := s.now (dieOf c) + stealBackoffNs (s.core c).stealcfg * 65536
    s.modCore c fun y => { y with steal := { StealEngine.reset with resumeAt := some t } }
  else (s.modCore c fun y => { y with steal := { round := false, pos := pos, used := pos, resumeAt := none } }).post (.stealProbe c)

/-- A claim of core c, which its reserved context names, added, replaced or gone. -/
def State.addClaim (s : State) (c : Nat) (x : Claim) : State := s.modCore c fun y => { y with claims := y.claims ++ [x] }
def State.setClaim (s : State) (c : Nat) (x : Claim) : State :=
  s.modCore c fun y => { y with claims := y.claims.map fun z => if z.ctx = x.ctx then x else z }
def State.dropClaim (s : State) (c : Nat) (x : Claim) : State := s.modCore c fun y => { y with claims := y.claims.filter fun z => z.ctx != x.ctx }

/-- A claim on a deque's entry, or the taking of a donated one, for which no increment is due. -/
def newClaim (v : Nat) (e : DqEntry) (donated : Bool) (k : Nat) (ts : List Landed) : Claim :=
  { victim := v, entry := e, stolen := donated, ctx := k, tiles := ts, fault := none, signalled := none, donated := donated }

/-- STEAL_CLAIM (R240, R241): the probe arrives. It claims the entry with its landing space and a context, or fails. -/
def execStealClaim (core : Nat) (s : State) : Host.Outcome State Fault Refusal :=
  let x := (s.core core).steal
  if !x.round then .next s
  else match if s.searches core then s.freeTask core else none, (s.probes core)[x.pos]? with
    | some k, some .queues =>
      match s.probeQueues core (List.range 16) with
      | none => .next (s.probeFailed core)
      | some (q, e, ts) =>
        let dq := Tab.get DonQueue.reset s.donq q
        let s := { s with donq := s.donq.put q { dq with entries := dq.entries.drop 1 } }
        let s := s.modCore core fun y => { y with steal := StealEngine.reset }
        .next ((s.addClaim core (newClaim q e true k ts)).post (.stealDispatch core))
    | some k, some p =>
      match s.probe core p with
      | none => .next (s.probeFailed core)
      | some (v, i, e, ts) =>
        let s := s.modEntry v i fun e => { e with state := .claimed }
        .next ((s.addClaim core (newClaim v e false k ts)).post (.claimIncrementDone core))
    | _, _ => .next (s.modCore core fun y => { y with steal := StealEngine.reset })

/-- STEAL_BACKOFF (R247): a pause ends on the core's own clock, and the engine begins again. A round under way goes on. -/
def execStealBackoff (core : Nat) (s : State) : Host.Outcome State Fault Refusal :=
  let x := (s.core core).steal
  if x.round || (x.resumeAt.isNone && x.pos != 0) then .next s
  else .next (((s.runToDeadline (dieOf core) x.resumeAt).modCore core fun y => { y with steal := StealEngine.reset }).post (.stealProbe core))

/-! ### The claim's increment (R240, R250) -/

/-- The part's own access to a launch's memory from a core: the user's mode, no context. -/
def State.part (s : State) (c k : Nat) : Who := { k := k, core := c, asid := (s.launchOf c).asid, sup := false, unit := false }

/-- A fabric atomic that the part itself performs with a pts (R240, R246). -/
def State.fabric (s : State) (w : Who) (p va : Nat) (f : Nat → Nat) : MemRes :=
  match s.atomicChecks w.core va with
  | some code => .trap false code va s
  | none =>
    if winTag va = 0 then
      match s.firstStop w .atomic va 8 true [(va, 8)] with
      | some r => r
      | none =>
        let (pa, pte) := s.pieceAt w .atomic va 8
        let s := s.served (dieOf w.core) w.asid va pa pte true
        let s := if s.local_ pa then s.recall (pa / 64) else s
        let m := s.mem.readN pa 8
        .ok m (s.homeWrite w.core (pa / 64) (pa % 64) 8 (f m) p).1
    else
      let m := s.readScratch w.core va 8
      .ok m (s.writeScratch w.core va 8 (f m))

/-- The place of an entry in a deque. -/
def placeOf (e : DqEntry) (x : Core) : Option Nat :=
  x.deque.findIdx? fun y => y.state == .claimed && y.owner == e.owner && y.snap == e.snap && y.frame == e.frame && y.resume == e.resume

/-- A claim is undone: the entry is PRESENT again and barred, and the thief's round goes on (R250). -/
def State.undoClaim (s : State) (c : Nat) (x : Claim) (barred : Nat) : State :=
  let s := match placeOf x.entry (s.core x.victim) with
    | some i => s.modEntry x.victim i fun e => { e with state := .present, barred := barred }
    | none => s
  (s.dropClaim c x).probeFailed c

/-- What a fault held by a unit waits for: a claim's entry, a tile fetch, a root frame (R361). -/
def placeClaim (v : Nat) : Nat := 1 + 16 * v
def placeFetch (c : Nat) : Nat := 2 + 16 * c
def placeRoot (slot : Nat) : Nat := 3 + 16 * slot

/-- An entry barred for good (R250). -/
def barredForGood : Nat := 1

/-- A claim's add at its frame's join counter: what it comes to, unless it waits (R240, R250). With the entry STOLEN the probe has succeeded, and the round
ends (R247). -/
def State.increment (s : State) (c : Nat) (x : Claim) : Option State :=
  if x.stolen then none
  else
    let w := s.part x.victim x.entry.owner
    match s.fabric w x.entry.pts (frJoin x.entry.snap) fun m => (m + 1) % 2 ^ 64 with
    | .ok _ s =>
      let s := match placeOf x.entry (s.core x.victim) with
        | some i => s.modEntry x.victim i fun e => { e with state := .stolen }
        | none => s
      let s := (s.setClaim c { x with stolen := true }).modCore c fun y => { y with steal := StealEngine.reset }
      some (s.post (.stealDispatch c))
    | .fault va cause level pte =>
      let (key, s) := s.unitFault (dieOf c) (32 + clusterOf c % 32) va w.asid 2 (cause, level, pte) true (c * 8) 0 (placeClaim x.victim)
      some (s.undoClaim c x (key + 2))
    | .trap _ _ _ s => some (s.undoClaim c x barredForGood)
    | .stall => none

/-- The adds that a core's claims can make now: the first of them. -/
def State.nextIncrement (s : State) (c : Nat) : Option State := (s.core c).claims.findSome? (s.increment c)

/-- CLAIM_INCREMENT_DONE (R240, R250): the add at a claimed frame's join counter completes, or the claim is undone. -/
def execClaimIncrementDone (core : Nat) (s : State) : Host.Outcome State Fault Refusal := .next ((s.nextIncrement core).getD s)

/-! ### Landing and dispatch (R248, R249) -/

/-- The range-lock entries of landed P tiles on core c (R249). -/
def pinRanges (s : State) (c asid : Nat) (tiles : List Landed) : List (Nat × Nat × Nat × Bool) :=
  (tiles.filter fun t => t.size != 0 && tileP t.entry && decide (tileKind t.entry < 2)).map fun t =>
    let va := tileVA t.entry
    let key := match s.leaf (dieOf c) asid va with
      | .leaf pte _ _ => keyOf asid pte
      | _ => asid
    let r := lineRange va t.size
    (key, r.1, r.2, tileW t.entry)

/-- The range-lock entries of a claim's P tiles. -/
def Claim.pins (x : Claim) (s : State) (c : Nat) : List (Nat × Nat × Nat × Bool) := pinRanges s c (s.launchOf c).asid x.tiles

/-- The pins of a claim stand in the table, are waited for, or have still to be asked for. -/
def State.pinned (s : State) (c : Nat) (x : Claim) : Bool :=
  (s.die (dieOf c)).locks.any fun e => e.core == c && e.xfer == pinOf x.ctx
def State.pinning (s : State) (c : Nat) (x : Claim) : Bool :=
  (s.die (dieOf c)).lockQ.any fun e => e.core == c && e.xfer == pinOf x.ctx

/-- What the fetch of a tile comes to: its bytes, a trap at the dispatch, a fault, or a wait. The value of a trap over a tile in private scratch is its
window-0xF0 address (log 94). -/
def State.fetchTile (s : State) (c : Nat) (x : Claim) (t : Landed) : MemRes :=
  match tileKind t.entry with
  | 2 =>
    let o := tileOffset t.entry
    if s.isService t.owner || s.scratchBytes t.owner < o + t.size then .trap true 0x0C (tileVA t.entry) s
    else .ok ((s.core t.owner).scratch.readN o t.size) s
  | 3 =>
    if s.shareHasAll c (tileOffset t.entry) t.size then .ok (s.readShare c (tileOffset t.entry) t.size) s
    else .trap true 0x0C (tileVA t.entry) s
  | _ =>
    let w := s.part c x.ctx
    let va := tileVA t.entry
    match s.engStop w .engRead va t.size with
    | some r => r
    | none => let (v, s) := s.engRead w x.entry.pts (linesOf va t.size); .ok v s

/-- Fetches the tiles in order into the landing area; an O copy that is already there is not fetched (R249). -/
def State.fetchTiles (s : State) (c : Nat) (x : Claim) (held : List Landed) : List Landed → MemRes
  | [] => .ok 0 s
  | t :: ts =>
    if t.size = 0 || held.any (fun u => u.off == t.off && u.size == t.size) then s.fetchTiles c x held ts
    else match s.fetchTile c x t with
      | .ok v s => (s.modCore c fun y => { y with scratch := y.scratch.writeN t.off t.size v }).fetchTiles c x held ts
      | r => r

/-- The registers of a dispatch (R248). -/
def dispatchRegs (f at_ : Nat) (tiles : List Landed) : Regs :=
  let tile := fun (i : Nat) => match tiles[i]? with
    | some t => if t.size = 0 then 0 else BitVec.ofNat 64 (0xF0 * 2 ^ 56 + t.off)
    | none => 0
  (((((Regs.reset.ws 1 (tile 0)).ws 2 (tile 1)).ws 3 (tile 2)).ws 4 (tile 3)).ws 5 (BitVec.ofNat 64 (frArg f))).ws 6 (BitVec.ofNat 64 at_)

/-- Dispatches a frame on a context (R248): an acquire edge. -/
def State.dispatch (s : State) (k f at_ pts asid : Nat) (tiles : List Landed) (root : Bool) : State :=
  let s := s.acquire (coreOf k)
  s.modCtx k fun c =>
    { c.begun (BitVec.ofNat 64 (frPC f)) (dispatchRegs f at_ tiles) with
      asid := asid, frame := mkFrame at_ false (!root) true, snap := f, taskSnap := f, taskFrame := at_, landed := tiles, isRoot := root,
      ltime := serialMax 24 c.ltime pts }

/-- The context on which a claim is dispatched: the one that it reserved, or where a release has taken that one since the lowest free task context
(R112, log 95). -/
def State.dispatchCtx (s : State) (c : Nat) (x : Claim) : Option Nat := if s.freeForTask x.ctx then some x.ctx else s.freeTask c

/-- A claim is dispatched on a context; where its fetch has failed, into a trap at the entry PC (R250). -/
def State.dispatchClaim (s : State) (c k : Nat) (x : Claim) (trap : Option (Nat × Nat)) : State :=
  let s := (s.dropClaim c x).dispatch k x.entry.snap x.entry.frame x.entry.pts (s.launchOf c).asid x.tiles false
  let s := match trap with
    | some (code, val) => s.enterTrap k 0 code (BitVec.ofNat 64 val) (BitVec.ofNat 64 (frPC x.entry.snap)) []
    | none => s
  (s.latency (dieOf c) 2 (stealDomain (s.core c).stealcfg)).post (.stealProbe c)

/-- The steps of a claim that is STOLEN, unless it waits (R248 to R250): pins, then the tiles, then the dispatch. A fault of a fetch waits for its
reply. -/
def State.landClaim (s : State) (c : Nat) (x : Claim) : Option State :=
  if !x.stolen || x.fault.isSome then none
  else match s.dispatchCtx c x with
    | none => none
    | some k => match x.signalled with
      | some va => some (s.dispatchClaim c k x (some (0x13, va)))
      | none =>
        let pins := x.pins s c
        if !pins.isEmpty && !s.pinned c x then
          if s.pinning c x then none
          else some (s.askLocks (dieOf c) { core := c, xfer := pinOf x.ctx, ranges := pins, reqs := [] })
        else match s.fetchTiles c x (s.landedOn c) x.tiles with
          | .ok _ s => some (s.dispatchClaim c k x none)
          | .trap _ code val s => some (s.dispatchClaim c k x (some (code, val)))
          | .stall => none
          | .fault va cause level pte =>
            let thread := 2 ^ 62 + ((s.ctx x.ctx).gen + 1) % 256 * 2 ^ 15 + x.ctx % 8 * 2 ^ 12 + c
            let (key, s) := s.unitFault (dieOf c) (32 + clusterOf c % 32) va (s.launchOf c).asid 4 (cause, level, pte) true x.ctx thread
              (placeFetch c)
            some (s.setClaim c { x with fault := some key })

/-- The first step that a claim of the core can make now. -/
def State.nextLanding (s : State) (c : Nat) : Option State := (s.core c).claims.findSome? (s.landClaim c)

/-- STEAL_DISPATCH (R248 to R250). -/
def execStealDispatch (core : Nat) (s : State) : Host.Outcome State Fault Refusal := .next ((s.nextLanding core).getD s)

/-- The root frame of a launch is read as a snapshot and dispatched on context 0 of the root core, unless the read waits (R248). -/
def State.dispatchRoot (s : State) (slot : Nat) : Option State :=
  let l := s.launch slot
  let core := l.clusters.headD 0 * 16
  let k := core * 8
  if l.state != .running || l.rootReady || l.save.isSome || (s.die (dieOf core)).faults.any fun e => e.2.place == placeRoot slot then none
  else
    let w : Who := { k := k, core := core, asid := l.asid, sup := false, unit := false }
    match if winTag l.root = 0xF1 then none else s.engStop w .engRead l.root 64 with
    | none =>
      let (f, s) := if winTag l.root = 0xF1 then (s.readShare core (winOff l.root) 64, s)
        else s.engRead w (s.ctx k).ltime (linesOf l.root 64)
      let s := s.modLaunch slot fun x => { x with rootReady := true, began := some (s.now 0) }
      some ((s.dispatch k f l.root (s.ctx k).ltime l.asid [] true).latency (dieOf core) 1 l.queue)
    | some (.fault va cause level pte) =>
      let thread := 2 ^ 62 + ((s.ctx k).gen + 1) % 256 * 2 ^ 15 + core
      some (s.unitFault (dieOf core) (32 + clusterOf core % 32) va l.asid 4 (cause, level, pte) true k thread (placeRoot slot)).2
    | some (.trap _ code _ s) => some (s.failLaunch slot code)
    | some _ => none

/-- ROOT_DISPATCH (R248). -/
def execRootDispatch (slot : Nat) (s : State) : Host.Outcome State Fault Refusal := .next ((s.dispatchRoot slot).getD s)

/-- TASKEND (R244): with the task's pins goes its entry in the range-lock table. -/
def execTaskend (s : State) : Host.Outcome State Fault Refusal :=
  s.issue .taskend 0 (tryTaskend fun k s => s.unlock (coreOf k) (pinOf k))

/-- The attempt of `TASKEND` as `settle` makes it again. -/
def retryTaskend : Env → State → Att := tryTaskend fun k s => s.unlock (coreOf k) (pinOf k)

end Sys2Proof.Machine
end

