-- ==== Sys2Proof/Machine/Cache.lean ====
section
/-! DEFINITION. Major 0x18, the CACHE instructions (R325 to R331). None of them writes a register, traps on its address or changes a value
that a program can read. -/

namespace Sys2Proof.Machine

/-- Lines that an L1 of a core holds at most (R118). -/
def State.l1Lines (s : State) (c : Nat) : Nat := l1Bytes (pwL1 (s.core c).pword) / 64

/-- A line comes into a core's L1; the lines brought in longest ago make room, and their dirty bytes are written back (R118, R298). -/
def State.fillL1 (s : State) (c l : Nat) (x : L1Line) : State :=
  let n := s.l1Lines c
  let out := (((s.core c).l1.put l x).drop n).map (·.1)
  (s.spillIf c fun l' _ => out.contains l').modCore c fun y => { y with l1 := (y.l1.put l x).take n }

/-- What the die holds of a line for a prefetch (R326): its address and leaf, or nothing where the prefetch is dropped. -/
def State.prefetchable (s : State) (w : Who) (va : Nat) : Option (Nat × Nat) :=
  if winTag va ≠ 0 then none
  else match s.xlate w .load va 1 with
    | .ok pa pte =>
      if pteKind pte != 0 || pteNC pte || pteBias pte || hostMem pa || s.poisoned pa || s.lockHit (dieOf w.core) (keyOf w.asid pte) va .load
      then none else some (pa, pte)
    | _ => none

/-- The slice of die d at which a line is performed, counted through the package (R285). -/
def sliceOf (d asid pte va : Nat) : Nat := d * 32 + sliceHash (keyOf asid pte) va

/-- A line comes into the slice, and where `toL1` says so into the L1 of the accessor's core (R118, R298); the context's pts stays. A line of
another package is not kept (log 4). -/
def State.fill (s : State) (w : Who) (va pa pte : Nat) (toL1 fetched : Bool) : State :=
  let l := pa / 64
  let d := dieOf w.core
  if !s.local_ pa || (toL1 && ((s.core w.core).l1.find l).isSome) then s
  else
    let s := s.served d w.asid va pa pte (s.readsHome d l (s.ctx w.k).ltime)
    let (line, s, _, lease) := s.sliceRead d l (s.ctx w.k).ltime false
    if toL1 then
      s.fillL1 w.core l { data := s.snooped w.core l line, guest := lease.isSome, wts := (lease.map (·.1)).getD 0, rts := (lease.map (·.2)).getD 0,
                          outside := sliceOf d w.asid pte va != clusterOf w.core, fetched := fetched, va := va / 64 * 64, key := keyOf w.asid pte,
                          dirty := 0, writers := [], pts := 0 }
    else s

/-- PREF (R326): the line is on its way from now on; the access of kind fill that brings it is an event (log 36). -/
def execPref (a b : Reg) (s : State) : Host.Outcome State Fault Refusal :=
  s.issue (.pref a b) 0 fun e s' =>
    let level := b.toNat
    if 1 < level then illegal e s'
    else
      let w := s'.who e.k
      let s' := s'.modCore e.core fun x => { x with pfiss := countUp x.pfiss 1 }
      match if level = 0 && s'.l1Lines e.core == 0 then none else s'.prefetchable w (e.n a) with
      | none => .done [] (s'.modCore e.core fun x => { x with pfdrop := countUp x.pfdrop 1 })
      | some (pa, _) => .done [] ((s'.modCore e.core fun x => { x with coming := x.coming ++ [(e.n a / 64, pa / 64, level == 0)] }).post
          (.translatedAccess { k := e.k, va := e.n a, size := 1, kind := .fill, data := 0 }))

/-- Lines that a slice holds resident at most: 1 MiB (R327). -/
def residentLimit : Nat := 2 ^ 20 / 64

/-- RES takes one line, or drops and counts it (R327). -/
def State.resLine (s : State) (w : Who) (va : Nat) : State :=
  match s.prefetchable w va with
  | none => s.modCore w.core fun x => { x with pfdrop := countUp x.pfdrop 1 }
  | some (pa, pte) =>
    let n := sliceOf (dieOf w.core) w.asid pte va
    let held := (s.cluster n).resident
    if held.any fun e => e.1 == pa / 64 then s
    else if residentLimit ≤ held.length then s.modCore w.core fun x => { x with pfdrop := countUp x.pfdrop 1 }
    else s.modCluster n fun x => { x with resident := (pa / 64, s.slotOf w.core) :: x.resident }

/-- The line that an address names, where it is mapped, with its leaf. -/
def State.lineNamed (s : State) (w : Who) (va : Nat) : Option (Nat × Nat) :=
  if winTag va ≠ 0 then none
  else match s.leaf (dieOf w.core) w.asid va with
    | .leaf pte _ level => some (leafPA pte level va / 64, pte)
    | _ => none

/-- UNRES clears one line's mark (R327). -/
def State.unresLine (s : State) (w : Who) (va : Nat) : State :=
  match s.lineNamed w va with
  | none => s
  | some (l, pte) => s.modCluster (sliceOf (dieOf w.core) w.asid pte va) fun x => { x with resident := x.resident.filter fun e => e.1 != l }

/-- Lines of [va, va + n). -/
def lineCount (va n : Nat) : Nat := if n = 0 then 0 else (va + n - 1) / 64 + 1 - va / 64

/-- Does something for each of n lines from line number l on, in ascending order. -/
def eachLine (f : State → Nat → State) : Nat → Nat → State → State
  | 0, _, s => s
  | n + 1, l, s => eachLine f n (l + 1) (f s (l * 64 % 2 ^ 64))

/-- RES (R327): a range in a scratch window is dropped whole. -/
def execRes (a b : Reg) (s : State) : Host.Outcome State Fault Refusal :=
  s.issue (.res a b) 0 fun e s' =>
    let n := lineCount (e.n a) (e.n b)
    if winTag (e.n a) ≠ 0 then .done [] (s'.modCore e.core fun x => { x with pfdrop := countUp x.pfdrop n })
    else .done [] (eachLine (fun s va => s.resLine (s'.who e.k) va) n (e.n a / 64) s')

/-- UNRES (R327). -/
def execUnres (a b : Reg) (s : State) : Host.Outcome State Fault Refusal :=
  s.issue (.unres a b) 0 fun e s' =>
    if winTag (e.n a) ≠ 0 then .done [] s'
    else .done [] (eachLine (fun s va => s.unresLine (s'.who e.k) va) (lineCount (e.n a) (e.n b)) (e.n a / 64) s')

/-- FLUSH (R328): the dirty bytes of the cluster's copies reach the slice and the copies go; with HOME an owned line is written home and the die's
guest copy goes. -/
def execFlush (a b : Reg) (s : State) : Host.Outcome State Fault Refusal :=
  s.issue (.flush a b) 0 fun e s' =>
    if 1 < b.toNat then illegal e s'
    else match s'.lineNamed (s'.who e.k) (e.n a) with
      | none => .done [] s'
      | some (l, _) =>
        let s' := (s'.spillCluster e.core l none).dropL1 l fun c _ => clusterOf c != clusterOf e.core
        .done [] (if b.toNat = 1 then (s'.writeBack e.die l).dropGuest e.die l else s')

/-- Every die drops the translations that a test names (R290, R329). -/
def State.dropTlb (s : State) (p : Tlb → Bool) : State :=
  (List.range 8).foldl (fun s d => s.modDie d fun x => { x with tlb := x.tlb.filter fun t => !p t }) s

/-- INV (R329). -/
def execInv (a b : Reg) (s : State) : Host.Outcome State Fault Refusal :=
  s.issue (.inv a b) 0 fun e s' =>
    let asid := (s'.ctx e.k).asid
    match b.toNat with
    | 0 => .done [] (match s'.lineNamed (s'.who e.k) (e.n a) with
        | none => s'
        | some (l, _) => (s'.spill e.core l).modCore e.core fun x => { x with l1 := x.l1.del l })
    | 1 => if e.user s' then privileged e s' else .done [] (s'.dropTlb fun t => t.covers asid (e.n a))
    | 2 => if e.user s' then privileged e s' else .done [] (s'.dropTlb fun t => t.asid == some asid)
    | 3 => if e.user s' then privileged e s' else .done [] (s'.dropTlb fun _ => true)
    | _ => illegal e s'

/-- DINV (R330): descriptors read from an address, or with 0 all those of the launch, are read again at their next use. -/
def execDinv (a : Reg) (s : State) : Host.Outcome State Fault Refusal :=
  s.issue (.dinv a) 0 fun e s' =>
    let va := e.n a
    let asid := (s'.ctx e.k).asid
    let slot := s'.slotOf e.core
    let names := fun (owner at_ from_ : Nat) => if va = 0 then owner == slot else at_ == va && from_ == asid
    .done [] { s' with
      regions := s'.regions.map fun (x : Nat × Region) => if names (x.1 / 64) x.2.at_ x.2.asid then (x.1, { x.2 with stale := true }) else x,
      grids := s'.grids.map fun (x : Nat × Grid) => if names (x.1 / 32) x.2.at_ x.2.asid then (x.1, { x.2 with stale := true }) else x }

end Sys2Proof.Machine
end

