-- ==== Sys2Proof/Machine/Sys.lean ====
section
/-! DEFINITION. The trap instructions of the SYS major (R501 to R505), the return from a completion interrupt (R355), bias flips (R318,
R319), and the events of traps and fault replies (R293, R296, R498). -/

namespace Sys2Proof.Machine

/-! ### Traps and returns -/

/-- TRAP (R502): it steps past itself, so the handler resumes after it, with SKIP 0. -/
def execTrap (a : Reg) (s : State) : Host.Outcome State Fault Refusal :=
  s.issue (.trap a) 0 fun e s' =>
    let q := (s'.ctx e.k).win.seq
    .switch ((s'.modCtx e.k fun c => { c with win := { c.win with seq := q + 1 } }).enterTrap e.k (q + 1) 0x14 (e.s a) e.next [])

/-- The windows that a handler opened close: its held results are written (R355, R503). -/
def State.closeHandler (s : State) (k : Nat) : State := (s.ctx k).win.outst.foldl (fun s o => s.wrs k o.writes) s

/-- The places that a cause register marks, counted from the resume place (R60, R496). -/
def skipPlaces (cause : Word) (p : Nat) : List Nat := ((List.range 15).filter fun j => bit cause.toNat (32 + j)).map (· + p + 1)

/-- The frozen windows reopen at the resume address; INH and SKIP are cleared (R503). Places further on than SKIP reaches that were done stay
done. -/
def Ctx.returned (c : Ctx) : Ctx :=
  let w := c.frozenT.getD Win.reset
  { (c.setCause (c.cause &&& ~~~(0x80007FFF00000000 : Word))) with
    pc := c.epc, win := { w with done := skipPlaces c.cause w.seq ++ w.done.filter fun q => decide (w.seq + 15 < q) }, frozenT := none }

/-- ERET (R503). -/
def execEret (s : State) : Host.Outcome State Fault Refusal :=
  s.issue .eret 0 fun e s' =>
    if !bit (s'.ctx e.k).cause.toNat 63 then illegal e s'
    else .switch ((s'.closeHandler e.k).modCtx e.k Ctx.returned)

/-- The interrupted code goes on at UIEPC, ACTIVE cleared (R355). -/
def Ctx.uiReturned (c : Ctx) : Ctx :=
  { c with pc := c.uiepc, uien := c.uien &&& ~~~2, win := c.frozenU.getD Win.reset, frozenU := none }

/-- UIRET (R355). -/
def execUiret (s : State) : Host.Outcome State Fault Refusal :=
  s.issue .uiret 0 fun e s' =>
    if !bit (s'.ctx e.k).uien.toNat 1 then illegal e s'
    else .switch (((s'.closeHandler e.k).modCtx e.k Ctx.uiReturned).post (.completionInterrupt e.k))

/-- The trap that a context has come to is taken (R498): results due are written, the oldest fault due is taken. -/
def execTrapEntry (k : Nat) (s : State) : Host.Outcome State Fault Refusal := .next (s.advance k)

/-! ### Fault replies (R293, R296, R504) -/

/-- A fault handle that R361 gives no unit for, or whose die takes no message. -/
def State.badHandle (s : State) (h : Nat) : Bool :=
  let unit := bits h 40 35
  bits h 62 44 != 0 || bits h 34 32 != 0 || decide (18 ≤ unit ∧ unit ≤ 31) || s.deaf (bits h 43 41)

/-- The checks and the sending of a reply (R504). `ev` is the event by which a thread's reply arrives. -/
def sreply (a : Reg) (code : Nat) (ev : Nat → Event) (e : Env) (s : State) : Att :=
  let w := e.n a
  if e.user s then privileged e s
  else if bit w 63 then
    if s.badHandle w then .trap false 0x10 w s else .done [] (s.post (.unitFaultReply w code))
  else if dstKind w ≠ 1 || dstReserved w then .trap false 0x10 w s
  else .done [] (({ s with replies := s.replies ++ [{ thread := w, code := code }] } : State).post (ev (dstCore w * 8 + bits w 14 12)))

/-- SREPLY RESUME (R504). -/
def execSreplyResume (a : Reg) (s : State) : Host.Outcome State Fault Refusal := s.issue (.sreplyResume a) 0 (sreply a 0 .replyResume)

/-- SREPLY SIGNAL (R504). -/
def execSreplySignal (a : Reg) (s : State) : Host.Outcome State Fault Refusal := s.issue (.sreplySignal a) 0 (sreply a 1 .replySignal)

/-- SREPLY KILL (R504). -/
def execSreplyKill (a : Reg) (s : State) : Host.Outcome State Fault Refusal := s.issue (.sreplyKill a) 0 (sreply a 2 .replyKill)

/-- The context of a thread word. -/
def threadCtx (w : Nat) : Nat := dstCore w * 8 + bits w 14 12

/-- A context waits for this reply (R296): its generation is the one named, and a fault of its is outstanding. -/
def Ctx.awaits (c : Ctx) (r : Reply) : Bool := c.gen == bits r.thread 22 15 && bit c.mbx.toNat 63

/-- The first reply on its way to context k with a code, and the others. -/
def takeReply (k code : Nat) : List Reply → Option (Reply × List Reply)
  | [] => none
  | r :: rs => if threadCtx r.thread = k && r.code == code then some (r, rs) else (takeReply k code rs).map fun x => (x.1, r :: x.2)

/-- The saved launch whose context k waits for a reply. -/
def State.savedAwaiting (s : State) (k : Nat) (r : Reply) : Option Nat :=
  (s.launches.find? fun e => e.2.state == .saved && (match e.2.saved.bind fun v => v.ctxs.find k with
    | some c => c.awaits r
    | none => false)).map (·.1)

/-- A reply reaches its thread (R296): it acts on the context that waits for it, is kept for one that is saved, or is discarded. -/
def State.reply (s : State) (k code : Nat) (act : State → State) : State :=
  match takeReply k code s.replies with
  | none => s
  | some (r, rest) =>
    let s := ({ s with replies := rest } : State).latency (dieOf (coreOf k)) 3 (s.pager (coreOf k))
    if (s.ctx k).awaits r then act (s.modCtx k fun c => { c with mbx := c.mbx &&& ~~~(0x8000000000000000 : Word) })
    else match s.savedAwaiting k r with
      | some n => s.modLaunch n fun l => { l with saved := l.saved.map fun v => { v with replies := v.replies ++ [(k, r.thread, code)] } }
      | none => s

/-- A matrix command whose access has faulted leaves its place: `MLDC` the head of its core's queue, `MSTC` the stores under way (R392, R394). -/
def State.unplace (s : State) (k : Nat) (i : Instr) (w : Wait) : State :=
  let c := coreOf k
  match i with
  | .mldc .. => (s.modCore c fun x => { x with queue := x.queue.tail }).post (.leasedCommandStart (clusterOf c))
  | .mstc .. => s.modCore c fun x => { x with storing := x.storing.filter fun y => !w.aux.tail.contains y.id }
  | _ => s

/-- SIGNAL: the oldest instruction that waits on the fault traps with 0x13 (R293); where it was a fetch, the trap is at the next place. -/
def State.signal (s : State) (k : Nat) : State :=
  let c := s.ctx k
  match c.win.outst.find? fun o => match o.res with
    | .pend _ _ w => w.how == .blocked
    | _ => false with
  | some o => match o.res with
    | .pend i _ w =>
      let res := Res.trap 0x13 (BitVec.ofNat 64 (w.aux.headD 0))
      ((s.unplace k i w).setCtx k { c with win := { c.win with outst := c.win.outst.map fun x => if x.pos = o.pos then { x with res := res } else x } }).advance k
    | _ => s
  | none =>
    if c.retry then
      (s.setCtx k { c with retry := false, state := .running }).enter k c.win.seq 0 c.pc c.pc [] (.trap 0x13 (c.mbx &&& 0x00FFFFFFFFFFFFFF))
    else s

/-- What a reply code does to the thread: RESUME lets the waiting accesses be made again, KILL ends the launch. -/
def State.replied (s : State) (k : Nat) : Nat → State
  | 0 => s
  | 1 => s.signal k
  | _ => s.finishLaunch (s.slotOf (coreOf k)) 1

/-- RESUME reaches a thread (R293). -/
def execReplyResume (k : Nat) (s : State) : Host.Outcome State Fault Refusal := .next (s.reply k 0 fun s => s.replied k 0)

/-- SIGNAL reaches a thread (R293). -/
def execReplySignal (k : Nat) (s : State) : Host.Outcome State Fault Refusal := .next (s.reply k 1 fun s => s.replied k 1)

/-- KILL reaches a thread (R293). -/
def execReplyKill (k : Nat) (s : State) : Host.Outcome State Fault Refusal := .next (s.reply k 2 fun s => s.replied k 2)

/-! ### WFI (R505) -/

/-- The counter whose completion interrupt is pending for context k: the lowest-numbered one (R353). -/
def State.pendingCounter (s : State) (k : Nat) : Option Nat :=
  (List.range 128).find? fun n => match (s.core (coreOf k)).counters.find n with
    | some x => x.uip && x.armer == k && x.armerGen == (s.ctx k).gen
    | none => false

/-- An event of R505 has come. -/
def State.awake (s : State) (k : Nat) : Bool :=
  let c := coreOf k
  ((List.range 64).any fun n => s.ready c n) || (s.pendingCounter k).isSome ||
    ((s.core c).recv.any fun m => bit (s.ctx k).hold m.cls)

/-- An attempt of `WFI`: it completes on an event of R505 or after 64 us. -/
def tryWfi (e : Env) (s : State) : Att :=
  let t := e.until s 64000
  if s.awake e.k || s.passed e.die t then .done [] s else parked t [] s

/-- WFI (R505). -/
def execWfi (s : State) : Host.Outcome State Fault Refusal := s.issue .wfi 0 tryWfi

/-! ### Bias flips (R318, R319) -/

/-- Lines of a physical range are in a page. -/
def inPage (base size l : Nat) : Bool := decide (base ≤ l * 64 ∧ l * 64 < base + size)

/-- Every die writes back and drops its L1, owned and guest copies of a page's lines (R319). -/
def State.dropPage (s : State) (base size : Nat) : State :=
  let s := s.spillAll fun _ l => inPage base size l
  let s := (List.range 8).foldl (fun s d =>
    let ls := ((s.die d).owned.map (·.1)).filter (inPage base size)
    (ls.foldl (fun s l => s.writeBack d l) s).modDie d fun x =>
      { x with owned := x.owned.filter fun (e : Nat × Owned) => !inPage base size e.1,
               guest := x.guest.filter fun (e : Nat × Guest) => !inPage base size e.1 }) s
  { s with cores := s.cores.map fun (e : Nat × Core) => (e.1, { e.2 with l1 := e.2.l1.filter fun (x : Nat × L1Line) => !inPage base size x.1 }) }

/-- The leaf at an address takes a bias, and the page's translations go (R319 steps 4 and 5). -/
def State.writeBias (s : State) (at_ : Nat) (host : Bool) : State :=
  let l := at_ / 64
  let s := if s.local_ at_ then (s.recall l) else s
  let pte := setBits (s.mem.readN at_ 8) 6 1 (ofBool host)
  let s := if s.local_ at_ then (s.stampWrite l 0).1 else s
  let s := ({ s with mem := s.mem.writeN at_ 8 pte }.dropL1 l fun _ _ => false)
  s.dropTlb fun t => t.pteAt == at_

/-- The page that a leaf maps: its first address and its size. -/
def pageOf (pte level : Nat) : Nat × Nat := (leafPA pte level 0, pageSize level)

/-- The flip of a page is complete: its bias is written and its stalled accesses go on. -/
def State.flipDone (s : State) (at_ : Nat) (host : Bool) : State :=
  { s.writeBias at_ host with flips := s.flips.filter fun f => f.pteAt != at_ }

/-- Begins a flip to device bias: the host is asked to write its lines back, and the page's accesses stall (R319). -/
def State.flipAsk (s : State) (at_ base size seq : Nat) (k : Option Nat) : State :=
  ({ s with flips := s.flips ++ [{ pteAt := at_, base := base, size := size, ctx := k, seq := seq, done := false }] } : State).post
    (.hostWritebackCompletion base)

/-- An attempt of `BIASFLIP` (R319). Flips of one page are performed one after the other. -/
def tryBiasflip (a : Reg) (host : Bool) (e : Env) (s : State) : Att :=
  let va := e.n a
  if e.user s then privileged e s
  else if winTag va ≠ 0 then .trap false 0x04 va s
  else match s.leaf e.die (s.ctx e.k).asid va with
    | .leaf pte at_ level =>
      match s.flips.find? fun f => f.pteAt == at_ with
      | some f =>
        if f.ctx = some e.k then (if f.done then .done [] (s.flipDone at_ host) else stalled s) else stalled s
      | none =>
        if pteBias pte = host then .done [] s
        else
          let (base, size) := pageOf pte level
          if host then .done [] ((s.dropPage base size).flipDone at_ true)
          else stalled (s.flipAsk at_ base size 0 (some e.k))
    | _ => .trap true 0x13 va s

/-- BIASFLIP HOST (R319). -/
def execBiasflipHost (a : Reg) (s : State) : Host.Outcome State Fault Refusal := s.issue (.biasflipHost a) 0 (tryBiasflip a true)

/-- BIASFLIP DEVICE (R319). -/
def execBiasflipDevice (a : Reg) (s : State) : Host.Outcome State Fault Refusal := s.issue (.biasflipDevice a) 0 (tryBiasflip a false)

/-- The host has written back and dropped its lines of a page (R319): an instruction that waits for it goes on; for a host command the flip
ends here. -/
def execHostWritebackCompletion (page : Nat) (s : State) : Host.Outcome State Fault Refusal :=
  match s.flips.find? fun f => f.base == page && !f.done with
  | none => .next s
  | some f =>
    match f.ctx with
    | some _ => .next { s with flips := s.flips.map fun x => if x = f then { x with done := true } else x }
    | none => .next ((s.flipDone f.pteAt false).commandDone f.seq 0xFFFF 0)

end Sys2Proof.Machine
end

