-- ==== Sys2Proof/Machine/Eng.lean ====
section
/-! DEFINITION. The ENG major (R333 to R368): the issue of `COPY`, `COPYM`, `GET` and `PUT`, the streamers that serve them, completion
counters and their interrupts, and the replies to faults that units hold. -/

namespace Sys2Proof.Machine

/-! ### Parameter blocks (R337 to R339) -/

/-- A field of n bytes at byte o of a block. -/
def blk (b o n : Nat) : Nat := b / 2 ^ (8 * o) % 2 ^ (8 * n)

/-- Common fields of a block (R337). -/
def blkUipc (b : Nat) : Nat := blk b 48 8
def blkTag (b : Nat) : Nat := blk b 56 4
def blkNotify (b : Nat) : Nat := blk b 60 4

/-- DST and SRC of a block; ESIZE, COUNT and the index list of a `GET` or `PUT`. -/
def blkDst (b : Nat) : Nat := blk b 0 8
def blkSrc (b : Nat) : Nat := blk b 8 8
def blkLen (b : Nat) : Nat := blk b 16 8
def blkMask (b : Nat) : Nat := blk b 24 2
def blkEsize (b : Nat) : Nat := blk b 16 4
def blkCount (b : Nat) : Nat := blk b 20 4
def blkList (b : Nat) : Nat := blk b 24 8

/-- V, class and core of NOTIFY. -/
def notV (w : Nat) : Bool := bit w 31
def notClass (w : Nat) : Nat := bits w 29 24
def notCore (w : Nat) : Nat := bits w 11 0

/-- A reserved bit of the block is set, or a field lies outside its row (R337, R338). -/
def badBlock (op : XferOp) (b : Nat) : Bool :=
  let n := blkNotify b
  blkUipc b % 2 == 1 || bit n 30 || bits n 23 12 != 0 ||
    (match op with
      | .copy => blkLen b == 0 || decide (2 ^ 32 < blkLen b) || blk b 24 24 != 0
      | .copym => blkLen b == 0 || decide (65536 < blkLen b) || blk b 26 22 != 0 || notV n
      | .get => notV n || !([1, 2, 4, 8, 16, 32, 64].contains (blkEsize b)) || blkCount b == 0 || decide (256 < blkCount b) || blk b 32 16 != 0
      | .put => !([1, 2, 4, 8, 16, 32, 64].contains (blkEsize b)) || blkCount b == 0 || decide (256 < blkCount b) || blk b 32 16 != 0
      | .dense => notV n)

/-- The bytes that a contiguous operand spans. -/
def blkBytes (op : XferOp) (b : Nat) : Nat := match op with
  | .get | .put => blkEsize b * blkCount b
  | .copy | .copym => blkLen b
  | .dense => 0

/-- The windows of R339: all four, those of the issuing core, or one. -/
def winAll : List Nat := [0, 0xF0, 0xF1, 0xF2]
def winOwn : List Nat := [0, 0xF0, 0xF1]

/-- The operands of a block with their lengths and windows, contiguous ones marked, in the order of the block. -/
def operands (op : XferOp) (b : Nat) : List (Nat × Nat × List Nat) :=
  let n := blkBytes op b
  match op with
  | .copy => [(blkDst b, n, winAll), (blkSrc b, n, winAll)]
  | .copym => [(blkDst b, n, [0xF0]), (blkSrc b, n, [0])]
  | .get => [(blkDst b, n, winOwn), (blkSrc b, 1, winAll), (blkList b, 4 * blkCount b, winOwn)]
  | .put => [(blkDst b, 1, winAll), (blkSrc b, n, winOwn), (blkList b, 4 * blkCount b, winOwn)]
  | .dense => []

/-- The first address of an operand, or of a last byte, whose window an operation does not accept (R338). Addresses wrap modulo 2^64 (R342). -/
def badWindow (l : List (Nat × Nat × List Nat)) : Option Nat :=
  (l.flatMap fun x => [(x.1, x.2.2), ((x.1 + x.2.1 - 1) % 2 ^ 64, x.2.2)]).findSome? fun y => if y.2.contains (winTag y.1) then none else some y.1

/-- The first contiguous operand that begins in the issuing core's scratch and goes beyond its carve-out (R338); indexed bases are checked where
they are performed. -/
def State.badCarve (s : State) (c : Nat) (op : XferOp) (b : Nat) : Option Nat :=
  let l : List (Nat × Nat) := match op with
    | .get => [(blkDst b, blkBytes op b), (blkList b, 4 * blkCount b)]
    | .put => [(blkSrc b, blkBytes op b), (blkList b, 4 * blkCount b)]
    | _ => (operands op b).map fun x => (x.1, x.2.1)
  (l.find? fun x => (winTag x.1 == 0xF0 || winTag x.1 == 0xF1) && !s.scratchIn c x.1 x.2).map (·.1)

/-- The checks of R338 on a block that has been read, in order, up to those of `DENSE`: the trap and its value. -/
def State.blockTrap (s : State) (e : Env) (op : XferOp) (at_ b : Nat) : Option (Nat × Nat) :=
  let n := blkNotify b
  if badBlock op b then some (0x01, at_)
  else if notV n && decide (notClass n ≤ 3) && e.user s then some (0x02, at_)
  else if notV n && s.isService (notCore n) then some (0x10, n)
  else match badWindow (operands op b) with
    | some va => some (0x04, va)
    | none => match s.badCarve e.core op b with
      | some va => some (0x0C, va)
      | none =>
        let d := blkDst b
        let r := blkSrc b
        if op = .copy && winTag d == winTag r && decide (d < r + blkLen b) && decide (r < d + blkLen b) then some (0x01, at_) else none

/-! ### Issue (R340, R341) -/

/-- A range to register, where the operand is translated (R356, R357). -/
def State.lockRange (s : State) (w : Who) (va n : Nat) (dest : Bool) : List (Nat × Nat × Nat × Bool) :=
  if winTag va ≠ 0 || n = 0 then []
  else
    let key := match s.leaf (dieOf w.core) w.asid va with
      | .leaf pte _ _ => keyOf w.asid pte
      | _ => w.asid
    let r := lineRange va n
    [(key, r.1, r.2, dest)]

/-- Index j of a list read as a number. -/
def idxAt (l j : Nat) : Nat := blk l (4 * j) 4

/-- The greatest index of a list (R357). -/
def maxIdx (l n : Nat) : Nat := (List.range n).foldl (fun m j => max m (idxAt l j)) 0

/-- The registration of a transfer (R357). -/
def State.rangesOf (s : State) (w : Who) (op : XferOp) (b l : Nat) : List (Nat × Nat × Nat × Bool) :=
  let n := blkBytes op b
  let span := (maxIdx l (blkCount b) + 1) * blkEsize b
  match op with
  | .copy => s.lockRange w (blkSrc b) n false ++ s.lockRange w (blkDst b) n true
  | .copym => s.lockRange w (blkSrc b) n false
  | .get => s.lockRange w (blkSrc b) span false ++ s.lockRange w (blkDst b) n true ++ s.lockRange w (blkList b) (4 * blkCount b) false
  | .put => s.lockRange w (blkSrc b) n false ++ s.lockRange w (blkDst b) span true ++ s.lockRange w (blkList b) (4 * blkCount b) false
  | .dense => []

/-- The cluster streamer of a core, numbered through the package. -/
def clusterUnit (c : Nat) : Nat := dieOf c * 64 + 32 + clusterOf c % 32

/-- The streamer that serves a piece whose source lies at va (R333, R341). A segment whose translation does not answer stays with the issuing
cluster's streamer. -/
def State.unitFor (s : State) (w : Who) (va : Nat) : Nat :=
  match winTag va with
  | 0 => match s.xlate w .engRead va 1 with
    | .ok pa _ => if s.local_ pa then homeDie pa * 64 + bits pa 19 16 else clusterUnit w.core
    | _ => clusterUnit w.core
  | 0xF2 => clusterUnit (bits va 55 44)
  | _ => clusterUnit w.core

/-- A fresh request; its transfer's record is filled in as the transfer takes one. -/
def newReq (op : XferOp) (core src dst n : Nat) : Req :=
  { op := op, core := core, xfer := 0, src := src, dst := dst, n := n, pos := 0, fault := none, idx := none, shard := 0 }

/-- The segments of a translated source, split at every 64 KiB (R341). -/
def segments (core : Nat) : Nat → Nat → Nat → Nat → List Req
  | 0, _, _, _ => []
  | fuel + 1, src, dst, n =>
    if n = 0 then []
    else
      let m := min n (65536 - src % 65536)
      newReq .copy core src dst m :: segments core fuel (src + m) (dst + m) (n - m)

/-- The requests of a transfer, each with its unit (R341). -/
def State.requests (s : State) (w : Who) (op : XferOp) (b : Nat) : List (Nat × Req) :=
  let n := blkBytes op b
  match op with
  | .copy =>
    if winTag (blkSrc b) = 0 then (segments w.core (n / 65536 + 2) (blkSrc b) (blkDst b) n).map fun r => (s.unitFor w r.src, r)
    else [(s.unitFor w (blkSrc b), newReq .copy w.core (blkSrc b) (blkDst b) n)]
  | .copym => if blkMask b = 0 then [] else [(clusterUnit w.core, newReq .copym w.core (blkSrc b) (blkDst b) n)]
  | .get => [(if winTag (blkSrc b) = 0xF2 then clusterUnit (bits (blkSrc b) 55 44) else clusterUnit w.core, newReq .get w.core (blkSrc b) (blkDst b) (blkCount b))]
  | .put => [(if winTag (blkDst b) = 0xF2 then clusterUnit (bits (blkDst b) 55 44) else clusterUnit w.core, newReq .put w.core (blkSrc b) (blkDst b) (blkCount b))]
  | .dense => []

/-- The bytes that a transfer counts (R342). -/
def countedBytes (op : XferOp) (b : Nat) : Nat := match op with
  | .copym => blkLen b * popcount 16 (blkMask b)
  | _ => blkBytes op b

/-- The lowest free transfer record of a core (R340). -/
def State.freeXfer (s : State) (c : Nat) : Option Nat := (List.range 128).find? fun i => ((s.core c).xfers.find i).isNone

/-- The record of a transfer by context e. -/
def State.newXfer (s : State) (e : Env) (op : XferOp) (cc b dst src n bytes pieces : Nat) : Xfer :=
  let c := s.ctx e.k
  { op := op, ctx := e.k, gen := c.gen, sup := c.sup, asid := c.asid, cc := cc, dst := dst, src := src, n := n, esize := blkEsize b,
    list := blkList b, mask := blkMask b, lo := 0, hi := 0, pts := c.ltime, slot := s.slotOf e.core, tag := blkTag b,
    uipc := BitVec.ofNat 64 (blkUipc b), notify := blkNotify b, sender := s.senderBits e.k, owed := bytes, pieces := pieces, acked := c.ltime, error := none }

/-- The transfer of an instruction whose block has passed its checks takes a free record and stands among those that are to register; the instruction
has its result (R336, R340). While no record is free, and while the launch is being saved, nothing issues. A transfer of no request registers at
once. -/
def beginXfer (d : Reg) (x : Xfer) (ranges : List (Nat × Nat × Nat × Bool)) (reqs : List (Nat × Req)) (e : Env) (s : State) : Att :=
  let c := e.core
  let v := [Wr.s d (BitVec.ofNat 64 x.owed)]
  if e.halted s then stopped s
  else if reqs.isEmpty then .done v (s.register c x.cc x.uipc x.tag)
  else match s.freeXfer c with
    | none => stopped s
    | some id =>
      let reqs := reqs.map fun r => (r.1, { r.2 with xfer := id })
      let s := s.modCore c fun y => { y with xfers := y.xfers.put id x }
      let q : Issuing := { ctx := e.k, gen := (s.ctx e.k).gen, pos := e.pos, req := { core := c, xfer := id, ranges := ranges, reqs := reqs } }
      .done v ((s.modDie e.die fun y => { y with issuing := y.issuing ++ [q] }).post (.rangeLockGrant e.die))

/-- The part of an engine instruction's attempt that all five operations share (R338): the block is read and checked, and `go` does the rest. -/
def engineIssue (a : Reg) (op : XferOp) (e : Env) (s : State) (go : Nat → State → Att) : Att :=
  let at_ := e.n a
  if at_ % 64 ≠ 0 then .trap false 0x03 at_ s
  else if !winOwn.contains (winTag at_) then .trap false 0x04 at_ s
  else snapshot 0 e s (s.plainRead (s.who e.k) .load at_ 64) fun b s => match s.blockTrap e op at_ b with
    | some (code, val) => .trap true code val s
    | none => go b s

/-- An attempt of `COPY`, `COPYM`, `GET` or `PUT`. -/
def tryEngine (op : XferOp) (d a : Reg) (cc : Nat) (e : Env) (s : State) : Att :=
  engineIssue a op e s fun b s =>
    let w := s.who e.k
    let go := fun (l : Nat) (s : State) =>
      let reqs := s.requests w op b
      beginXfer d (s.newXfer e op cc b (blkDst b) (blkSrc b) (blkBytes op b) (countedBytes op b) reqs.length) (s.rangesOf w op b l) reqs e s
    if op = .get || op = .put then snapshot 1 e s (s.plainRead w .load (blkList b) (4 * blkCount b)) go else go 0 s

/-- COPY (R336, R342). -/
def execCopy (l : La) (d a : Reg) (n : BitVec 7) (s : State) : Host.Outcome State Fault Refusal :=
  s.issue (.copy l d a n) l.toNat (tryEngine .copy d a n.toNat)

/-- COPYM (R336, R342). -/
def execCopym (l : La) (d a : Reg) (n : BitVec 7) (s : State) : Host.Outcome State Fault Refusal :=
  s.issue (.copym l d a n) l.toNat (tryEngine .copym d a n.toNat)

/-- GET (R336, R342). -/
def execGet (l : La) (d a : Reg) (n : BitVec 7) (s : State) : Host.Outcome State Fault Refusal :=
  s.issue (.get l d a n) l.toNat (tryEngine .get d a n.toNat)

/-- PUT (R336, R342). -/
def execPut (l : La) (d a : Reg) (n : BitVec 7) (s : State) : Host.Outcome State Fault Refusal :=
  s.issue (.put l d a n) l.toNat (tryEngine .put d a n.toNat)

/-! ### Engine accesses to any window (R343, R366) -/

/-- The accessor of a transfer: the mode and address space of its context. -/
def Xfer.who (x : Xfer) (core : Nat) : Who := { k := x.ctx, core := core, asid := x.asid, sup := x.sup, unit := false }

/-- The error of an engine's access to scratch: beyond the pool it names, or on a lost die (R123 to R126, R364, R366). -/
def State.engScratch (s : State) (c va n : Nat) : Option Nat :=
  let inside :=
    if winTag va = 0xF2 then
      let t := bits va 55 44
      !s.isService t && decide (bits va 43 0 + n ≤ s.scratchBytes t)
    else s.scratchIn c va n
  if winTag va = 0xF2 && (s.die (dieOf (bits va 55 44))).lost then some 0x11 else if inside then none else some 0x0C

/-- An engine's read of n bytes for core c. -/
def State.engLoad (s : State) (w : Who) (p va n : Nat) : MemRes :=
  match winTag va with
  | 0 =>
    match s.engStop w .engRead va n with
    | some r => r
    | none => let (x, s) := s.engRead w p (linesOf va n); .ok x s
  | 0xF0 | 0xF1 | 0xF2 => match s.engScratch w.core va n with
    | some code => .trap true code va s
    | none => .ok (if winTag va = 0xF2 then (s.core (bits va 55 44)).scratch.readN (bits va 43 0) n else s.readScratch w.core va n) s
  | _ => .trap true 0x0C va s

/-- An engine's write of n bytes for core c; it answers the greatest wts. -/
def State.engStore (s : State) (w : Who) (p va n x : Nat) : MemRes :=
  match winTag va with
  | 0 =>
    match s.engStop w .engWrite va n with
    | some r => r
    | none => let (s, t) := s.engWrite w p (linesOf va n) x p; .ok t s
  | 0xF0 | 0xF1 | 0xF2 => match s.engScratch w.core va n with
    | some code => .trap true code va s
    | none => .ok p (if winTag va = 0xF2 then s.modCore (bits va 55 44) fun y => { y with scratch := y.scratch.writeN (bits va 43 0) n x }
        else s.writeScratch w.core va n x)
  | _ => .trap true 0x0C va s

/-- What the service of a piece comes to. -/
inductive Served where
  | all
  | fault (write : Bool) (va cause level pte : Nat)
  | error (code : Nat)
  | stall
  deriving DecidableEq, Repr

/-- What stopped an access, for a read or a write. -/
def Served.of (write : Bool) : MemRes → Served
  | .fault va cause level pte => .fault write va cause level pte
  | .trap _ code _ _ => .error code
  | _ => .stall

/-- The state after an access that has not gone through. -/
def MemRes.state (s : State) : MemRes → State
  | .ok _ s' => s'
  | .trap _ _ _ s' => s'
  | _ => s

/-- Moves n bytes in order, in runs that lie in one line on either side: how far it came, the greatest wts, and why it stopped (R362). -/
def State.moveBytes (s : State) (w : Who) (p src dst : Nat) : Nat → Nat → Nat → Nat → State × Nat × Nat × Served
  | 0, _, done, t => (s, done, t, .stall)
  | fuel + 1, n, done, t =>
    if n = 0 then (s, done, t, .all)
    else
      let a := (src + done) % 2 ^ 64
      let b := (dst + done) % 2 ^ 64
      let m := min n (min (64 - a % 64) (64 - b % 64))
      match s.engLoad w p a m with
      | .ok x s => match s.engStore w p b m x with
        | .ok t' s => s.moveBytes w p src dst fuel (n - m) (done + m) (serialMax 24 t t')
        | r => (r.state s, done, t, Served.of true r)
      | r => (r.state s, done, t, Served.of false r)

/-! ### Service of requests (R335, R342, R361 to R367) -/

/-- Requests of a unit. -/
def State.inboxOf (s : State) (d u : Nat) : List Req := Tab.get [] (s.die d).inbox u

/-- The requests of a unit replaced. -/
def State.setInbox (s : State) (d u : Nat) (l : List Req) : State := s.modDie d fun x => { x with inbox := x.inbox.put u l }

/-- The first request of a list for an operation that no fault holds. -/
def firstReq (op : XferOp) : Nat → List Req → Option (Nat × Req)
  | _, [] => none
  | i, r :: rs => if r.op = op && r.fault.isNone then some (i, r) else firstReq op (i + 1) rs

/-- The transfer of a request. -/
def State.xferOf (s : State) (r : Req) : Option Xfer := (s.core r.core).xfers.find r.xfer

/-- The i-th request of a unit changed, or gone. -/
def State.putReq (s : State) (d u i : Nat) (r : Req) : State := s.setInbox d u ((s.inboxOf d u).set i r)

/-- Request i of a unit has been served: the next one that the unit can serve takes its place (R335). -/
def State.dropReq (s : State) (d u i : Nat) : State :=
  let l := (s.inboxOf d u).eraseIdx i
  let s := s.setInbox d u l
  match l[inboxServed - 1]? with
  | some r => s.post (r.event d u)
  | none => s

/-- What a fault held by a streamer waits for: a request of its inbox. -/
def placeInbox : Nat := 0

/-- A request stops on a fault: it is posted and the request waits (R361). -/
def State.reqFault (s : State) (d u i : Nat) (r : Req) (x : Xfer) (write : Bool) (va cause level pte : Nat) : State :=
  let thread := 2 ^ 62 + x.gen % 256 * 2 ^ 15 + x.ctx % 8 * 2 ^ 12 + r.core
  let (key, s) := s.unitFault d u va x.asid (if write then 5 else 4) (cause, level, pte) (!x.sup) x.ctx thread placeInbox
  s.putReq d u i { r with fault := some key }

/-- A request has been served as far as `served` says, `bytes` of it counting with a wts: it goes on, ends, waits, or ends in error. -/
def State.reqEnd (s : State) (d u i : Nat) (r : Req) (x : Xfer) (bytes wts : Nat) (more : Bool) : Served → State
  | .all =>
    if more then ((s.putReq d u i r).ack r.core r.xfer bytes wts false none).post (r.event d u)
    else (s.dropReq d u i).ack r.core r.xfer bytes wts true none
  | .fault write va cause level pte => ((s.ack r.core r.xfer bytes wts false none).putReq d u i r).reqFault d u i r x write va cause level pte
  | .error code => (s.dropReq d u i).ack r.core r.xfer bytes wts true (some code)
  | .stall => if bytes = 0 then s.putReq d u i r else (s.putReq d u i r).ack r.core r.xfer bytes wts false none

/-- The pieces of a transfer stop (R367). Those accepted before a refused one run on (R335). -/
def Xfer.halts (x : Xfer) : Bool := x.error.isSome && x.error != some 0x0D

/-- Serves the first request of an operation among those that a unit serves at once: one of a transfer that has ended in error stops (R335, R367). -/
def State.serve (s : State) (d u : Nat) (op : XferOp) (f : Nat → Req → Xfer → State → State) : State :=
  match firstReq op 0 ((s.inboxOf d u).take inboxServed) with
  | none => s
  | some (i, r) =>
    match s.xferOf r with
    | none => s.dropReq d u i
    | some x => if x.halts then (s.dropReq d u i).ack r.core r.xfer 0 x.pts true none else f i r x s

/-- COPY_SEGMENT (R341, R342, R362). A translated segment is sent on to the memory streamer of its source, from the issuing cluster's once it
translates. -/
def execCopySegment (die unit : Nat) (s : State) : Host.Outcome State Fault Refusal :=
  .next <| s.serve die unit .copy fun i r x s =>
    let w := x.who r.core
    let u := s.unitFor w (r.src + r.pos)
    if winTag r.src = 0 && die * 64 + unit != u && u % 64 < 32 then (s.dropReq die unit i).inject (u / 64) (u % 64) r
    else
      let n := r.n - r.pos
      let (s, done, t, stop) := s.moveBytes w x.pts (r.src + r.pos) (r.dst + r.pos) (n + 1) n 0 x.pts
      s.reqEnd die unit i { r with pos := r.pos + done } x done t false stop

/-- Writes a unit of a multicast into the private scratch of the masked cores of a cluster. -/
def State.multicast (s : State) (cl mask off n x : Nat) : State :=
  (List.range 16).foldl (fun s i =>
    if bit mask i then s.modCore (cl * 16 + i) fun y => { y with scratch := y.scratch.writeN off n x } else s) s

/-- A multicast may not be sent: a masked core is a service core, or its scratch ends too early (R366). -/
def State.badMulticast (s : State) (cl mask off n : Nat) : Bool :=
  (List.range 16).any fun i => bit mask i && (s.isService (cl * 16 + i) || decide (s.scratchBytes (cl * 16 + i) < off + n))

/-- Units of a multicast that may be outstanding (R341). -/
def unitsOut : Nat := 16

/-- Packets of a transfer in its cluster's hold. -/
def State.unitsHeld (s : State) (cl core xfer : Nat) : Nat := ((s.cluster cl).residual.filter fun p => p.core == core && p.xfer == xfer).length

/-- COPYM_UNIT (R341, R342, R476, R536): the stream's next unit of 128 bytes is read at its home and its packet sent to the cluster's router; it waits
while 16 of the stream are outstanding. Its faults are held by the issuing cluster's streamer (log 96). -/
def execCopymUnit (die unit : Nat) (s : State) : Host.Outcome State Fault Refusal :=
  .next <| s.serve die unit .copym fun i r x s =>
    let w := x.who r.core
    let n := min (r.n - r.pos) (128 - (r.src + r.pos) % 128)
    let off := winOff (r.dst + r.pos)
    let cl := clusterOf r.core
    if unitsOut ≤ s.unitsHeld cl r.core r.xfer then s
    else if s.badMulticast cl x.mask off n then s.reqEnd die unit i r x 0 x.pts false (.error 0x0C)
    else match s.engLoad w x.pts (r.src + r.pos) n with
      | .ok v s =>
        let s := (s.modCluster cl fun y =>
          { y with residual := y.residual ++ [{ mask := x.mask, off := off, len := n, data := v, core := r.core, xfer := r.xfer }] }).post (.residualHoldSend cl)
        let r := { r with pos := r.pos + n }
        s.reqEnd die unit i r x 0 x.pts (decide (r.pos < r.n)) .all
      | m => (m.state s).reqEnd die unit i r x 0 x.pts false (Served.of false m)

/-- RESIDUAL_HOLD_SEND (R476): the oldest packet in the hold reaches its cores, which acknowledge its bytes (R345). -/
def execResidualHoldSend (cluster : Nat) (s : State) : Host.Outcome State Fault Refusal :=
  match (s.cluster cluster).residual with
  | [] => .next s
  | p :: ps =>
    let s := (s.modCluster cluster fun y => { y with residual := ps }).post (.copymUnit (cluster / 32) (32 + cluster % 32))
    let pts := match (s.core p.core).xfers.find p.xfer with
      | some x => x.pts
      | none => 0
    .next ((s.multicast cluster p.mask p.off p.len p.data).ack p.core p.xfer (p.len * popcount 16 p.mask) pts false none)

/-- Elements j to m of a list, delivered in order (R342, R363): how far it came, the greatest wts, and why it stopped. An element that its index sends
out of its base's window has no address, and ends the transfer (R338, R366). -/
def State.elements (s : State) (w : Who) (p esize : Nat) (addr : Nat → Option (Nat × Nat)) : Nat → Nat → Nat → State × Nat × Nat × Served
  | 0, j, t => (s, j, t, .all)
  | n + 1, j, t => match addr j with
    | none => (s, j, t, .error 0x0C)
    | some (src, dst) => match s.engLoad w p src esize with
      | .ok x s => match s.engStore w p dst esize x with
        | .ok t' s => s.elements w p esize addr n (j + 1) (serialMax 24 t t')
        | r => (r.state s, j, t, Served.of true r)
      | r => (r.state s, j, t, Served.of false r)

/-- The address of element j from a base by an index list, in the base's window or not at all. -/
def indexed (base l esize j : Nat) : Option Nat :=
  let va := (base + idxAt l j * esize) % 2 ^ 64
  if winTag va = winTag base && winTag (va + esize - 1) = winTag base then some va else none

/-- One chunk of 16 elements of a `GET` or `PUT` (R341, R363). The unit reads the index list before the first. -/
def State.chunk (s : State) (d u i : Nat) (r : Req) (x : Xfer) (addr : Nat → Nat → Option (Nat × Nat)) : State :=
  let w := x.who r.core
  match r.idx with
  | none => match s.engLoad w x.pts x.list (4 * r.n) with
    | .ok l s => (s.putReq d u i { r with idx := some l }).post (r.event d u)
    | m => (m.state s).reqEnd d u i r x 0 x.pts false (Served.of false m)
  | some l =>
    let (s, j, t, stop) := s.elements w x.pts x.esize (addr l) (min 16 (r.n - r.pos)) r.pos x.pts
    s.reqEnd d u i { r with pos := j } x ((j - r.pos) * x.esize) t (decide (j < r.n)) stop

/-- GET_CHUNK (R342, R363). -/
def execGetChunk (die unit : Nat) (s : State) : Host.Outcome State Fault Refusal :=
  .next <| s.serve die unit .get fun i r x s =>
    s.chunk die unit i r x fun l j => (indexed r.src l x.esize j).map fun va => (va, (r.dst + j * x.esize) % 2 ^ 64)

/-- PUT_CHUNK (R342, R363). -/
def execPutChunk (die unit : Nat) (s : State) : Host.Outcome State Fault Refusal :=
  .next <| s.serve die unit .put fun i r x s =>
    s.chunk die unit i r x fun l j => (indexed r.dst l x.esize j).map fun va => ((r.src + j * x.esize) % 2 ^ 64, va)

/-! ### Counters (R345 to R351, R367) -/

/-- The counter word (R351). -/
def Counter.word (x : Counter) : Nat :=
  ofBool x.err * 2 ^ 63 + ofBool x.done * 2 ^ 62 + ofBool x.armed * 2 ^ 61 + ofBool x.uip * 2 ^ 60 + x.code % 256 * 2 ^ 48 + x.value % 2 ^ 48

/-- A counter completes where it is armed and its value is 0, or was 0 as a byte counted, or it has ERR (R347). -/
def State.checkCounter (s : State) (c n : Nat) (crossed : Bool) : State :=
  let x := s.counter c n
  if x.armed && (x.value == 0 || crossed || x.err) then
    let lives := (s.ctx x.armer).gen == x.armerGen && (s.ctx x.armer).state != .free
    let uip := x.uipc != 0 && lives
    let s := s.setCounter c n { x with armed := false, done := true, uip := uip }
    if uip then s.post (.completionInterrupt x.armer) else s
  else s

/-- The NOTIFY message of a transfer that has ended well (R345). -/
def Xfer.notifyMsg (x : Xfer) : Msg :=
  { dst := notCore x.notify, cls := notClass x.notify, sent := notClass x.notify, nc := 4, len := 24, payload := x.dst + x.tag * 2 ^ 64 + x.n % 2 ^ 64 * 2 ^ 128, hsrc := false,
    sender := x.sender, reason := 0, slot := x.slot, pts := x.acked, bound := none, born := 0, spilled := false }

/-- A transfer whose pieces have all stopped ends: its NOTIFY goes out if it ended well, its record and entries are released (R345, R367). -/
def State.endXfer (s : State) (c id : Nat) (x : Xfer) : State :=
  let inHold := (s.cluster (clusterOf c)).residual.any fun p => p.core == c && p.xfer == id
  let onTheWay := s.acks.any fun a => a.core == c && a.xfer == id
  if x.pieces = 0 && (x.owed = 0 || (x.error.isSome && !inHold && !onTheWay)) then
    let s := (s.modCore c fun y => { y with xfers := y.xfers.del id }).unlock c id
    if x.error.isNone && notV x.notify then s.send x.notifyMsg else s
  else s.modCore c fun y => { y with xfers := y.xfers.put id x }

/-- What an acknowledgement does to a counter (R346, R367). -/
def Counter.take (y : Counter) (a : Ack) (x : Xfer) : Counter :=
  let y := { y with value := (y.value + (2 ^ 48 - a.bytes % 2 ^ 48)) % 2 ^ 48, ccwts := if a.bytes = 0 then y.ccwts else serialMax 24 y.ccwts a.wts }
  match a.error with
  | some code => { y with err := true, code := if y.err then y.code else code, tag := x.tag, uipc := if x.uipc = 0 then y.uipc else x.uipc }
  | none => y

/-- An acknowledgement of core c taken in (R345, R346). -/
def State.takeAck (s : State) (a : Ack) : State :=
  match (s.core a.core).xfers.find a.xfer with
  | none => s
  | some x =>
    let x' := { x with owed := x.owed - a.bytes, pieces := if a.last then x.pieces - 1 else x.pieces,
                       acked := if a.bytes = 0 then x.acked else serialMax 24 x.acked a.wts,
                       error := if x.error.isSome && (x.halts || a.error.isNone) then x.error else a.error }
    let y := s.counter a.core x.cc
    ((s.setCounter a.core x.cc (y.take a x)).checkCounter a.core x.cc (decide (y.value ≤ a.bytes))).endXfer a.core a.xfer x'

/-- The first acknowledgement on its way to a core, and the others. -/
def takeAckFor (c : Nat) : List Ack → Option (Ack × List Ack)
  | [] => none
  | a :: as => if a.core = c then some (a, as) else (takeAckFor c as).map fun r => (r.1, a :: r.2)

/-- BYTE_ACKNOWLEDGEMENT (R345, R346). -/
def execByteAcknowledgement (core : Nat) (s : State) : Host.Outcome State Fault Refusal :=
  match takeAckFor core s.acks with
  | none => .next s
  | some (a, rest) => .next ({ s with acks := rest }.takeAck a)

/-- CTRX (R348). -/
def execCtrx (l : La) (d a : Reg) (n : BitVec 7) (s : State) : Host.Outcome State Fault Refusal :=
  s.issue (.ctrx l d a n) l.toNat fun e s' =>
    let t := (e.s a).toInt
    if t < -(2 : Int) ^ 47 ∨ (2 : Int) ^ 47 - 1 < t then .trap false 0x01 (e.n a) s'
    else
      let x := s'.counter e.core n.toNat
      let v := low ((x.value : Int) + t) 48
      let x := { x with value := v, armed := true, done := false, armer := e.k, armerGen := (s'.ctx e.k).gen }
      .done [.s d (BitVec.ofInt 64 (sext v 48))] ((s'.setCounter e.core n.toNat x).checkCounter e.core n.toNat false)

/-- An attempt of `CTRW` (R349). -/
def tryCtrw (d a : Reg) (n : Nat) (e : Env) (s : State) : Att :=
  let x := s.counter e.core n
  let t := e.until s (e.s a)
  let v := [Wr.s d (BitVec.ofNat 64 x.word)]
  if x.done then .done v ((s.acquire e.core).raisePts e.k x.ccwts)
  else if s.passed e.die t then .done v s
  else parked t [] s

/-- CTRW (R349). -/
def execCtrw (l : La) (d a : Reg) (n : BitVec 7) (s : State) : Host.Outcome State Fault Refusal :=
  s.issue (.ctrw l d a n) l.toNat (tryCtrw d a n.toNat)

/-- CTRR (R350). -/
def execCtrr (l : La) (d : Reg) (n : BitVec 7) (s : State) : Host.Outcome State Fault Refusal :=
  s.issue (.ctrr l d n) l.toNat fun e s' => .done [.s d (BitVec.ofNat 64 (s'.counter e.core n.toNat).word)] s'

/-- A counter reset by `CTRR CLEAR` (R350). -/
def Counter.cleared (x : Counter) : Counter :=
  { x with value := 0, armed := false, done := false, err := false, uip := false, code := 0, uipc := 0, tag := 0 }

/-- CTRR CLEAR (R350): the read and the reset are one operation. -/
def execCtrrClear (l : La) (d : Reg) (n : BitVec 7) (s : State) : Host.Outcome State Fault Refusal :=
  s.issue (.ctrrClear l d n) l.toNat fun e s' =>
    let x := s'.counter e.core n.toNat
    .done [.s d (BitVec.ofNat 64 x.word)] (s'.setCounter e.core n.toNat x.cleared)

/-! ### Completion interrupts (R353, R354) -/

/-- Waits that an interrupt or a save cancels, to be issued again: grid loads and waits, and the parked waits of R354. -/
def Outst.cancellable (o : Outst) : Bool := match o.res with
  | .pend (.ldg ..) _ w => w.how != .blocked
  | .pend (.gwait ..) _ w => w.how != .blocked
  | .pend .sync _ w => w.how == .parked
  | .pend (.mbxw ..) _ w => w.how == .parked
  | .pend (.ctrw ..) _ w => w.how == .parked
  | .pend (.mlease ..) _ w => w.how == .parked
  | _ => false

/-- The windows with the entries of p cancelled: the next place is the oldest of them, and the later ones that are done are passed over. -/
def Ctx.cancel (c : Ctx) (p : Outst → Bool) : Ctx :=
  match c.win.outst.find? p with
  | none => c
  | some o =>
    let gone := (c.win.outst.filter p).map (·.pos)
    { c with pc := o.pc, win :=
      { outst := c.win.outst.filter fun x => !p x, seq := o.pos, done := (c.win.doneAfter o.pos).filter fun q => !gone.contains q,
        path := c.win.path.put c.win.seq c.pc, wrote := c.win.wrote } }

/-- A cancelled `MLEASE` no longer waits for its lease (R354). -/
def State.dropLeaseWait (s : State) (k : Nat) (p : Outst → Bool) : State :=
  if (s.ctx k).win.outst.any fun o => p o && (match o.res with
    | .pend (.mlease ..) _ _ => true
    | _ => false)
  then s.modCore (coreOf k) fun x => { x with lease := if x.lease.state = .wait then { Lease.reset with n := x.lease.n } else x.lease }
  else s

/-- UIP of counters whose arming context has gone is cleared (R353). -/
def State.clearStale (s : State) (k : Nat) : State :=
  s.modCore (coreOf k) fun x => { x with counters := x.counters.map fun (e : Nat × Counter) =>
    if e.2.uip && e.2.armer == k && (e.2.armerGen != (s.ctx k).gen || (s.ctx k).state == .free) then (e.1, { e.2 with uip := false }) else e }

/-- A parked `WFI` completes (R354, R505). -/
def Ctx.wakeWfi (c : Ctx) : Ctx :=
  { c with win := { c.win with outst := c.win.outst.map fun o => match o.res with
      | .pend .wfi _ _ => { o with res := .ok [] }
      | _ => o } }

/-- The interrupt of counter n is taken (R353): an acquire. -/
def State.takeInterrupt (s : State) (k n : Nat) : State :=
  let core := coreOf k
  let x := s.counter core n
  let s := ((s.setCounter core n { x with uip := false }).acquire core).raisePts k x.ccwts
  s.modCtx k fun c => { c with
    xid := BitVec.ofNat 64 (ofBool x.err * 2 ^ 63 + x.code % 256 * 2 ^ 48 + n * 2 ^ 32 + x.tag % 2 ^ 32), uiepc := c.pc, uien := c.uien ||| 2,
    frozenU := some c.win, win := Win.reset, pc := x.uipc, state := .running, yielded := [] }

/-- A context issues nothing while it waits for the results that an interrupt lets come in (R353). -/
def State.interruptWaits (s : State) (k : Nat) : Bool :=
  let c := s.ctx k
  (s.pendingCounter k).isSome && bit c.uien.toNat 0 && !bit c.uien.toNat 1 && c.win.outst.any fun o => o.pending && !o.cancellable

/-- Takes a pending interrupt where the context's state lets it (R354): its cancellable waits are cancelled, a fault is taken first, and any
other result is waited for. -/
def State.interrupt (s : State) (k : Nat) : State :=
  let s := s.clearStale k
  match s.pendingCounter k with
  | none => s
  | some n =>
    let c := s.ctx k
    if !bit c.uien.toNat 0 || bit c.uien.toNat 1 then s
    else
      let waits := c.wakeWfi.win.outst.filter fun o => o.pending && !o.cancellable
      if !waits.isEmpty || c.retry then s
      else
        let s := (s.modCtx k Ctx.wakeWfi).close k
        if (s.ctx k).win.outst.any Outst.faulted then s.trapOldest k
        else
          let s := if (s.ctx k).member then s.leave k (s.ctx k).pc else s
          let s := (s.dropLeaseWait k Outst.cancellable).modCtx k fun c => c.cancel Outst.cancellable
          s.takeInterrupt k n

/-- COMPLETION_INTERRUPT (R353). -/
def execCompletionInterrupt (k : Nat) (s : State) : Host.Outcome State Fault Refusal := .next (s.interrupt k)

/-! ### Replies to faults held by units (R361 to R363, R250, R248) -/

/-- A request that a fault holds. -/
def heldBy (key : Nat) : Nat → List Req → Option (Nat × Req)
  | _, [] => none
  | i, r :: rs => if r.fault = some key then some (i, r) else heldBy key (i + 1) rs

/-- SIGNAL to a streamer's request: its transfer ends in error with 0x13 (R362). -/
def State.signalReq (s : State) (d u key : Nat) : State :=
  match heldBy key 0 (s.inboxOf d u) with
  | none => s
  | some (i, r) => (s.dropReq d u i).ack r.core r.xfer 0 (match s.xferOf r with
      | some x => x.pts
      | none => 0) true (some 0x13)

/-- RESUME or SIGNAL to a barred deque entry (R250). -/
def State.unbar (s : State) (v key new : Nat) : State :=
  s.modCore v fun x => { x with deque := x.deque.map fun e => if e.barred = key + 2 then { e with barred := new } else e }

/-- RESUME or SIGNAL to a tile fetch (R250). -/
def State.fetchReply (s : State) (c key va : Nat) (signal : Bool) : State :=
  let answer := fun (y : Claim) => if y.fault = some key then { y with fault := none, signalled := if signal then some va else none } else y
  (s.modCore c fun x => { x with claims := x.claims.map answer }).post (.stealDispatch c)

/-- What a fault of a slot's fill waits for. -/
def placeFill (cl n : Nat) : Nat := 7 + 16 * (cl * 64 + n)

/-- Every push that waits is tried again. -/
def State.postPushes (s : State) : State := (s.pushes.map (·.to_)).eraseDups.foldl (fun s n => s.post (.haloPush n)) s

/-- A reply reaches a unit and finds its fault (R361): what waits goes on, or ends as its place says; a unit that asks again reads the reply. -/
def State.unitReply (s : State) (d u key code : Nat) (f : UnitFault) : State :=
  if 2 ≤ code then (s.modDie d fun x => { x with faults := x.faults.del key }).finishLaunch f.slot 1
  else
    let gone := s.modDie d fun x => { x with faults := x.faults.del key }
    let signal := code == 1
    match f.place % 16 with
    | 0 => if signal then gone.signalReq d u key
           else (s.modDie d fun x => { x with faults := x.faults.put key { f with reply := .resume } }).post (.engineResume d u)
    | 1 => gone.unbar (f.place / 16) key (if signal then barredForGood else 0)
    | 2 => gone.fetchReply (f.place / 16) key f.va signal
    | 3 => if signal then gone.failLaunch (f.place / 16) 0x13 else gone.post (.rootDispatch (f.place / 16))
    | 8 => gone.modCore (f.place / 16) fun x => { x with ringFault := none }
    | p =>
      let s := s.modDie d fun x => { x with faults := x.faults.put key { f with reply := if signal then .signal else .resume } }
      if p = 7 then s.post (.slotFillComplete (f.place / 16 / 64) (f.place / 16 % 64)) else if p = 6 then s.postPushes else s

/-- UNIT_FAULT_REPLY (R361, R504): a reply whose number names no fault waiting at the unit is discarded. -/
def execUnitFaultReply (handle code : Nat) (s : State) : Host.Outcome State Fault Refusal :=
  let d := bits handle 43 41
  let u := bits handle 40 35
  let key := u * 2 ^ 32 + handle % 2 ^ 32
  match (s.die d).faults.find key with
  | none => .next s
  | some f => if f.reply = .waiting then .next (s.unitReply d u key code f) else .next s

/-- ENGINE_RESUME (R362, R363): the requests of a unit whose faults have been answered with RESUME go on from their fault offsets. -/
def execEngineResume (die unit : Nat) (s : State) : Host.Outcome State Fault Refusal :=
  let answered := fun (key : Nat) => match (s.die die).faults.find key with
    | some f => f.reply == .resume && f.place == placeInbox
    | none => false
  let l := s.inboxOf die unit
  let ready := l.filter fun r => (r.fault.map answered).getD false
  let s' := s.setInbox die unit (l.map fun r => if (r.fault.map answered).getD false then { r with fault := none } else r)
  let s' := s'.modDie die fun x => { x with faults := x.faults.filter fun (e : Nat × UnitFault) => !(ready.any fun r => r.fault == some e.1) }
  .next (ready.foldl (fun s r => s.post (r.event die unit)) s')

end Sys2Proof.Machine
end

