-- ==== Sys2Proof/Machine/Flags.lean ====
section
/-! DEFINITION. The sticky flags `FFLAGS` (R84, R85) and `VSTAT` (R168): their bits, and setting them. Where each flag arises stands with
the arithmetic that raises it, in Float.lean, L6.lean and Lanes.lean. -/

namespace Sys2Proof.Machine

/-- The bits of `FFLAGS` (R84). -/
def fNX : Nat := 1
def fUF : Nat := 2
def fOF : Nat := 4
def fDZ : Nat := 8
def fNV : Nat := 16
def fSAT : Nat := 32
def fNAR : Nat := 64

/-- Bits of `VSTAT` (R168). -/
def vKNAN : Nat := 1
def vSDUP : Nat := 2

/-- Flags if a condition holds. -/
def flagIf (b : Bool) (f : Nat) : Nat := if b then f else 0

/-- ORs flags into the context's `FFLAGS`; hardware never clears one (R85). -/
def State.flag (s : State) (k f : Nat) : State := s.modCtx k fun c => { c with fflags := c.fflags ||| BitVec.ofNat 64 f }

/-- ORs bits into the context's `VSTAT` (R168). -/
def State.vflag (s : State) (k f : Nat) : State := s.modCtx k fun c => { c with vstat := c.vstat ||| BitVec.ofNat 64 f }

end Sys2Proof.Machine
end

