-- ==== Sys2Proof/Machine/Float.lean ====
section
/-! DEFINITION. Floating-point arithmetic on bit patterns (R77 to R90): every result is an exact value rounded once, with its flags. A
finite value is a sign and m * 2^e; a result that is not exact carries one more low bit of m that says so, below every bit that rounding
looks at. -/

namespace Sys2Proof.Machine

/-- A binary format: exponent bits and fraction bits (R77, R81). -/
structure Fmt where
  eb : Nat
  fb : Nat
  deriving DecidableEq, Repr

def bf16 : Fmt := { eb := 8, fb := 7 }
def fp32 : Fmt := { eb := 8, fb := 23 }
def fp64 : Fmt := { eb := 11, fb := 52 }

/-- The format of a float element type. -/
def fmtOf : ElTy → Fmt
  | .bf16 => bf16
  | .fp64 => fp64
  | _ => fp32

/-- Total width. -/
def Fmt.width (f : Fmt) : Nat := 1 + f.eb + f.fb

/-- The exponent bias. -/
def Fmt.bias (f : Fmt) : Nat := 2 ^ (f.eb - 1) - 1

/-- The pattern of +∞. -/
def Fmt.inf (f : Fmt) : Nat := (2 ^ f.eb - 1) * 2 ^ f.fb

/-- The pattern of the largest finite value. -/
def Fmt.largest (f : Fmt) : Nat := f.inf - 1

/-- The sign bit's weight. -/
def Fmt.sign (f : Fmt) : Nat := 2 ^ (f.eb + f.fb)

/-- The canonical quiet NaN, sign 0 (R79). -/
def Fmt.nan (f : Fmt) : Nat := f.inf + 2 ^ (f.fb - 1)

/-- A pattern with a sign. -/
def Fmt.signed (f : Fmt) (neg : Bool) (x : Nat) : Nat := x + ofBool neg * f.sign

/-- What a pattern stands for: a NaN (signalling or quiet), an infinity, or the finite value (-1)^neg * m * 2^e. -/
inductive FVal where
  | nan (sig : Bool)
  | inf (neg : Bool)
  | fin (neg : Bool) (m : Nat) (e : Int)
  deriving DecidableEq, Repr

/-- A value and the flags raised. -/
abbrev Flagged := Nat × Nat

/-- The value of a pattern (R77, R81). -/
def Fmt.read (f : Fmt) (x : Nat) : FVal :=
  let neg := bit x (f.eb + f.fb)
  let ex := x / 2 ^ f.fb % 2 ^ f.eb
  let fr := x % 2 ^ f.fb
  if ex = 2 ^ f.eb - 1 then (if fr = 0 then .inf neg else .nan (!bit fr (f.fb - 1)))
  else if ex = 0 then .fin neg fr (1 - (f.bias : Int) - f.fb)
  else .fin neg (2 ^ f.fb + fr) ((ex : Int) - f.bias - f.fb)

/-- A rounding code (R83): 0 nearest even, 1 toward zero, 2 down, 3 up. Whether to step away from zero, given the sign, whether the kept
number is odd, and the discarded part against a half: less, equal or more. -/
def stepsUp (mode : Nat) (neg odd : Bool) (rem half : Nat) : Bool :=
  match mode with
  | 0 => decide (half < rem) || (rem == half && odd)
  | 1 => false
  | 2 => neg && rem != 0
  | _ => !neg && rem != 0

/-- m * 2^-shift rounded to an integer, and whether it was inexact. -/
def roundShift (mode : Nat) (neg : Bool) (m : Nat) (shift : Int) : Nat × Bool :=
  if shift ≤ 0 then (m * 2 ^ (-shift).toNat, false)
  else
    let k := shift.toNat
    let n := m / 2 ^ k
    let rem := m % 2 ^ k
    (if stepsUp mode neg (n % 2 == 1) rem (2 ^ (k - 1)) then n + 1 else n, rem != 0)

/-- The finite value (-1)^neg * m * 2^e rounded once to the format, with OF, UF and NX; tininess is detected after rounding (R77, R78,
R89). -/
def Fmt.round (f : Fmt) (mode : Nat) (neg : Bool) (m : Nat) (e : Int) : Flagged :=
  if m = 0 then (f.signed neg 0, 0)
  else
    let top : Int := (bitLen m : Int) - 1 + e
    let emin : Int := 1 - (f.bias : Int)
    let q := max top emin - f.fb
    let (n, inexact) := roundShift mode neg m (q - e)
    let x := (q + f.fb + f.bias - 1).toNat * 2 ^ f.fb + n
    if f.inf ≤ x then
      let big := match mode with
        | 0 => true
        | 1 => false
        | 2 => neg
        | _ => !neg
      (f.signed neg (if big then f.inf else f.largest), fOF + fNX)
    else
      let free := (roundShift mode neg m (top - f.fb - e)).1
      let tiny := decide (top < emin) && !(top + 1 == emin && free == 2 ^ (f.fb + 1))
      (f.signed neg x, flagIf inexact fNX + flagIf (tiny && inexact) fUF)

/-- A NaN result: canonical, NV where one of the operands was signalling (R79). -/
def Fmt.quiet (f : Fmt) (sig : Bool) : Flagged := (f.nan, flagIf sig fNV)

/-- An invalid operation: the canonical NaN and NV. -/
def Fmt.invalid (f : Fmt) : Flagged := (f.nan, fNV)

/-- The value is a NaN; a signalling one. -/
def FVal.isNan : FVal → Bool
  | .nan _ => true
  | _ => false
def FVal.isSig : FVal → Bool
  | .nan s => s
  | _ => false

/-- The sign of a value that is not a NaN. -/
def FVal.neg : FVal → Bool
  | .nan _ => false
  | .inf n => n
  | .fin n _ _ => n

/-- The value with its sign inverted. -/
def FVal.flip : FVal → FVal
  | .nan s => .nan s
  | .inf n => .inf (!n)
  | .fin n m e => .fin (!n) m e

/-- The exact product of two values; ∞ * 0 is none. -/
def FVal.mul : FVal → FVal → Option FVal
  | .nan s, .nan t => some (.nan (s || t))
  | .nan s, _ => some (.nan s)
  | _, .nan s => some (.nan s)
  | .inf n, .inf m => some (.inf (n != m))
  | .inf n, .fin n' m _ => if m = 0 then none else some (.inf (n != n'))
  | .fin n' m _, .inf n => if m = 0 then none else some (.inf (n != n'))
  | .fin n m e, .fin n' m' e' => some (.fin (n != n') (m * m') (e + e'))

/-- m * 2^e as an integer over 2^low. -/
def scaled (neg : Bool) (m : Nat) (e lo : Int) : Int :=
  let x : Int := m * 2 ^ (e - lo).toNat
  if neg then -x else x

/-- The exact sum of two values; opposite infinities are none. A sum that is exactly zero is -0 only for two negative zeros (R102). -/
def FVal.add : FVal → FVal → Option FVal
  | .nan s, .nan t => some (.nan (s || t))
  | .nan s, _ => some (.nan s)
  | _, .nan s => some (.nan s)
  | .inf n, .inf m => if n = m then some (.inf n) else none
  | .inf n, _ => some (.inf n)
  | _, .inf n => some (.inf n)
  | .fin n m e, .fin n' m' e' =>
    let lo := min e e'
    let x := scaled n m e lo + scaled n' m' e' lo
    if x = 0 then some (.fin (n && n') 0 0) else some (.fin (decide (x < 0)) x.natAbs lo)

/-- An exact value, or none for an invalid operation, rounded to the format. -/
def Fmt.deliver (f : Fmt) (mode : Nat) : Option FVal → Flagged
  | none => f.invalid
  | some (.nan s) => f.quiet s
  | some (.inf n) => (f.signed n f.inf, 0)
  | some (.fin n m e) => f.round mode n m e

/-- Addition, subtraction, multiplication (R78, R79). -/
def Fmt.add (f : Fmt) (a b : Nat) : Flagged := f.deliver 0 ((f.read a).add (f.read b))
def Fmt.sub (f : Fmt) (a b : Nat) : Flagged := f.deliver 0 ((f.read a).add (f.read b).flip)
def Fmt.mul (f : Fmt) (a b : Nat) : Flagged := f.deliver 0 ((f.read a).mul (f.read b))

/-- a * b + c of exact values: ∞ * 0 is invalid whatever c holds (R192). -/
def FVal.fma (a b c : FVal) : Option FVal :=
  match a.mul b with
  | none => none
  | some p => p.add c

/-- Fused multiply-add (R192). -/
def Fmt.fma (f : Fmt) (a b c : Nat) : Flagged := f.deliver 0 ((f.read a).fma (f.read b) (f.read c))
def Fmt.fms (f : Fmt) (a b c : Nat) : Flagged := f.deliver 0 ((f.read a).fma (f.read b) (f.read c).flip)

/-- The exact sum of a group of products (R101, R102, R105): ∞ * 0, and infinities of both signs, are NaN with NV; a sum that is exactly
zero is -0 only if every product of it is -0. Products that a mask leaves out are not of the group. -/
def groupSum (ps : List (FVal × FVal)) : FVal × Nat :=
  let qs := ps.map fun p => p.1.mul p.2
  if qs.contains none || (qs.contains (some (.inf false)) && qs.contains (some (.inf true))) then (.nan false, fNV)
  else (qs.foldl (fun x q => ((q.getD (.nan false)).add x).getD (.nan false)) (.fin true 0 0), 0)

/-- A value plus a group sum, rounded once. -/
def Fmt.addGroup (f : Fmt) (c : Nat) (ps : List (FVal × FVal)) : Flagged :=
  let g := groupSum ps
  let r := f.deliver 0 ((f.read c).add g.1)
  (r.1, r.2 ||| g.2)

/-- A quotient of numbers kept to more bits than rounding looks at, with a low bit that says it is not exact: m / d = result * 2^-k. -/
def quotient (m d k : Nat) : Nat := 2 * (m * 2 ^ k / d) + ofBool (m * 2 ^ k % d != 0)

/-- Division (R80). -/
def Fmt.div (f : Fmt) (a b : Nat) : Flagged :=
  match f.read a, f.read b with
  | .nan s, .nan t => f.quiet (s || t)
  | .nan s, _ => f.quiet s
  | _, .nan s => f.quiet s
  | .inf _, .inf _ => f.invalid
  | .inf n, .fin n' _ _ => (f.signed (n != n') f.inf, 0)
  | .fin n _ _, .inf n' => (f.signed (n != n') 0, 0)
  | .fin n m e, .fin n' m' e' =>
    if m' = 0 then (if m = 0 then f.invalid else (f.signed (n != n') f.inf, fDZ))
    else if m = 0 then (f.signed (n != n') 0, 0)
    else
      let k := 2 * f.fb + 8
      f.round 0 (n != n') (quotient m m' k) (e - e' - k - 1)

/-- The bits of the integer square root of x from bit i - 1 down, given the bits above. -/
def isqrtFrom (x : Nat) : Nat → Nat → Nat
  | 0, r => r
  | i + 1, r => if (r + 2 ^ i) * (r + 2 ^ i) ≤ x then isqrtFrom x i (r + 2 ^ i) else isqrtFrom x i r

/-- The integer square root. -/
def isqrt (x : Nat) : Nat := isqrtFrom x (bitLen x / 2 + 1) 0

/-- Square root (R80). -/
def Fmt.sqrt (f : Fmt) (a : Nat) : Flagged :=
  match f.read a with
  | .nan s => f.quiet s
  | .inf n => if n then f.invalid else (f.inf, 0)
  | .fin n m e =>
    if m = 0 then (f.signed n 0, 0)
    else if n then f.invalid
    else
      let odd := e % 2
      let x := m * 2 ^ (odd.toNat + 2 * (f.fb + 4))
      let r := isqrt x
      f.round 0 false (2 * r + ofBool (r * r != x)) ((e - odd) / 2 - (f.fb + 4) - 1)

/-- Reciprocal square root (R80). -/
def Fmt.rsq (f : Fmt) (a : Nat) : Flagged :=
  match f.read a with
  | .nan s => f.quiet s
  | .inf n => if n then f.invalid else (0, 0)
  | .fin n m e =>
    if m = 0 then (f.signed n f.inf, fDZ)
    else if n then f.invalid
    else
      let odd := e % 2
      let d := m * 2 ^ odd.toNat
      let k := 2 * f.fb + 8
      let r := isqrt (2 ^ (2 * k) / d)
      f.round 0 false (2 * r + ofBool (r * r * d != 2 ^ (2 * k))) (-((e - odd) / 2) - k - 1)

/-- The order of two values that are not NaNs: -1, 0 or 1; -0 equals +0. -/
def FVal.order : FVal → FVal → Int
  | .nan _, _ => 0
  | _, .nan _ => 0
  | .inf n, .inf m => if n = m then 0 else if n then -1 else 1
  | .inf n, _ => if n then -1 else 1
  | _, .inf n => if n then 1 else -1
  | .fin n m e, .fin n' m' e' =>
    let lo := min e e'
    let x := scaled n m e lo
    let y := scaled n' m' e' lo
    if x < y then -1 else if x = y then 0 else 1

/-- Minimum or maximum (R80): a single NaN gives the other operand, and -0 is smaller than +0. -/
def Fmt.minmax (f : Fmt) (maximum : Bool) (a b : Nat) : Flagged :=
  let x := f.read a
  let y := f.read b
  let flag := flagIf (x.isSig || y.isSig) fNV
  if x.isNan && y.isNan then (f.nan, flag)
  else if x.isNan then (b, flag)
  else if y.isNan then (a, flag)
  else
    let o := x.order y
    let less := decide (o < 0) || (o == 0 && x.neg && !y.neg)
    (if less != maximum then a else b, 0)

/-- The conditions of `VFCMP` (R178): EQ NE LT LE GT GE UN OR. -/
def Fmt.compare (f : Fmt) (cond a b : Nat) : Bool × Nat :=
  let x := f.read a
  let y := f.read b
  let un := x.isNan || y.isNan
  let o := x.order y
  let holds := match cond with
    | 0 => !un && o == 0
    | 1 => un || o != 0
    | 2 => !un && decide (o < 0)
    | 3 => !un && decide (o ≤ 0)
    | 4 => !un && decide (0 < o)
    | 5 => !un && decide (0 ≤ o)
    | 6 => un
    | _ => !un
  let invalid := if 2 ≤ cond ∧ cond ≤ 5 then un else x.isSig || y.isSig
  (holds, flagIf invalid fNV)

/-- Rounds a float to an integral value of the same type (R179): no flag but NV for a signalling NaN. -/
def Fmt.integral (f : Fmt) (mode a : Nat) : Flagged :=
  match f.read a with
  | .nan s => f.quiet s
  | .inf _ => (a, 0)
  | .fin n m e =>
    if 0 ≤ e then (a, 0)
    else
      let r := (roundShift mode n m (-e)).1
      ((f.round 0 n r 0).1, 0)

/-- The class bit of `VFCLASS` (R180). -/
def Fmt.classify (f : Fmt) (a : Nat) : Nat :=
  match f.read a with
  | .nan s => if s then 2 ^ 8 else 2 ^ 9
  | .inf n => if n then 2 ^ 0 else 2 ^ 7
  | .fin n m _ =>
    if m = 0 then (if n then 2 ^ 3 else 2 ^ 4)
    else if m < 2 ^ f.fb then (if n then 2 ^ 2 else 2 ^ 5)
    else (if n then 2 ^ 1 else 2 ^ 6)

/-! ### Powers and logarithms of two (R78, R80)

The functions are computed as binary fractions of `Fmt.prec` bits and rounded once; log 12 says what this rests on. -/

/-- Bits kept of a power or logarithm, some hundreds below the least bit a result of the format can have. -/
def Fmt.prec (f : Fmt) : Nat := 2 ^ f.eb + 192

/-- The sum of z^(2j+1) / (2j+1) over 2^p, from the power t = z^(2j+1): the series of the inverse hyperbolic tangent. -/
def atanhFrom (p z2 : Nat) : Nat → Nat → Nat → Nat
  | 0, _, _ => 0
  | fuel + 1, t, j => if t = 0 then 0 else t / (2 * j + 1) + atanhFrom p z2 fuel (t * z2 / 2 ^ p) (j + 1)

/-- ln(a / b) over 2^p for a at least b and at most 2b. -/
def lnRatio (p a b : Nat) : Nat :=
  let z := (a - b) * 2 ^ p / (a + b)
  2 * atanhFrom p (z * z / 2 ^ p) p z 0

/-- log2(a / b) over 2^p for a at least b and at most 2b. -/
def log2Ratio (p a b : Nat) : Nat := lnRatio (p + 32) a b * 2 ^ p / lnRatio (p + 32) 2 1

/-- The sum of x^j / j! over 2^p from the term t = x^j / j!: the exponential series. -/
def expFrom (p x : Nat) : Nat → Nat → Nat → Nat
  | 0, _, _ => 0
  | fuel + 1, t, j => if t = 0 then 0 else t + expFrom p x fuel (t * x / 2 ^ p / (j + 1)) (j + 1)

/-- 2^(x / 2^p) over 2^p for x below 2^p. -/
def exp2Frac (p x : Nat) : Nat :=
  let p' := p + 32
  expFrom p' (x * 2 ^ 32 * lnRatio p' 2 1 / 2 ^ p') p' (2 ^ p') 0 / 2 ^ 32

/-- 2^a (R80): integers are exact; every other result is irrational. -/
def Fmt.exp2 (f : Fmt) (a : Nat) : Flagged :=
  match f.read a with
  | .nan s => f.quiet s
  | .inf n => if n then (0, 0) else (f.inf, 0)
  | .fin n m e =>
    let lim : Nat := 2 ^ f.eb + 64
    if m = 0 then f.round 0 false 1 0
    else if lim ≤ m * 2 ^ e.toNat / 2 ^ (-e).toNat then
      f.round 0 false 1 (if n then -(lim : Int) else lim)
    else if m % 2 ^ (-e).toNat = 0 then
      let x : Int := scaled n (m * 2 ^ e.toNat / 2 ^ (-e).toNat) 0 0
      f.round 0 false 1 x
    else
      let p := f.prec
      let x : Int := (scaled n m 0 0 * 2 ^ p) / (2 ^ (-e).toNat : Int)
      f.round 0 false (2 * exp2Frac p (x % 2 ^ p).toNat + 1) (x / 2 ^ p - p - 1)

/-- log2 a (R80): powers of two are exact; every other result is irrational. -/
def Fmt.log2 (f : Fmt) (a : Nat) : Flagged :=
  match f.read a with
  | .nan s => f.quiet s
  | .inf n => if n then f.invalid else (f.inf, 0)
  | .fin n m e =>
    if m = 0 then (f.signed true f.inf, fDZ)
    else if n then f.invalid
    else
      let t := bitLen m - 1
      let whole : Int := t + e
      if m = 2 ^ t then f.round 0 (decide (whole < 0)) whole.natAbs 0
      else
        let p := f.prec
        let x : Int := 2 * (whole * 2 ^ p + log2Ratio p m (2 ^ t)) + 1
        f.round 0 (decide (x < 0)) x.natAbs (-(p : Int) - 1)

/-- log2(2^a + 2^b) for finite a at least b, the difference given over 2^p: the excess over a. -/
def lseExcess (p d : Nat) : Nat :=
  let y := if p ≤ d / 2 ^ p then 0 else if d % 2 ^ p = 0 then 2 ^ (p - d / 2 ^ p) else exp2Frac p (2 ^ p - d % 2 ^ p) / 2 ^ (d / 2 ^ p + 1)
  log2Ratio p (2 ^ p + y) (2 ^ p)

/-- LSE(a, b) = log2(2^a + 2^b) (R80): equal operands give a + 1; otherwise the result is irrational. -/
def Fmt.lse (f : Fmt) (a b : Nat) : Flagged :=
  match f.read a, f.read b with
  | .nan s, .nan t => f.quiet (s || t)
  | .nan s, _ => f.quiet s
  | _, .nan s => f.quiet s
  | .inf n, y => if n then (b, 0) else match y with
    | .inf _ => (f.inf, 0)
    | _ => (f.inf, 0)
  | _, .inf n => if n then (a, 0) else (f.inf, 0)
  | .fin n m e, .fin n' m' e' =>
    let p := f.prec
    let lo : Int := -(p : Int)
    let x := scaled n m e lo
    let y := scaled n' m' e' lo
    let hi := max x y
    if x = y then
      let v := hi + 2 ^ p
      f.round 0 (decide (v < 0)) v.natAbs lo
    else
      let v := 2 * (hi + lseExcess p (hi - min x y).toNat) + 1
      f.round 0 (decide (v < 0)) v.natAbs (lo - 1)

/-! ### Conversions (R76, R87 to R89) -/

/-- The limits of a signed type of width w. -/
def intMax (w : Nat) : Int := 2 ^ (w - 1) - 1
def intMin (w : Nat) : Int := -(2 ^ (w - 1))

/-- An integer narrowed to width w (R76): wrapped, or clamped with SAT. -/
def narrow (sat : Bool) (w : Nat) (x : Int) : Flagged :=
  if !sat then (low x w, 0)
  else if intMax w < x then (low (intMax w) w, fSAT)
  else if x < intMin w then (low (intMin w) w, fSAT)
  else (low x w, 0)

/-- Float to an integer of width w (R87). -/
def Fmt.toInt (f : Fmt) (mode : Nat) (sat : Bool) (w a : Nat) : Flagged :=
  match f.read a with
  | .nan _ => (0, fNV)
  | .inf n => (if sat then low (if n then intMin w else intMax w) w else 0, fNV)
  | .fin n m e =>
    let (r, inexact) := roundShift mode n m (-e)
    let x : Int := if n then -r else r
    if intMin w ≤ x ∧ x ≤ intMax w then (low x w, flagIf inexact fNX)
    else (if sat then low (if n then intMin w else intMax w) w else low x w, fNV)

/-- An integer of any size to a float (R88). -/
def Fmt.ofInt (f : Fmt) (mode : Nat) (x : Int) : Flagged := f.round mode (decide (x < 0)) x.natAbs 0

/-- Float to float (R89). -/
def Fmt.convert (f g : Fmt) (mode a : Nat) : Flagged := g.deliver mode (some (f.read a))

end Sys2Proof.Machine
end

