-- ==== Sys2Proof/Machine/L6.lean ====
section
/-! DEFINITION. The L6 type (R91 to R97) and the W48 accumulator (R98 to R100). -/

namespace Sys2Proof.Machine

/-- The codes of zero and NaR (R91). -/
def l6Zero : Nat := 0x10
def l6NaR : Nat := 0x30

/-- A byte read as an L6 code: with bits [7:6] non-zero it is NaR (R93, R163). -/
def l6Code (x : Nat) : Nat := if x / 64 % 4 = 0 then x % 64 else l6NaR

/-- The sign and the field e of a code (R91). -/
def l6Neg (c : Nat) : Bool := bit c 5
def l6Exp (c : Nat) : Int := sext c 5

/-- The table T in Q1.15 (R92). -/
def l6T : Nat → Nat
  | 0 => 0x8000
  | 1 => 0x9838
  | 2 => 0xB505
  | _ => 0xD745

/-- The value V(e) * 2^S of a code (R92, R96): NaR is a quiet NaN. -/
def l6Value (scale : Int) (c : Nat) : FVal :=
  if c = l6NaR then .nan false
  else if c = l6Zero then .fin false 0 0
  else .fin (l6Neg c) (l6T (l6Exp c % 4).toNat) (l6Exp c / 4 - 15 + scale)

/-- L6 to FP32 or BF16 (R96): NaR sets NAR. -/
def l6To (f : Fmt) (scale : Int) (x : Nat) : Flagged :=
  let c := l6Code x
  if c = l6NaR then (f.nan, fNAR) else f.deliver 0 (some (l6Value scale c))

/-- The threshold M[j] (R95), j from -16 to 14, as its significand; its value is this times 2^(floor((2j+1)/8) - 23). -/
def l6Threshold (j : Int) : Nat := 2 ^ 23 + match ((2 * j + 1) % 8).toNat with
  | 1 => 0x0B95C2
  | 3 => 0x25FED7
  | 5 => 0x45672A
  | _ => 0x6AC0C7

/-- m * 2^e is at least m' * 2^e'. -/
def dyadicGe (m : Nat) (e : Int) (m' : Nat) (e' : Int) : Bool :=
  let lo := min e e'
  decide (m' * 2 ^ (e' - lo).toNat ≤ m * 2 ^ (e - lo).toNat)

/-- Conversion to L6 of a value with scale S (R94): the field e is one more than the greatest j whose threshold the magnitude reaches. A NaN,
signalling or quiet, sets NAR alone, as the pseudocode of R94 has it (log 82). -/
def toL6 (scale : Int) (x : FVal) : Flagged :=
  match x with
  | .nan _ => (l6NaR, fNAR)
  | .inf _ => (l6NaR, fNAR)
  | .fin n m e =>
    let reached := ((List.range 31).filter fun (i : Nat) =>
      let j : Int := (i : Int) - 16
      dyadicGe m (e - scale) (l6Threshold j) ((2 * j + 1) / 8 - 23)).length
    if reached = 0 then (l6Zero, 0)
    else
      let field := low ((reached : Int) - 16) 5
      (ofBool n * 32 + field, flagIf (!dyadicGe 0xD745 (-12) m (e - scale)) fSAT)

/-- The contribution of a product of two codes to a W48 accumulator (R97); none for NaR. -/
def l6Product (a b : Nat) : Option Int :=
  if a = l6NaR ∨ b = l6NaR then none
  else if a = l6Zero ∨ b = l6Zero then some 0
  else
    let q := l6Exp a + l6Exp b
    let x : Int := l6T (q % 4).toNat * 2 ^ (q / 4 + 9).toNat
    some (if l6Neg a != l6Neg b then -x else x)

/-- ENAR and ESAT of a W48 element (R98). -/
def w48Nar (x : Nat) : Bool := bit x 48
def w48Sat (x : Nat) : Bool := bit x 49

/-- A W48 element with one product added (R97, R99), and SAT where the sum is clamped. A product with a zero operand contributes nothing, so it
leaves A alone; the A = -2^47 that R99 rules out and that `MLDC` or a lane of `VDOTL` can bring in raw stays until another product is added
to it (log 81). -/
def w48Add (x : Nat) (p : Option Int) : Flagged :=
  match p with
  | none => (x % 2 ^ 50 / 2 ^ 49 * 2 ^ 49 + 2 ^ 48 + x % 2 ^ 48, 0)
  | some 0 => (x % 2 ^ 50, 0)
  | some t =>
    let s := sext x 48 + t
    let top : Int := 2 ^ 47 - 1
    let high := x % 2 ^ 50 / 2 ^ 48 % 2 * 2 ^ 48
    if top < s then (2 ^ 49 + high + low top 48, fSAT)
    else if s < -top then (2 ^ 49 + high + low (-top) 48, fSAT)
    else (x % 2 ^ 50 / 2 ^ 48 * 2 ^ 48 + low s 48, 0)

/-- A value that overflows under the saturate bit becomes the largest finite one, with SAT beside OF and NX (R100). -/
def Fmt.saturate (f : Fmt) (sat : Bool) (neg : Bool) (r : Flagged) : Flagged :=
  if sat && decide (f.inf ≤ r.1 % f.sign) && r.2 / fOF % 2 == 1 then (f.signed neg f.largest, fOF + fNX + fSAT) else r

/-- Readout of a W48 element with the sum of its scales (R100). -/
def w48Read (f : Fmt) (sat : Bool) (scale : Int) (x : Nat) : Flagged :=
  if w48Nar x then (f.nan, fNAR)
  else
    let a := sext x 48
    f.saturate sat (decide (a < 0)) (f.round 0 (decide (a < 0)) a.natAbs (scale - 24))

/-- The 24-bit group of four codes (R93). -/
def l6Group (c0 c1 c2 c3 : Nat) : Nat := c0 % 64 + c1 % 64 * 2 ^ 6 + c2 % 64 * 2 ^ 12 + c3 % 64 * 2 ^ 18

/-- Code n of packed bytes given as a little-endian number (R93). -/
def l6Unpacked (x n : Nat) : Nat := x / 2 ^ (24 * (n / 4) + 6 * (n % 4)) % 64

end Sys2Proof.Machine
end

