-- ==== Sys2Proof/Machine/Lanes.lean ====
section
/-! DEFINITION. Vector registers as elements (R161 to R167): the mould of the masked element-wise instructions, reductions (R103), and the
integer functions of R175 and R176. -/

namespace Sys2Proof.Machine

/-- Elements joined, element 0 lowest. -/
def joined (w : Nat) : List Nat → Nat
  | [] => 0
  | x :: xs => x % 2 ^ w + 2 ^ w * joined w xs

/-- A register of elements. -/
def vecOf (w : Nat) (xs : List Nat) : VReg := BitVec.ofNat 512 (joined w xs)

/-- The pattern of R165: active elements take F's value, the others keep the old one; the flags of the elements written (R85). -/
def masked (t : ElTy) (m : Word) (old : VReg) (f : Nat → Flagged) : VReg × Nat :=
  let xs := (List.range t.lanes).map fun i => if active m i then f i else (elem t.width old i, 0)
  (vecOf t.width (xs.map (·.1)), xs.foldl (fun y x => y ||| x.2) 0)

/-- A masked instruction into vD without lookahead (R169). -/
def vecOp (s : State) (i : Instr) (t : ElTy) (k : KReg) (d : Reg) (f : Env → Nat → Flagged) : Host.Outcome State Fault Refusal :=
  s.issue i 0 fun e s' =>
    let r := masked t (e.m k) (e.v d) (f e)
    .done [.v d r.1] (s'.flag e.k r.2)

/-- A masked instruction of two vector sources. -/
def vecBin (s : State) (i : Instr) (t : ElTy) (k : KReg) (d a b : Reg) (f : Nat → Nat → Flagged) : Host.Outcome State Fault Refusal :=
  vecOp s i t k d fun e j => f (elem t.width (e.v a) j) (elem t.width (e.v b) j)

/-- A masked instruction of one vector source. -/
def vecUn (s : State) (i : Instr) (t : ElTy) (k : KReg) (d a : Reg) (f : Nat → Flagged) : Host.Outcome State Fault Refusal :=
  vecOp s i t k d fun e j => f (elem t.width (e.v a) j)

/-- A comparison into mask kD: bits 0 to n - 1 with the results, the rest 0 (R167). -/
def vecCmp (s : State) (i : Instr) (t : ElTy) (d : KReg) (a b : Reg) (f : Nat → Nat → Bool × Nat) : Host.Outcome State Fault Refusal :=
  s.issue i 0 fun e s' =>
    let xs := (List.range t.lanes).map fun j => f (elem t.width (e.v a) j) (elem t.width (e.v b) j)
    .done [.k d (BitVec.ofNat 64 (joined 1 (xs.map fun x => ofBool x.1)))] (s'.flag e.k (xs.foldl (fun y x => y ||| x.2) 0))

/-! ### Integer elements (R175, R176) -/

/-- The conditions of `VCMP` (R176): EQ NE LT GE LTU GEU LE GT. -/
def intCompare (w cond a b : Nat) : Bool := match cond with
  | 0 => a == b
  | 1 => a != b
  | 2 => decide (sext a w < sext b w)
  | 3 => decide (sext b w ≤ sext a w)
  | 4 => decide (a < b)
  | 5 => decide (b ≤ a)
  | 6 => decide (sext a w ≤ sext b w)
  | _ => decide (sext b w < sext a w)

/-- The smaller or larger element, signed (R175). -/
def intMinmax (w : Nat) (maximum : Bool) (a b : Nat) : Nat := if decide (sext a w < sext b w) != maximum then a else b

/-- The smaller or larger element, unsigned. -/
def natMinmax (maximum : Bool) (a b : Nat) : Nat := if decide (a < b) != maximum then a else b

/-! ### Reductions (R103) -/

/-- One level of the tree: element 2i is combined with element 2i + 1. -/
def pairUp (f : Nat → Nat → Flagged) : List Nat → List Flagged
  | x :: y :: r => f x y :: pairUp f r
  | [x] => [(x, 0)]
  | [] => []

/-- The pairwise tree over a list, level by level; the flags are the OR over every combination. -/
def tree (f : Nat → Nat → Flagged) : Nat → List Nat → Nat → Flagged
  | 0, xs, fl => (xs.headD 0, fl)
  | n + 1, xs, fl =>
    match xs with
    | [x] => (x, fl)
    | _ =>
      let ys := pairUp f xs
      tree f n (ys.map (·.1)) (ys.foldl (fun y x => y ||| x.2) fl)

/-- The active elements of vA in the tree, the others as the identity (R103). -/
def reduceElems (t : ElTy) (m : Word) (a : VReg) (identity : Nat) (widen : Nat → Flagged) (f : Nat → Nat → Flagged) : Flagged :=
  let xs := (List.range t.lanes).map fun i => if active m i then widen (elem t.width a i) else (identity, 0)
  tree f 7 (xs.map (·.1)) (xs.foldl (fun y x => y ||| x.2) 0)

/-- A reduction of a type by a function on its working format; a BF16 reduction runs in FP32 and rounds once at the end (R103). -/
def floatReduce (t : ElTy) (m : Word) (a : VReg) (identity : Fmt → Nat) (f : Fmt → Nat → Nat → Flagged) : Flagged :=
  match t with
  | .bf16 =>
    let r := reduceElems t m a (identity fp32) (fun x => bf16.convert fp32 0 x) (f fp32)
    let q := fp32.convert bf16 0 r.1
    (q.1, r.2 ||| q.2)
  | _ => reduceElems t m a (identity (fmtOf t)) (fun x => (x, 0)) (f (fmtOf t))

/-- A reduction writes element 0 of vD whatever the mask holds (R188). -/
def reduceOp (s : State) (i : Instr) (t : ElTy) (k : KReg) (d a : Reg) (f : Word → VReg → Flagged) : Host.Outcome State Fault Refusal :=
  s.issue i 0 fun e s' =>
    let r := f (e.m k) (e.v a)
    let old := e.v d
    .done [.v d (vecOf t.width (r.1 :: (List.range (t.lanes - 1)).map fun j => elem t.width old (j + 1)))] (s'.flag e.k r.2)

end Sys2Proof.Machine
end

