-- ==== Sys2Proof/Machine/Sparse.lean ====
section
/-! DEFINITION. Sparse regions (R405 to R437): handles, coordinates and shards, the B+ trees in the node pools, the hash accumulators, the
coordinate instructions, cursors, and `DENSE`. Every operation is one event at its shard's home, performed when its attempt is made. -/

namespace Sys2Proof.Machine

/-! ### Descriptors, coordinates and shards (R406, R407) -/

/-- Fields of a descriptor (R406). -/
def spRank (d : Nat) : Nat := blk d 0 1
def spVfmt (d : Nat) : Nat := blk d 1 1
def spHash (d : Nat) : Bool := blk d 2 1 == 1
def spShards (d : Nat) : Nat := blk d 4 2
def spPool (d : Nat) : Nat := blk d 8 8
def spQuota (d : Nat) : Nat := blk d 16 4
def spExt (d : Nat) : Nat := blk d 24 16

/-- A field lies outside R406. -/
def badRegion (d : Nat) : Bool :=
  !(decide (1 ≤ spRank d ∧ spRank d ≤ 4) && decide (spVfmt d ≤ 3) && decide (blk d 2 1 ≤ 1) && blk d 3 1 == 0 &&
    decide (1 ≤ spShards d ∧ spShards d ≤ 256) && blk d 6 2 == 0 && winTag (spPool d) == 0 && spPool d % 65536 == 0 &&
    decide (spShards d + 1 ≤ spQuota d ∧ spQuota d ≤ 2 ^ 24) && blk d 20 4 == 0 && spExt d / 2 ^ (32 * spRank d) == 0 && blk d 40 24 == 0)

/-- A key is a coordinate as one number, c0 most significant, so that keys are ordered as numbers. -/
def coord (x i : Nat) : Nat := x / 2 ^ (32 * (3 - i)) % 2 ^ 32

/-- The key of four coordinates, and of a 16-byte image that holds c0 lowest; the image of a key is made the same way. -/
def keyOf4 (c0 c1 c2 c3 : Nat) : Nat := c0 % 2 ^ 32 * 2 ^ 96 + c1 % 2 ^ 32 * 2 ^ 64 + c2 % 2 ^ 32 * 2 ^ 32 + c3 % 2 ^ 32
def keyImage (x : Nat) : Nat := keyOf4 x (x / 2 ^ 32) (x / 2 ^ 64) (x / 2 ^ 96)

/-- Extent i of the extents in force; 0 stands for 2^32. -/
def extent (ext i : Nat) : Nat := if blk ext (4 * i) 4 = 0 then 2 ^ 32 else blk ext (4 * i) 4

/-- Coordinates at and beyond the rank are zero, and the others lie below their extents (R407). -/
def Region.admits (r : Region) (x : Nat) : Bool :=
  (List.range 4).all fun i => if i < spRank r.desc then decide (coord x i < extent r.ext i) else coord x i == 0

/-- A coordinate lies in a box (R407). -/
def inBox (lo hi x : Nat) : Bool := (List.range 4).all fun i => decide (coord lo i ≤ coord x i ∧ coord x i ≤ coord hi i)

/-- The HASH value of a key (R407). -/
def hashOf (x : Nat) : Nat := (List.range 4).foldl (fun h i => (h ^^^ coord x i) * 0x01000193 % 2 ^ 32) 0

/-- The shard of a key, by the extents read at `SDECL` (R407, R417). A first coordinate beyond E0, where E0 has been raised, has no shard by
the formula: which one takes it is a free value (log 30). -/
def shardOf (d x : Nat) : Nat :=
  let n := spShards d
  if spHash d then (hashOf x ^^^ (hashOf x / 2 ^ 16)) % n
  else
    let i := coord x 0 * n / extent (spExt d) 0
    if i < n then i else Config.lateShard (coord x 0) % n

/-- The shards that can hold a coordinate of a box, ascending (R430, R435). -/
def shardsOf (d lo hi : Nat) : List Nat :=
  let n := spShards d
  let last := coord hi 0 * n / extent (spExt d) 0
  if spHash d || n ≤ last then List.range n
  else (List.range n).filter fun i => decide (coord lo 0 * n / extent (spExt d) 0 ≤ i ∧ i ≤ last)

/-! ### Values (R419 to R421) -/

/-- Bits of a value. -/
def valBits (f : Nat) : Nat := match f with
  | 2 => 64
  | 3 => 16
  | _ => 32

/-- A value that counts as zero (R420). -/
def valZero (f x : Nat) : Bool := if f = 0 then x % 2 ^ 32 == 0 else x % 2 ^ (valBits f - 1) == 0

/-- The sum of `SADD` with its flags (R421). -/
def valAdd (f x y : Nat) : Flagged := match f with
  | 0 => ((x + y) % 2 ^ 32, 0)
  | 1 => fp32.add x y
  | 2 => fp64.add x y
  | _ => bf16.add x y

/-! ### Handles (R405) -/

/-- A handle of a table entry. -/
def handleOf (gen n : Nat) : Nat := 2 ^ 63 + gen % 256 * 2 ^ 8 + n

/-- Region entry n, numbered slot * 64 + entry. -/
def State.region (s : State) (n : Nat) : Region := Tab.get Region.reset s.regions n
def State.setRegion (s : State) (n : Nat) (r : Region) : State := { s with regions := s.regions.put n r }

/-- The region of a handle within a launch. -/
def State.regionOf (s : State) (slot h : Nat) : Option (Nat × Region) :=
  let n := slot * 64 + h % 64
  let r := s.region n
  if slot < 1024 && r.declared && h == handleOf r.gen (h % 64) then some (n, r) else none

/-- Finds the region of s[A] and reads QUOTA and EXT again where a `DINV` asks for it (R417, R419). An operation that has found them finishes under
them (R330). -/
def withRegion (e : Env) (h : Nat) (s : State) (go : Nat → Region → State → Att) : Att :=
  match s.regionOf (s.slotOf e.core) h with
  | none => .trap false 0x01 h s
  | some (n, r) =>
    let under := fun (r : Region) (s : State) => (go n r s).keeps [r.quota, r.ext]
    match e.kept with
    | [quota, ext] => under { r with quota := quota, ext := ext } s
    | _ =>
      if r.stale then
        lsu e .load s (fun b s =>
          let r := { r with quota := spQuota b, ext := spExt b, stale := false }
          under r (s.setRegion n r)) (s.plainRead (s.who e.k) .load r.at_ 64)
      else under r s

/-! ### Nodes (R410 to R413) -/

/-- A node: its type, level, next node, version and count; entries of a leaf, separators and children of an inner node. -/
structure Node where
  kind : Nat
  level : Nat
  next : Nat
  version : Nat
  count : Nat
  ents : List (Nat × Nat)
  seps : List Nat
  kids : List Nat
  deriving DecidableEq, Repr

/-- A node from its 256 bytes (R411). -/
def Node.decode (b : Nat) : Node :=
  let n := blk b 1 1
  let kind := blk b 0 1
  { kind := kind, level := blk b 2 1, next := blk b 4 3, version := blk b 8 4, count := blk b 12 4,
    ents := if kind = 1 then (List.range n).map fun i => (keyImage (blk b (16 + 24 * i) 16), blk b (32 + 24 * i) 8) else [],
    seps := if kind = 2 then (List.range n).map fun i => keyImage (blk b (16 + 16 * i) 16) else [],
    kids := if kind = 2 then (List.range (n + 1)).map fun i => blk b (192 + 4 * i) 3 else [] }

/-- Numbers of so many bytes each, laid out from byte o. -/
def laid (o n : Nat) : List Nat → Nat
  | [] => 0
  | x :: xs => x % 2 ^ (8 * n) * 2 ^ (8 * o) + laid (o + n) n xs

/-- The 256 bytes of a node (R411). -/
def Node.encode (y : Node) : Nat :=
  y.kind + (if y.kind = 1 then y.ents.length else y.seps.length) * 2 ^ 8 + y.level * 2 ^ 16 + y.next * 2 ^ 32 + y.version % 2 ^ 32 * 2 ^ 64 +
    y.count % 2 ^ 32 * 2 ^ 96 + laid 16 24 (y.ents.map fun x => keyImage x.1 + x.2 * 2 ^ 128) + laid 16 16 (y.seps.map keyImage) + laid 192 4 y.kids

/-- An empty node of a kind and level. -/
def Node.new (kind level : Nat) : Node :=
  { kind := kind, level := level, next := 0, version := 0, count := 0, ents := [], seps := [], kids := [] }

/-- Entries of a leaf, or children of an inner node. -/
def Node.size (y : Node) : Nat := if y.kind = 1 then y.ents.length else y.kids.length

/-- The most that a node holds. -/
def Node.room (y : Node) : Nat := if y.kind = 1 then 10 else 12

/-- The child that holds a key (R411). -/
def Node.child (y : Node) (x : Nat) : Nat := (y.seps.takeWhile fun z => decide (z ≤ x)).length

/-- The value of a leaf's entry. -/
def Node.value (y : Node) (x : Nat) : Option Nat := (y.ents.find? fun z => z.1 == x).map (·.2)

/-- An entry in its place by key order. -/
def insertEnt (x v : Nat) : List (Nat × Nat) → List (Nat × Nat)
  | [] => [(x, v)]
  | y :: ys => if x < y.1 then (x, v) :: y :: ys else y :: insertEnt x v ys

/-- A list with an element put in at place i. -/
def putIn (i x : Nat) (l : List Nat) : List Nat := l.take i ++ x :: l.drop i

/-! ### One event of a shard (R408, R409, R414) -/

/-- A shard as an operation meets it: its region, its number, the accessor of its nodes, the slice (cluster) of its home, and the pts. -/
structure Shard where
  num : Nat
  region : Region
  i : Nat
  who : Who
  cl : Nat
  pts : Nat
  deriving DecidableEq, Repr

/-- What an event has read and changed: nodes by number, those to write, those allocated, and the header (in use, free list, never used). -/
structure Ev where
  s : State
  nodes : Tab Node
  dirty : List Nat
  fresh : List Nat
  hdr : Option (Nat × Nat × Nat)
  deriving DecidableEq, Repr

/-- The steps of an event: they change nothing outside it, and a fault ends it with no effect (R414). -/
abbrev Ix := StateT Ev (Except MemRes)

/-- The address of node n (R409). -/
def Shard.va (x : Shard) (n : Nat) : Nat := spPool x.region.desc + 256 * n

/-- The root of the shard (R408). -/
def Shard.root (x : Shard) : Nat := 1 + x.i

/-- The shard i of a region for an operation of context k: its home by its root's page (R408). -/
def State.shardAt (s : State) (k num : Nat) (r : Region) (i : Nat) : Shard :=
  let va := spPool r.desc + 256 * (1 + i)
  let (d, key) := match s.leaf (dieOf (coreOf k)) r.asid va with
    | .leaf pte _ level =>
      let pa := leafPA pte level va
      (if s.local_ pa then homeDie pa else dieOf (coreOf k), keyOf r.asid pte)
    | _ => (dieOf (coreOf k), r.asid)
  { num := num, region := r, i := i, who := { k := k, core := d * 512, asid := r.asid, sup := true, unit := true },
    cl := d * 32 + sliceHash key va, pts := (s.ctx k).ltime }

/-- The stamps with which a shard of a new region begins: its home's time (log 98). -/
def State.shardTime (s : State) (k num : Nat) (r : Region) (i : Nat) : Nat × Nat :=
  let h := (s.die ((s.shardAt k num r i).cl / 32)).home
  (h, h)

/-- What stops the index engine at a node: the checks of R289, and a page that is not of KIND 1 with R and W (R409). -/
def State.nodeStop (s : State) (w : Who) (write : Bool) (va : Nat) : Option MemRes :=
  match s.firstStop w (if write then .engWrite else .engRead) va 256 false (linesOf va 256) with
  | some r => some r
  | none => match s.leaf (dieOf w.core) w.asid va with
    | .leaf pte _ level => if pteKind pte != 1 || !pteR pte || !pteW pte then some (.fault va 1 level pte) else none
    | _ => none

/-- Stops the event if the engine may not reach a node. -/
def Shard.check (x : Shard) (write : Bool) (n : Nat) : Ix Unit := do
  let v ← get
  match v.s.nodeStop x.who write (x.va n) with
  | some r => throw r
  | none => pure ()

/-- Reads the 256 bytes of node n. -/
def Shard.load (x : Shard) (n : Nat) : Ix Nat := do
  x.check false n
  let v ← get
  let (b, s) := v.s.engRead x.who x.pts (linesOf (x.va n) 256)
  set { v with s := s }
  pure b

/-- Node n as the event sees it. -/
def Shard.node (x : Shard) (n : Nat) : Ix Node := do
  match (← get).nodes.find n with
  | some y => pure y
  | none =>
    let y := Node.decode (← x.load n)
    modify fun v => { v with nodes := v.nodes.put n y }
    pure y

/-- Node n becomes y. -/
def Shard.put (_ : Shard) (n : Nat) (y : Node) : Ix Unit :=
  modify fun v => { v with nodes := v.nodes.put n y, dirty := if v.dirty.contains n then v.dirty else n :: v.dirty }

/-- The pool header (R410). -/
def Shard.header (x : Shard) : Ix (Nat × Nat × Nat) := do
  match (← get).hdr with
  | some h => pure h
  | none =>
    let b ← x.load 0
    pure (blk b 0 4, blk b 4 4, blk b 8 4)

/-- The pool header becomes h. -/
def setHeader (h : Nat × Nat × Nat) : Ix Unit := modify fun v => { v with hdr := some h }

/-- Allocates a node: the head of the free list, or else the next never-used node (R410). -/
def Shard.alloc (x : Shard) (kind level : Nat) : Ix Nat := do
  let h ← x.header
  let n ← if h.2.1 = 0 then do setHeader (h.1 + 1, 0, h.2.2 + 1); pure h.2.2
    else do
      let y ← x.node h.2.1
      setHeader (h.1 + 1, y.next, h.2.2)
      pure h.2.1
  modify fun v => { v with fresh := n :: v.fresh }
  x.put n (Node.new kind level)
  pure n

/-- Frees a node: it goes to the head of the free list (R410). -/
def Shard.free (x : Shard) (n : Nat) : Ix Unit := do
  let h ← x.header
  setHeader (h.1 - 1, n, h.2.2)
  x.put n { Node.new 0 0 with next := h.2.1 }

/-- The path from node n to the leaf of a key: the nodes above it with the child taken, lowest first, the leaf's number and the leaf. -/
def Shard.descend (x : Shard) (key : Nat) : Nat → Nat → List (Nat × Nat) → Ix (List (Nat × Nat) × Nat × Node)
  | 0, n, path => do pure (path, n, ← x.node n)
  | fuel + 1, n, path => do
    let y ← x.node n
    if y.kind = 2 then x.descend key fuel (y.kids.getD (y.child key) 0) ((n, y.child key) :: path)
    else pure (path, n, y)

/-- The leaf of a key. A tree of 2^24 nodes is less than 32 levels high (R413). -/
def Shard.find (x : Shard) (key : Nat) : Ix (List (Nat × Nat) × Nat × Node) := x.descend key 32 x.root []

/-- The root's count of entries rises or falls (R411). -/
def Shard.count (x : Shard) (up : Bool) : Ix Unit := do
  let y ← x.node x.root
  x.put x.root { y with count := if up then y.count + 1 else y.count - 1 }

/-- New nodes that a split passes on upwards: one for each full node, and one if the root splits (R413). -/
def Shard.splits (x : Shard) : List (Nat × Nat) → Ix Nat
  | [] => pure 1
  | p :: ps => do
    let y ← x.node p.1
    if y.size < y.room then pure 0 else do pure (1 + (← x.splits ps))

/-- Splits a node that holds one too many, and its parents as far as they are full (R413). -/
def Shard.splitUp (x : Shard) : List (Nat × Nat) → Nat → Ix Unit
  | path, n => do
    let y ← x.node n
    if y.size ≤ y.room then pure ()
    else
      let h := if y.kind = 1 then 6 else 7
      let left := { y with ents := y.ents.take h, seps := y.seps.take (h - 1), kids := y.kids.take h }
      let right := { y with ents := y.ents.drop h, seps := y.seps.drop h, kids := y.kids.drop h, version := 0, count := 0 }
      let sep := if y.kind = 1 then ((y.ents.drop h).map (·.1)).headD 0 else y.seps.getD (h - 1) 0
      match path with
      | [] =>
        let a ← x.alloc y.kind y.level
        let b ← x.alloc y.kind y.level
        x.put a { left with next := if y.kind = 1 then b else 0, version := 0, count := 0 }
        x.put b { right with next := 0 }
        x.put n { y with kind := 2, level := y.level + 1, next := 0, ents := [], seps := [sep], kids := [a, b] }
      | (p, j) :: ps =>
        let b ← x.alloc y.kind y.level
        x.put b { right with next := y.next }
        x.put n { left with next := if y.kind = 1 then b else 0 }
        let z ← x.node p
        x.put p { z with seps := putIn j sep z.seps, kids := putIn (j + 1) b z.kids }
        x.splitUp ps p

/-- Inserts a key (R413), or stops with 0x09 before anything changes (R425). -/
def Shard.insert (x : Shard) (path : List (Nat × Nat)) (n key v : Nat) : Ix Unit := do
  let y ← x.node n
  if 10 ≤ y.ents.length then
    let k ← x.splits path
    let h ← x.header
    let ev ← get
    if x.region.quota < h.1 + (1 + k) then throw (.trap true 0x09 (handleOf x.region.gen (x.num % 64)) ev.s)
  x.put n { y with ents := insertEnt key v y.ents }
  x.count true
  x.splitUp path n

/-- Two neighbours with the separator between them become one node, or two of sizes that differ by at most one (R413). -/
def balance (a b : Node) (sep bn : Nat) : Node × Option (Node × Nat) :=
  let ents := a.ents ++ b.ents
  let seps := if a.kind = 1 then [] else a.seps ++ sep :: b.seps
  let kids := a.kids ++ b.kids
  let t := a.size + b.size
  let h := (t + 1) / 2
  if t ≤ a.room then ({ a with ents := ents, seps := seps, kids := kids, next := b.next }, none)
  else
    ({ a with ents := ents.take h, seps := seps.take (h - 1), kids := kids.take h, next := if a.kind = 1 then bn else 0 },
     some ({ b with ents := ents.drop h, seps := seps.drop h, kids := kids.drop h },
           if a.kind = 1 then ((ents.drop h).map (·.1)).headD 0 else seps.getD (h - 1) 0))

/-- A list without its element at place i. -/
def cutOut (i : Nat) (l : List Nat) : List Nat := l.take i ++ l.drop (i + 1)

/-- Merges upwards from a node that has lost an entry or child, and a root of one child takes its contents (R413). -/
def Shard.mergeUp (x : Shard) : List (Nat × Nat) → Nat → Ix Unit
  | [], n => do
    let y ← x.node n
    match y.kind, y.kids with
    | 2, [c] =>
      let z ← x.node c
      x.put n { z with count := y.count, version := y.version }
      x.free c
    | _, _ => pure ()
  | (p, j) :: ps, n => do
    let y ← x.node n
    if 3 ≤ y.size then pure ()
    else
      let z ← x.node p
      let i := if j + 1 < z.kids.length then j else j - 1
      let an := z.kids.getD i 0
      let bn := z.kids.getD (i + 1) 0
      let a ← x.node an
      let b ← x.node bn
      match balance a b (z.seps.getD i 0) bn with
      | (a', none) =>
        x.put an a'
        x.free bn
        x.put p { z with seps := cutOut i z.seps, kids := cutOut (i + 1) z.kids }
      | (a', some (b', sep)) =>
        x.put an a'
        x.put bn b'
        x.put p { z with seps := z.seps.set i sep }
      x.mergeUp ps p

/-- Deletes a key that is in the leaf (R413). -/
def Shard.delete (x : Shard) (path : List (Nat × Nat)) (n key : Nat) : Ix Unit := do
  let y ← x.node n
  x.put n { y with ents := y.ents.filter fun z => z.1 != key }
  x.count false
  x.mergeUp path n

/-- A key of the leaf takes a value. -/
def Shard.setValue (x : Shard) (n key v : Nat) : Ix Unit := do
  let y ← x.node n
  x.put n { y with ents := y.ents.map fun z => if z.1 = key then (key, v) else z }

/-- Writes a node back with its version (R411): 1 at the first write, one more at each later change, zero in a free node. -/
def Shard.store (x : Shard) (n : Nat) (b : Nat) : Ix Unit := do
  x.check true n
  modify fun v => { v with s := (v.s.engWrite x.who x.pts (linesOf (x.va n) 256) b x.pts).1 }

/-- Writes the nodes that the event has changed. -/
def Shard.storeAll (x : Shard) : List Nat → Ix Unit
  | [] => pure ()
  | n :: ns => do
    let y ← x.node n
    let v ← get
    x.store n { y with version := if y.kind = 0 then 0 else if v.fresh.contains n then 1 else (y.version + 1) % 2 ^ 32 }.encode
    x.storeAll ns

/-- The 256 bytes of the pool header (R410). -/
def headerImage (h : Nat × Nat × Nat) : Nat := h.1 + h.2.1 * 2 ^ 32 + h.2.2 * 2 ^ 64

/-- Runs one event: its steps, then its writes. -/
def Shard.run {α : Type} (x : Shard) (s : State) (m : Ix α) : Except MemRes (α × State) :=
  let all : Ix α := do
    let a ← m
    let v ← get
    x.storeAll v.dirty.reverse
    match v.hdr with
    | some h => x.store 0 (headerImage h)
    | none => pure ()
    pure a
  match all { s := s, nodes := [], dirty := [], fresh := [], hdr := none } with
  | .ok (a, v) => .ok (a, v.s)
  | .error r => .error r

/-! ### The hash accumulator (R422 to R424) -/

/-- Entries of a slice's accumulator. -/
def State.accs (s : State) (cl : Nat) : List AccEntry := Tab.get [] s.acc cl

/-- An entry of the shard's region. -/
def Shard.owns (x : Shard) (a : AccEntry) : Bool := a.slot * 64 + a.num == x.num && a.gen == x.region.gen

/-- The accumulator's value of a key, if it has one. -/
def Shard.acc (x : Shard) (s : State) (key : Nat) : Option Nat :=
  ((s.accs x.cl).find? fun a => x.owns a && a.key == key).map (·.value)

/-- The bank of a key (R422). -/
def bankOf (num key : Nat) : Nat := (hashOf key ^^^ num) % 8

/-- Removes the entry of a key. -/
def Shard.dropAcc (x : Shard) (s : State) (key : Nat) : State :=
  { s with acc := s.acc.put x.cl ((s.accs x.cl).filter fun a => !(x.owns a && a.key == key)) }

/-- Spills the entry of a key: its leaf value is updated or its leaf entry deleted (R424). -/
def Shard.spill (x : Shard) (key v : Nat) : Ix Unit := do
  let (path, n, y) ← x.find key
  if (y.value key).isSome then
    if valZero (spVfmt x.region.desc) v then x.delete path n key else x.setValue n key v
  modify fun ev => { ev with s := x.dropAcc ev.s key }

/-- Spills the entries of the shard for keys that a test picks. -/
def Shard.spillWhere (x : Shard) (p : Nat → Bool) : List AccEntry → Ix Unit
  | [] => pure ()
  | a :: as => do
    if x.owns a && shardOf x.region.desc a.key == x.i && p a.key then x.spill a.key a.value
    x.spillWhere p as

/-- The shard of an accumulator entry. -/
def State.shardOfAcc (s : State) (k : Nat) (a : AccEntry) : Shard :=
  let n := a.slot * 64 + a.num
  s.shardAt k n (s.region n) (shardOf (s.region n).desc a.key)

/-- Spills one entry of a slice's accumulator as an event of its own. -/
def State.spillOne (s : State) (k : Nat) (a : AccEntry) : Except MemRes State :=
  let x := s.shardOfAcc k a
  (x.run s (x.spill a.key a.value)).map (·.2)

/-- The entry of a list that was touched first. -/
def oldestAcc : List AccEntry → Option AccEntry
  | [] => none
  | a :: as => match oldestAcc as with
    | some b => if b.touch < a.touch then some b else some a
    | none => some a

/-- Gives a key's entry a value; where the bank is full, its oldest entry is spilled first (R424). -/
def Shard.setAcc (x : Shard) (s : State) (key v : Nat) : Except MemRes State := do
  let num := x.num % 64
  let entry : AccEntry := { slot := x.num / 64, num := num, gen := x.region.gen, key := key, value := v, touch := (s.die (x.cl / 32)).cyc }
  let put := fun (s : State) =>
    ({ x.dropAcc s key with acc := (x.dropAcc s key).acc.put x.cl (entry :: (x.dropAcc s key).accs x.cl) } : State)
  let bank := (s.accs x.cl).filter fun a => bankOf a.num a.key == bankOf num key
  if (x.acc s key).isSome || bank.length < 512 then pure (put s)
  else match oldestAcc bank with
    | some a => pure (put (← s.spillOne x.who.k a))
    | none => pure (put s)

/-- The value a coordinate has in the accumulator or in its leaf; a zero counts as absent (R423). -/
def Shard.current (x : Shard) (s : State) (y : Node) (key : Nat) : Nat :=
  let v := (x.acc s key).getD ((y.value key).getD 0)
  if valZero (spVfmt x.region.desc) v then 0 else v

/-! ### What an instruction does with a shard (R427, R436) -/

/-- A read or write stamp of a shard (R302, R427): the context's pts rises to the shard's wts. -/
def Shard.stamp (x : Shard) (s : State) (k : Nat) (write : Bool) : State :=
  let r := s.region x.num
  let (w, t) := Tab.get (0, 0) r.stamps x.i
  let p := (s.ctx k).ltime
  let (w, t) := if write then ((serialMax 24 p t + 1) % 2 ^ 24, (serialMax 24 p t + 1) % 2 ^ 24) else (w, serialMax 24 t p)
  (((s.setRegion x.num { r with stamps := r.stamps.put x.i (w, t) }).raiseHome (x.cl / 32) t).raisePts k w)

/-- What a fault held by the index engine waits for: an event of a shard. -/
def Shard.place (x : Shard) : Nat := 4 + 16 * (x.num * 256 + x.i)

/-- A request of `DENSE` at the shard's engine waits on a fault of one of its nodes. -/
def State.denseHolds (s : State) (d : Nat) (x : Shard) : Bool :=
  (s.inboxOf d 16).any fun q => q.shard == x.i && s.slotOf q.core == x.num / 64 && q.src == handleOf x.region.gen (x.num % 64) &&
    (match q.fault.bind fun key => (s.die d).faults.find key with
      | some f => decide (spPool x.region.desc ≤ f.va ∧ f.va < x.va x.region.quota)
      | none => false)

/-- An earlier event of the shard waits for a fault reply. -/
def State.shardHeld (s : State) (x : Shard) : Option (Nat × Nat × UnitFault) :=
  (List.range 8).findSome? fun d => ((s.die d).faults.find? fun e => e.2.place == x.place).map fun e => (d, e.1, e.2)

/-- Performs one event of a shard for a waiting instruction: behind an earlier event that waits for a reply it waits; its own fault is
posted by the engine, restarted on RESUME and trapped on SIGNAL (R436). -/
def onShard {α : Type} (e : Env) (x : Shard) (s : State) (f : State → Except MemRes (α × State)) (ok : α → State → Att) : Att :=
  let d := x.cl / 32
  let go := fun (s : State) => match f s with
    | .ok (a, s) => ok a s
    | .error (.trap _ code val s) => .trap true code val s
    | .error (.fault va cause level pte) =>
      stalled (s.unitFault d 16 va x.region.asid 4 (cause, level, pte) (e.user s) e.k (s.threadWord e.k) x.place).2
    | .error _ => stalled s
  match s.shardHeld x with
  | some (d', key, g) =>
    if g.ctx ≠ e.k || g.reply = .waiting then stalled s
    else
      let s := s.modDie d' fun y => { y with faults := y.faults.del key }
      if g.reply = .signal then .trap true 0x13 g.va s else go s
  | none => if s.denseHolds d x then stalled s else go s

/-! ### The coordinate instructions (R418 to R425) -/

/-- The checks of R419 on the coordinate operand: its key, or the trap. -/
def coordOperand (e : Env) (b : Reg) (r : Region) : Except (Nat × Nat) Nat :=
  let rank := spRank r.desc
  if 3 ≤ rank && (b.toNat % 2 == 1 || b.toNat == 0) then .error (0x01, e.bits)
  else
    let hi := if 3 ≤ rank then e.n (b + 1) else 0
    let x := keyOf4 (e.n b) (e.n b / 2 ^ 32) hi (hi / 2 ^ 32)
    if r.admits x then .ok x else .error (0x01, e.n b)

/-- An operation on the shard of the coordinate s[B] of region s[A]. -/
def onCoord {α : Type} (a b : Reg) (e : Env) (s : State) (f : Shard → Nat → State → Except MemRes (α × State)) (ok : α → State → Att) : Att :=
  withRegion e (e.n a) s fun n r s =>
    match coordOperand e b r with
    | .error (code, val) => .trap false code val s
    | .ok key =>
      let x := s.shardAt e.k n r (shardOf r.desc key)
      onShard e x s (f x key) ok

/-- The value that `SLD` returns (R420). -/
def loaded (f v : Nat) : Word := if f = 0 then BitVec.ofInt 64 (sext v 32) else BitVec.ofNat 64 v

/-- An attempt of `SLD` (R420). -/
def trySld (d a b : Reg) (e : Env) (s : State) : Att :=
  onCoord a b e s (fun x key s => do
    let (y, s) ← x.run s (do pure (← x.find key).2.2)
    pure (loaded (spVfmt x.region.desc) (x.current s y key), x.stamp s e.k false)) fun v s => .done [.s d v] s

/-- SLD (R418, R420). -/
def execSld (l : La) (d a b : Reg) (s : State) : Host.Outcome State Fault Refusal :=
  s.issue (.sld l d a b) l.toNat (trySld d a b)

/-- The tree's side of `SST` (R420, R423): the value to keep in the accumulator, if the key has an entry. -/
def Shard.sst (x : Shard) (key v : Nat) : Ix (Option Nat) := do
  if (x.acc (← get).s key).isSome then pure (some v)
  else
    let (path, n, y) ← x.find key
    match (y.value key).isSome, valZero (spVfmt x.region.desc) v with
    | true, true => x.delete path n key
    | true, false => x.setValue n key v
    | false, true => pure ()
    | false, false => x.insert path n key v
    pure none

/-- The tree's side of `SADD` (R420, R421, R423): the value to keep in the accumulator, and the flags. -/
def Shard.sadd (x : Shard) (key v : Nat) : Ix (Option Nat × Nat) := do
  let (path, n, y) ← x.find key
  let f := spVfmt x.region.desc
  let (sum, flags) := valAdd f (x.current (← get).s y key) v
  if (y.value key).isSome then pure (some sum, flags)
  else if valZero f sum then pure (none, flags)
  else do
    x.insert path n key sum
    pure (some sum, flags)

/-- A store of a shard: the tree, then the accumulator, then the stamps (R423, R427). -/
def Shard.write (x : Shard) (k key : Nat) (s : State) (m : Ix (Option Nat × Nat)) : Except MemRes (Nat × State) := do
  let ((keep, flags), s) ← x.run s m
  let s ← match keep with
    | some v => x.setAcc s key v
    | none => pure s
  pure (flags, x.stamp s k true)

/-- The value operand of `SST` and `SADD` (R419). -/
def valueOperand (e : Env) (d : Reg) (x : Shard) : Nat := e.n d % 2 ^ valBits (spVfmt x.region.desc)

/-- An attempt of `SST` (R420). -/
def trySst (d a b : Reg) (e : Env) (s : State) : Att :=
  onCoord a b e s (fun x key s => x.write e.k key s (do pure (← x.sst key (valueOperand e d x), 0))) fun _ s => .done [] s

/-- SST (R418, R420). -/
def execSst (d a b : Reg) (s : State) : Host.Outcome State Fault Refusal := s.issue (.sst d a b) 0 (trySst d a b)

/-- An attempt of `SADD` (R420, R421). -/
def trySadd (d a b : Reg) (e : Env) (s : State) : Att :=
  onCoord a b e s (fun x key s => x.write e.k key s (x.sadd key (valueOperand e d x))) fun flags s => .done [] (s.flag e.k flags)

/-- SADD (R418, R420, R421). -/
def execSadd (d a b : Reg) (s : State) : Host.Outcome State Fault Refusal := s.issue (.sadd d a b) 0 (trySadd d a b)

/-- LIVE nodes below a level of nodes. -/
def Shard.live (x : Shard) : Nat → List Nat → Ix (List Nat)
  | 0, _ => pure []
  | fuel + 1, ns => do
    match ns with
    | [] => pure []
    | n :: _ =>
      if (← x.node n).kind = 2 then
        let kids ← ns.foldlM (fun l m => do pure (l ++ (← x.node m).kids)) []
        pure (ns ++ (← x.live fuel kids))
      else pure ns

/-- What `SSTAT` reads of a shard: its LIVE nodes, where asked for, and its present coordinates (R434). -/
def Shard.stat (x : Shard) (nodes : Bool) : Ix (Nat × Nat) := do
  let root ← x.node x.root
  let zeros := ((← get).s.accs x.cl).filter fun a => x.owns a && shardOf x.region.desc a.key == x.i && valZero (spVfmt x.region.desc) a.value
  let n ← if nodes then do pure (← x.live 32 [x.root]).length else pure 0
  pure (n, root.count - zeros.length)

/-- The sum over shards, each read in its own event. -/
def statShards (e : Env) (n : Nat) (r : Region) (one : Bool) : List Nat → Nat → Nat → State → Att
  | [], nodes, coords, s => .done [.s 0 (BitVec.ofNat 64 (nodes * 2 ^ 40 + coords))] s
  | i :: is, nodes, coords, s =>
    let x := s.shardAt e.k n r i
    onShard e x s (fun s => do
      let ((m, c), s) ← x.run s (x.stat one)
      pure ((m, c), x.stamp s e.k false)) fun v s => statShards e n r one is (nodes + v.1) (coords + v.2) s

/-- A result for s0 given to sD. -/
def Att.into (d : Reg) : Att → Att
  | .done ws s => .done (ws.map fun w => match w with
      | .s _ v => .s d v
      | w => w) s
  | a => a

/-- An attempt of `SSTAT` (R434). -/
def trySstat (d a b : Reg) (e : Env) (s : State) : Att :=
  withRegion e (e.n a) s fun n r s =>
    if e.n b = 0xFFFF then
      let x := s.shardAt e.k n r 0
      onShard e x s (fun s => x.run s x.header) fun h s => (statShards e n r false (List.range (spShards r.desc)) h.1 0 s).into d
    else if e.n b < spShards r.desc then (statShards e n r true [e.n b] 0 0 s).into d
    else .trap false 0x01 (e.n b) s

/-- SSTAT (R434). -/
def execSstat (l : La) (d a b : Reg) (s : State) : Host.Outcome State Fault Refusal :=
  s.issue (.sstat l d a b) l.toNat (trySstat d a b)

/-! ### Declaring and releasing (R415, R416) -/

/-- The lowest free entry of a launch's region table. -/
def State.freeRegion (s : State) (slot : Nat) : Option Nat :=
  if slot < 1024 then (List.range 64).find? fun i => !(s.region (slot * 64 + i)).declared else none

/-- What stops the writes of `SDECL` to the header and the roots. -/
def State.declStop (s : State) (w : Who) (pool : Nat) : List Nat → Option MemRes
  | [] => none
  | n :: ns => match s.nodeStop w true (pool + 256 * n) with
    | some r => some r
    | none => s.declStop w pool ns

/-- Writes the pool header and the empty roots (R415). -/
def State.declNodes (s : State) (w : Who) (p pool n : Nat) : State :=
  let write := fun (s : State) (i b : Nat) => (s.engWrite w p (linesOf (pool + 256 * i) 256) b p).1
  ((List.range n).map (· + 1)).foldl (fun s i => write s i (Node.new 1 0).encode) (write s 0 (headerImage (n + 1, 0, n + 1)))

/-- An attempt of `SDECL` (R415). -/
def trySdecl (d a : Reg) (e : Env) (s : State) : Att :=
  let at_ := e.n a
  if at_ % 64 ≠ 0 then .trap false 0x03 at_ s
  else if !winOwn.contains (winTag at_) then .trap false 0x04 at_ s
  else snapshot 0 e s (s.plainRead (s.who e.k) .load at_ 64) fun b s =>
    if badRegion b then .trap true 0x01 at_ s
    else match s.freeRegion (s.slotOf e.core) with
      | none => .done [.s d 0] s
      | some i => releasing e s fun s =>
        let asid := (s.ctx e.k).asid
        let w : Who := { k := e.k, core := e.core, asid := asid, sup := true, unit := true }
        let n := spShards b
        match s.declStop w (spPool b) (List.range (n + 1)) with
        | some r => lsu e .engWrite s (fun _ s => stalled s) r
        | none =>
          let s := s.declNodes w (s.ctx e.k).ltime (spPool b) n
          let num := s.slotOf e.core * 64 + i
          let gen := ((s.region num).gen + 1) % 256
          let r : Region := { gen := gen, declared := true, desc := b, at_ := at_, asid := asid, quota := spQuota b, ext := spExt b, stale := false, stamps := [] }
          .done [.s d (BitVec.ofNat 64 (handleOf gen i))] (s.setRegion num { r with stamps := (List.range n).map fun j => (j, s.shardTime e.k num r j) })

/-- SDECL (R415). -/
def execSdecl (l : La) (d a : Reg) (s : State) : Host.Outcome State Fault Refusal := s.issue (.sdecl l d a) l.toNat (trySdecl d a)

/-- An event of the region waits for a fault reply. -/
def State.regionHeld (s : State) (k n : Nat) (r : Region) : Bool :=
  (List.range (spShards r.desc)).any fun i =>
    let x := s.shardAt k n r i
    match s.shardHeld x with
    | some (_, _, f) => f.ctx != k
    | none => s.denseHolds (x.cl / 32) x

/-- Numbers in ascending order. -/
def insertNat (x : Nat) : List Nat → List Nat
  | [] => [x]
  | y :: ys => if x ≤ y then x :: y :: ys else y :: insertNat x ys
def sortNat (l : List Nat) : List Nat := l.foldr insertNat []

/-- The LIVE nodes of all shards of a region. -/
def Shard.liveAll (x : Shard) : List Nat → Ix (List Nat)
  | [] => pure []
  | i :: is => do pure ((← x.live 32 [1 + i]) ++ (← x.liveAll is))

/-- Every LIVE node returns to FREE, in ascending order (R416). -/
def Shard.freeAll (x : Shard) : Ix Unit := do
  let h ← x.header
  setHeader h
  (sortNat (← x.liveAll (List.range (spShards x.region.desc)))).forM x.free
  let h ← x.header
  setHeader (1, h.2.1, h.2.2)

/-- The accumulator entries of a region go without a spill (R416). -/
def State.discardAcc (s : State) (n gen : Nat) : State :=
  { s with acc := s.acc.map fun (t : Nat × List AccEntry) => (t.1, t.2.filter fun a => !(a.slot * 64 + a.num == n && a.gen == gen)) }

/-- An attempt of `SDECL FREE` (R416). -/
def trySdeclFree (a : Reg) (e : Env) (s : State) : Att :=
  match s.regionOf (s.slotOf e.core) (e.n a) with
  | none => .trap false 0x01 (e.n a) s
  | some (n, r) =>
    if s.regionHeld e.k n r then stalled s
    else releasing e s fun s =>
      let x := s.shardAt e.k n r 0
      onShard e x s (fun s => x.run (s.discardAcc n r.gen) x.freeAll) fun _ s => .done [] (s.setRegion n { r with declared := false })

/-- SDECL FREE (R416). -/
def execSdeclFree (a : Reg) (s : State) : Host.Outcome State Fault Refusal := s.issue (.sdeclFree a) 0 (trySdeclFree a)

/-! ### Cursors (R428 to R433) -/

/-- A closed record (R428). -/
def Cursor.reset : Cursor := { opened := false, handle := 0, last := false, ended := false, dead := false, gen := 0, lo := 0, hi := 0, key := 0 }

/-- Cursor record i of core c. -/
def State.cursor (s : State) (c i : Nat) : Cursor := Tab.get Cursor.reset (s.core c).cursors i
def State.setCursor (s : State) (c i : Nat) (x : Cursor) : State := s.modCore c fun y => { y with cursors := y.cursors.put i x }

/-- The open record of a cursor word. -/
def State.cursorOf (s : State) (c w : Nat) : Option (Nat × Cursor) :=
  let x := s.cursor c (w % 16)
  if x.opened && w == handleOf x.gen (w % 16) then some (w % 16, x) else none

/-- A box of a block lies in the region (R429). -/
def Region.boxOk (r : Region) (lo hi : Nat) : Bool :=
  (List.range 4).all fun i =>
    if i < spRank r.desc then decide (coord lo i ≤ coord hi i ∧ coord hi i < extent r.ext i) else coord lo i == 0 && coord hi i == 0

/-- An attempt of `SITER` (R429). -/
def trySiter (d a b : Reg) (e : Env) (s : State) : Att :=
  withRegion e (e.n a) s fun _ r s =>
    let va := e.n b
    if va % 8 ≠ 0 then .trap false 0x03 va s
    else lsu e .load s (fun x s =>
      let lo := keyImage (x % 2 ^ 128)
      let hi := keyImage (x / 2 ^ 128)
      if !r.boxOk lo hi then .trap true 0x01 va s
      else match (List.range 16).find? fun i => !(s.cursor e.core i).opened with
        | none => .done [.s d 0] s
        | some i =>
          let gen := ((s.cursor e.core i).gen + 1) % 256
          .done [.s d (BitVec.ofNat 64 (handleOf gen i))] (s.setCursor e.core i
            { opened := true, handle := e.n a, last := false, ended := false, dead := false, gen := gen, lo := lo, hi := hi, key := 0 }))
      (s.plainRead (s.who e.k) .load va 32)

/-- SITER (R429). -/
def execSiter (l : La) (d a b : Reg) (s : State) : Host.Outcome State Fault Refusal := s.issue (.siter l d a b) l.toNat (trySiter d a b)

/-- Up to 17 keys of the leaf chain from a leaf on that a test picks, with their values; keys beyond `hi` end the walk. -/
def Shard.walk (x : Shard) (keep : Nat → Bool) (hi : Nat) : Nat → Nat → List (Nat × Nat) → Ix (List (Nat × Nat))
  | 0, _, l => pure l
  | fuel + 1, n, l => do
    let y ← x.node n
    let l := l ++ y.ents.filter fun z => keep z.1
    if 17 ≤ l.length || y.next = 0 || (y.ents.any fun z => decide (hi < z.1)) then pure l
    else x.walk keep hi fuel y.next l

/-- A cursor's read of one shard (R430): its entries of the box above K are spilled, its first 16 keys taken, and MORE. -/
def Shard.batch (x : Shard) (lo hi from_ : Nat) : Ix (List (Nat × Nat) × Bool) := do
  let keep := fun key => inBox lo hi key && decide (from_ ≤ key)
  x.spillWhere keep ((← get).s.accs x.cl)
  let root ← x.node x.root
  let (_, n, _) ← x.find from_
  let l ← x.walk keep hi (root.count + 1) n []
  pure (l.take 16, decide (16 < l.length))

/-- The reads of all shards of a cursor's box, one request each. -/
def batchShards (e : Env) (n : Nat) (r : Region) (c : Cursor) (go : List (Nat × Nat) → Bool → State → Att) :
    List Nat → List (Nat × Nat) → Bool → State → Att
  | [], l, more, s => go l more s
  | i :: is, l, more, s =>
    let x := s.shardAt e.k n r i
    onShard e x s (fun s => do
      let (v, s) ← x.run s (x.batch c.lo c.hi (if c.last then c.key + 1 else c.lo))
      pure (v, x.stamp s e.k false)) fun v s => batchShards e n r c go is (l ++ v.1) (more || v.2) s

/-- Entries sorted by key. -/
def sortEnts (l : List (Nat × Nat)) : List (Nat × Nat) := l.foldr (fun x l => insertEnt x.1 x.2 l) []

/-- A register whose first elements are replaced. -/
def refreshed (w : Nat) (old : VReg) (xs : List Nat) : VReg :=
  vecOf w ((List.range (512 / w)).map fun j => xs.getD j (elem w old j))

/-- The registers that a batch writes (R430, R431). -/
def batchWrites (e : Env) (desc : Nat) (b c : Reg) (l : List (Nat × Nat)) : List Wr :=
  ((List.range (spRank desc)).map fun i => Wr.v (b + BitVec.ofNat 5 i) (refreshed 32 (e.v (b + BitVec.ofNat 5 i)) (l.map fun x => coord x.1 i))) ++
    if spVfmt desc = 2 then [.v c (refreshed 64 (e.v c) ((l.take 8).map (·.2))), .v (c + 1) (refreshed 64 (e.v (c + 1)) ((l.drop 8).map (·.2)))]
    else [.v c (refreshed 32 (e.v c) (l.map (·.2)))]

/-- The destinations of SNEXT lie outside the register file or overlap (R430). -/
def badSnext (desc : Nat) (b c : Reg) : Bool :=
  let n := spRank desc
  let m := if spVfmt desc = 2 then 2 else 1
  decide (32 < b.toNat + n) || decide (32 < c.toNat + m) || (decide (b.toNat < c.toNat + m) && decide (c.toNat < b.toNat + n))

/-- The word that SNEXT returns. -/
def snextWord (n : Nat) (x : Cursor) : Word := BitVec.ofNat 64 (n + ofBool x.ended * 2 ^ 63 + ofBool x.dead * 2 ^ 62)

/-- An attempt of `SNEXT` (R430). The registers are checked by the rank and format of the table entry that the handle names, which a released
region keeps until the entry is declared again. -/
def trySnext (d a b c : Reg) (e : Env) (s : State) : Att :=
  match s.cursorOf e.core (e.n a) with
  | none => .trap false 0x01 (e.n a) s
  | some (i, x) =>
    let slot := s.slotOf e.core
    if badSnext (s.region (slot * 64 + x.handle % 64)).desc b c then illegal e s
    else match s.regionOf slot x.handle with
      | none =>
        let x := { x with dead := true, ended := true }
        .done [.s d (snextWord 0 x)] (s.setCursor e.core i x)
      | some _ =>
        if x.ended || x.dead then .done [.s d (snextWord 0 x)] s
        else withRegion e x.handle s fun n r s =>
          batchShards e n r x (fun l more s =>
            let x := { x with ended := decide (l.length ≤ 16) && !more }
            let l := (sortEnts l).take 16
            let x := match l.getLast? with
              | some y => { x with last := true, key := y.1 }
              | none => x
            .done (.s d (snextWord l.length x) :: batchWrites e r.desc b c l) (s.setCursor e.core i x))
            (shardsOf r.desc x.lo x.hi) [] false s

/-- SNEXT (R430, R431). -/
def execSnext (l : La) (d a b c : Reg) (s : State) : Host.Outcome State Fault Refusal :=
  s.issue (.snext l d a b c) l.toNat (trySnext d a b c)

/-- SCLOSE (R433). -/
def execSclose (a : Reg) (s : State) : Host.Outcome State Fault Refusal :=
  s.issue (.sclose a) 0 fun e s' => match s'.cursorOf e.core (e.n a) with
    | none => .trap false 0x01 (e.n a) s'
    | some (i, x) => .done [] (s'.setCursor e.core i { x with opened := false })

/-! ### DENSE (R338, R341, R342, R435) -/

/-- The volume of a box of a rank. -/
def boxVolume (rank lo hi : Nat) : Nat := (List.range rank).foldl (fun v i => v * (coord hi i + 1 - coord lo i)) 1

/-- Coordinate i of element j of a box in row-major order, coordinate 0 slowest. -/
def boxCoord (rank lo hi j i : Nat) : Nat :=
  if i < rank then
    let after := ((List.range rank).drop (i + 1)).foldl (fun v m => v * (coord hi m + 1 - coord lo m)) 1
    coord lo i + j / after % (coord hi i + 1 - coord lo i)
  else 0

/-- The key of element j of a box. -/
def boxKey (rank lo hi j : Nat) : Nat :=
  keyOf4 (boxCoord rank lo hi j 0) (boxCoord rank lo hi j 1) (boxCoord rank lo hi j 2) (boxCoord rank lo hi j 3)

/-- A box that `DENSE` does not take: LO > HI, a coordinate beyond the rank, or more than 2^32 elements. -/
def badBox (rank lo hi : Nat) : Bool :=
  !((List.range 4).all fun i => if i < rank then decide (coord lo i ≤ coord hi i) else coord lo i == 0 && coord hi i == 0) ||
    decide (2 ^ 32 < boxVolume rank lo hi)

/-- Element size of a value format (R435). -/
def valBytes (f : Nat) : Nat := valBits f / 8

/-- An attempt of `DENSE`: the checks of R338 that need its handle, then its requests, one a shard. -/
def tryDense (d a : Reg) (cc : Nat) (e : Env) (s : State) : Att :=
  engineIssue a .dense e s fun b s =>
    let h := blkSrc b
    let dst := blkDst b
    let lo := keyImage (blk b 16 16)
    let hi := keyImage (blk b 32 16)
    let g := s.regionOf (s.slotOf e.core) h
    let bad := match g with
      | some (_, r) => badBox (spRank r.desc) lo hi
      | none => true
    let n := match g with
      | some (_, r) => if bad then 1 else boxVolume (spRank r.desc) lo hi * valBytes (spVfmt r.desc)
      | none => 1
    match badWindow [(dst, n, winOwn)] with
    | some va => .trap true 0x04 va s
    | none =>
      if winTag dst != 0 && !s.scratchIn e.core dst n then .trap true 0x0C dst s
      else match g with
        | none => .trap true 0x01 h s
        | some (num, r) =>
          if bad then .trap true 0x01 h s
          else
            let reqs := (shardsOf r.desc lo hi).map fun i =>
              let x := s.shardAt e.k num r i
              (x.cl / 32 * 64 + 16, { newReq .dense e.core h dst (boxVolume (spRank r.desc) lo hi) with shard := i })
            let t := { s.newXfer e .dense cc b dst h n n reqs.length with esize := valBytes (spVfmt r.desc), lo := lo, hi := hi }
            beginXfer d t (s.lockRange (s.who e.k) dst n true) reqs e s

/-- DENSE (R336, R435). -/
def execDense (l : La) (d a : Reg) (n : BitVec 7) (s : State) : Host.Outcome State Fault Refusal :=
  s.issue (.dense l d a n) l.toNat (tryDense d a n.toNat)

/-- Elements of a box from place j on that belong to a shard, each read and written in its own event: how far it came, the bytes counted,
the greatest wts, and why it stopped. -/
def State.denseElems (s : State) (x : Shard) (t : Xfer) (w : Who) (rank : Nat) : Nat → Nat → Nat → Nat → State × Nat × Nat × Nat × Served
  | 0, j, n, wts => (s, j, n, wts, .all)
  | fuel + 1, j, n, wts =>
    let key := boxKey rank t.lo t.hi j
    if shardOf x.region.desc key ≠ x.i then s.denseElems x t w rank fuel (j + 1) n wts
    else match x.run s (do pure (← x.find key).2.2) with
      | .error r => (r.state s, j, n, wts, Served.of false r)
      | .ok (y, s) => match s.engStore w t.pts (t.dst + j * t.esize) t.esize (x.current s y key) with
        | .ok wt s => s.denseElems x t w rank fuel (j + 1) (n + t.esize) (serialMax 24 wts wt)
        | r => (r.state s, j, n, wts, Served.of true r)

/-- DENSE_SHARD (R435): a request first spills the accumulator entries of its box, then writes its elements, 64 of the box at a time. A region
released meanwhile ends the transfer with 0x0C (R416). -/
def execDenseShard (die : Nat) (s : State) : Host.Outcome State Fault Refusal :=
  .next <| s.serve die 16 .dense fun i q t s =>
    match s.regionOf (s.slotOf q.core) q.src with
    | none => s.reqEnd die 16 i q t 0 t.pts false (.error 0x0C)
    | some (num, r) =>
      let x := { s.shardAt t.ctx num r q.shard with pts := t.pts }
      if (s.shardHeld x).isSome then s
      else match if q.pos = 0 then x.run s (do x.spillWhere (inBox t.lo t.hi) ((← get).s.accs x.cl)) else .ok ((), s) with
        | .error m => (m.state s).reqEnd die 16 i q t 0 t.pts false (Served.of false m)
        | .ok (_, s) =>
          let (s, j, n, wts, stop) := s.denseElems x t (t.who q.core) (spRank r.desc) (min 64 (q.n - q.pos)) q.pos 0 t.pts
          s.reqEnd die 16 i { q with pos := j } t n wts (decide (j < q.n)) stop

/-! ### Events of the index engines -/

/-- ACCUMULATOR_SPILL (R424): entry i of a slice's accumulator, once it has not been touched for 4,096 cycles of its die. -/
def execAccumulatorSpill (cluster i : Nat) (s : State) : Host.Outcome State Fault Refusal :=
  match (s.accs cluster)[i]? with
  | none => .next s
  | some a =>
    if a.touch + 4096 ≤ (s.die (cluster / 32)).cyc then
      match s.spillOne ((s.launch a.slot).clusters.headD 0 * 128) a with
      | .ok s => .next s
      | .error _ => .next s
    else .next s

/-- Spills every accumulator entry of a launch (R437). -/
def State.spillLaunch (s : State) (slot : Nat) : State :=
  (s.acc.flatMap fun t => t.2.filter fun a => a.slot == slot).foldl (fun s a =>
    match s.spillOne ((s.launch slot).clusters.headD 0 * 128) a with
    | .ok s => s
    | .error _ => s) s

end Sys2Proof.Machine
end

