-- ==== Sys2Proof/Machine/Grid.lean ====
section
/-! DEFINITION. Grid objects and the halo engine (R438 to R463): descriptors, parts and cells, the step state of a part, the `GRID`
instructions, pushes, and declaring and releasing. The cells of a part are kept beside memory, by the address of the part's block: the
layout of a block is the halo engine's own (R443, log 31). -/

namespace Sys2Proof.Machine

/-! ### Descriptors (R439, R440, R443) -/

/-- Fields of a descriptor (R439). -/
def gdRank (d : Nat) : Nat := blk d 0 1
def gdType (d : Nat) : ElTy := ElTy.ofCode (BitVec.ofNat 3 (blk d 1 1))
def gdDepth (d : Nat) : Nat := blk d 2 1
def gdFast (d : Nat) : Bool := bit (blk d 3 1) 0
def gdW (d f : Nat) : Nat := blk d 4 4 / 2 ^ (4 * f) % 16
def gdBnd (d f : Nat) : Nat := blk d 8 4 / 2 ^ (3 * f) % 8
def gdStart (d : Nat) : Nat := blk d 12 4
def gdE (d a : Nat) : Nat := blk d (16 + 4 * a) 4
def gdP (d a : Nat) : Nat := blk d (28 + 2 * a) 2
def gdConst (d : Nat) : Nat := blk d 40 8
def gdTimeout (d : Nat) : Nat := blk d 48 8
def gdBase (d : Nat) : Nat := blk d 56 8

/-- Parts of the grid. -/
def gdCount (d : Nat) : Nat := gdP d 0 * gdP d 1 * gdP d 2

/-- The part counts lie in their row of R439. -/
def partsOk (d : Nat) : Bool :=
  ((List.range 3).all fun a => decide (1 ≤ gdP d a ∧ gdP d a ≤ gdE d a)) && decide (gdCount d ≤ 4096)

/-- A field lies outside R439 or a shape outside R440. -/
def badGrid (d : Nat) : Bool :=
  let r := gdRank d
  !(decide (1 ≤ r ∧ r ≤ 3) && decide (blk d 1 1 ≤ 6) && decide (1 ≤ gdDepth d ∧ gdDepth d ≤ 4) && decide (blk d 3 1 ≤ 1) &&
    blk d 7 1 == 0 && blk d 8 4 / 2 ^ 18 == 0 && partsOk d && blk d 34 6 == 0 && winTag (gdBase d) == 0 && gdBase d % 65536 == 0 &&
    ((List.range 6).all fun f => decide (gdW d f ≤ 8) && decide (gdBnd d f ≤ 4) && (decide (f < 2 * r) || (gdW d f == 0 && gdBnd d f == 0))) &&
    ((List.range 3).all fun a => decide (gdE d a ≤ 2 ^ 24) && (decide (a < r) || (gdE d a == 1 && gdP d a == 1))) &&
    ((List.range r).all fun a => ((gdBnd d (2 * a) == 1) == (gdBnd d (2 * a + 1) == 1)) &&
      decide (max (gdW d (2 * a)) (gdW d (2 * a + 1)) + 1 ≤ gdE d a / gdP d a) &&
      decide ((gdE d a + gdP d a - 1) / gdP d a ≤ 2 ^ 20 - 16)))

/-- Element bytes. -/
def gdBytes (d : Nat) : Nat := (gdType d).width / 8

/-- The size of a part block, and the stride between blocks (R443). -/
def gdSize (d : Nat) : Nat :=
  let n := fun a => (gdE d a + gdP d a - 1) / gdP d a
  let inner := n 0 * n 1 * n 2
  let outer := (n 0 + gdW d 0 + gdW d 1) * (n 1 + gdW d 2 + gdW d 3) * (n 2 + gdW d 4 + gdW d 5)
  4096 + 2 * roundUp (inner * gdBytes d) 64 + gdDepth d * roundUp ((outer - inner) * gdBytes d) 64
def gdStride (d : Nat) : Nat := roundUp (gdSize d) 65536

/-- The address of a part's block. -/
def blockVA (d p : Nat) : Nat := gdBase d + p * gdStride d

/-! ### Parts and cells (R441, R442) -/

/-- Origin of part index i on an axis, and its extent (R441). -/
def origin (d a i : Nat) : Nat := i * gdE d a / gdP d a
def cellsOn (d a i : Nat) : Nat := origin d a (i + 1) - origin d a i

/-- The index of part p on an axis. -/
def partIndex (d p : Nat) : Nat → Nat
  | 0 => p % gdP d 0
  | 1 => p / gdP d 0 % gdP d 1
  | _ => p / (gdP d 0 * gdP d 1)

/-- What a local coordinate names on one axis: an interior cell, a cell of a part index, a constant, nothing, or no place in the shell. -/
inductive AxisCell where
  | inside (x : Nat)
  | at (i x : Nat)
  | const
  | missing
  | out
  deriving DecidableEq, Repr

/-- The part index and local coordinate of a global coordinate on an axis. -/
def ownerOn (d a g : Nat) : AxisCell :=
  let i := ((g + 1) * gdP d a - 1) / gdE d a
  .at i (g - origin d a i)

/-- A global coordinate beyond a face, by the face's rule (R442). -/
def beyond (d a : Nat) (high : Bool) (g : Int) : AxisCell :=
  let e : Int := gdE d a
  match gdBnd d (2 * a + ofBool high) with
  | 1 => ownerOn d a (if high then g - e else g + e).toNat
  | 2 => .const
  | 3 => ownerOn d a (if high then 2 * (e - 1) - g else -g).toNat
  | 4 => ownerOn d a (if high then e - 1 else 0).toNat
  | _ => .missing

/-- Local coordinate x of part index i on an axis (R441, R442). -/
def axisCell (d a i : Nat) (x : Int) : AxisCell :=
  let n : Int := cellsOn d a i
  let g : Int := origin d a i + x
  if 0 ≤ x ∧ x < n then .inside x.toNat
  else if x < -(gdW d (2 * a) : Int) ∨ n + gdW d (2 * a + 1) ≤ x then .out
  else if g < 0 then beyond d a false g
  else if gdE d a ≤ g then beyond d a true g
  else ownerOn d a g.toNat

/-- A cell of a part: interior, of a segment (its source part and cell there), constant, missing, or outside the shell. -/
inductive GCell where
  | inside (n : Nat)
  | ghost (q n : Nat)
  | const
  | missing
  | out
  deriving DecidableEq, Repr

/-- The number of cell (x0, x1, x2) of the part with these indices. -/
def cellNumber (d : Nat) (i x : Nat → Nat) : Nat := x 0 + cellsOn d 0 (i 0) * (x 1 + cellsOn d 1 (i 1) * x 2)

/-- The cell of part p at a local coordinate (R442): CONST takes precedence over NONE. -/
def cellAt (d p : Nat) (x : Nat → Int) : GCell :=
  let ax := fun a => axisCell d a (partIndex d p a) (x a)
  let l := [ax 0, ax 1, ax 2]
  let isIn := fun c => match c with
    | AxisCell.inside _ => true
    | _ => false
  let i := fun a => match ax a with
    | .at i _ => i
    | _ => partIndex d p a
  let y := fun a => match ax a with
    | .inside y => y
    | .at _ y => y
    | _ => 0
  if l.contains .out then .out
  else if l.all isIn then .inside (cellNumber d (partIndex d p) y)
  else if l.contains .const then .const
  else if l.contains .missing then .missing
  else .ghost (i 0 + gdP d 0 * (i 1 + gdP d 1 * i 2)) (cellNumber d i y)

/-- The part indices that cells of part index i come from on an axis, ghost ones marked. -/
def axisSources (d a i : Nat) : List (Bool × Nat) :=
  let lo := (List.range (gdW d (2 * a))).map fun (j : Nat) => -(j : Int) - 1
  let hi := (List.range (gdW d (2 * a + 1))).map fun (j : Nat) => (cellsOn d a i : Int) + (j : Int)
  ((false, i) :: (lo ++ hi).filterMap fun x => match axisCell d a i x with
    | .at j _ => some (true, j)
    | _ => none).eraseDups

/-- The sources q of part p's segments (p, q) (R442). -/
def segmentsOf (d p : Nat) : List Nat :=
  let s := fun a => axisSources d a (partIndex d p a)
  ((s 0).flatMap fun u => (s 1).flatMap fun v => (s 2).filterMap fun w =>
    if u.1 || v.1 || w.1 then some (u.2 + gdP d 0 * (v.2 + gdP d 1 * w.2)) else none).eraseDups

/-- The parts whose segments part p feeds, ascending (R454). -/
def feedsOf (d p : Nat) : List Nat := (List.range (gdCount d)).filter fun q => (segmentsOf d q).contains p

/-! ### Step state (R445, R446) -/

/-- Step a is newer than b (R445). -/
def newer (a b : Nat) : Bool := serialGe 32 a b && a % 2 ^ 32 != b % 2 ^ 32

/-- The older of two steps. -/
def older (a b : Nat) : Nat := if newer a b then b else a

/-- A part after `GDECL` (R446). -/
def Part.reset (d : Nat) : Part := { m := (gdStart d + 2 ^ 32 - 1) % 2 ^ 32, front := [], back := [], backTag := none, segs := [] }

/-- The part of a block. -/
def State.partAt (s : State) (d pa : Nat) : Part := Tab.get (Part.reset d) s.parts pa
def State.setPart (s : State) (pa : Nat) (x : Part) : State := { s with parts := s.parts.put pa x }

/-- Segment (p, q), and slot j of it. -/
def Part.seg (x : Part) (q : Nat) : Segment := Tab.get { slots := [], latest := none } x.segs q
def Segment.slot (g : Segment) (j : Nat) : Ghost := Tab.get { stamp := none, cells := [], pts := 0 } g.slots j

/-! ### Handles and checks (R438, R448, R449) -/

/-- Grid entry n, numbered slot * 32 + entry. -/
def State.grid (s : State) (n : Nat) : Grid := Tab.get Grid.reset s.grids n
def State.setGrid (s : State) (n : Nat) (g : Grid) : State := { s with grids := s.grids.put n g }

/-- The grid of a handle within a launch. -/
def State.gridOf (s : State) (slot h : Nat) : Option (Nat × Grid) :=
  let n := slot * 32 + h % 32
  let g := s.grid n
  if slot < 1024 && g.declared && h == handleOf g.gen (h % 32) then some (n, g) else none

/-- The operation waits for a stale halo (R453, R457). -/
def Env.haloWaits (e : Env) : Bool := (e.wait.map (·.aux)) == some [1]

/-- Finds the grid of s[A] and reads MODE, GTIMEOUT and CONST again where a `DINV` asks for it (R461); one that waits for a halo finishes under what it
has found (R330). -/
def withGrid (e : Env) (h : Nat) (s : State) (go : Nat → Grid → State → Att) : Att :=
  match s.gridOf (s.slotOf e.core) h with
  | none => .trap false 0x01 h s
  | some (n, g) =>
    if g.stale && !e.haloWaits then
      lsu e .load s (fun b s =>
        let g := { g with fast := gdFast b, timeout := gdTimeout b, const := gdConst b, stale := false }
        go n g (s.setGrid n g)) (s.plainRead (s.who e.k) .load g.at_ 64)
    else go n g s

/-- PART of an operand word, and whether the word names no part of the grid. -/
def wordPart (w : Nat) : Nat := bits w 43 32
def badPart (g : Grid) (w : Nat) : Bool := bits w 63 44 != 0 || decide (gdCount g.desc ≤ wordPart w)

/-- Package and die of a part's owner (R439). -/
def Grid.pkg (g : Grid) (p : Nat) : Nat := g.owners.getD p 0 / 256
def Grid.die (g : Grid) (p : Nat) : Nat := g.owners.getD p 0 % 8

/-- The part is not one that the context may work on (R449). -/
def State.notMine (s : State) (g : Grid) (e : Env) (p : Nat) (anyDie : Bool) : Bool :=
  g.pkg p != s.pkg.number || (!anyDie && g.die p != e.die)

/-- Local coordinate of axis a in a coordinate word (R448). -/
def wordCoord (rank w a : Nat) : Int := if a < rank then sext (w / 2 ^ (21 * a)) 21 else 0

/-- The operands of `LDG` and `STG` (R448, R449): part, tag and cell, or the trap. -/
def gridOperand (e : Env) (b : Reg) (g : Grid) (s : State) : Except (Nat × Nat) (Nat × Nat × GCell) :=
  let x := e.n b
  let t := e.n (b + 1)
  if b.toNat % 2 = 1 || b.toNat = 0 then .error (0x01, e.bits)
  else if x / 2 ^ (21 * gdRank g.desc) != 0 then .error (0x01, x)
  else if badPart g t then .error (0x01, t)
  else if s.notMine g e (wordPart t) false then .error (0x10, t)
  else .ok (wordPart t, t % 2 ^ 32, cellAt g.desc (wordPart t) (wordCoord (gdRank g.desc) x))

/-! ### Events at a part home (R444, R450) -/

/-- The halo engine of a die as an accessor. -/
def haloWho (k d asid : Nat) : Who := { k := k, core := d * 512, asid := asid, sup := true, unit := true }

/-- What stops the halo engine at a part block: the checks of R289, and a page that is not of KIND 2 with R and W. -/
def State.blockStop (s : State) (w : Who) (write : Bool) (va : Nat) : Option MemRes :=
  match s.firstStop w (if write then .engWrite else .engRead) va 64 false [(va, 64)] with
  | some r => some r
  | none => match s.leaf (dieOf w.core) w.asid va with
    | .leaf pte _ level => if pteKind pte != 2 || !pteR pte || !pteW pte then some (.fault va 1 level pte) else none
    | _ => none

/-- What a fault held by the halo engine waits for: an event of a part, or a push. -/
def placePart (n p : Nat) : Nat := 5 + 16 * (n * 4096 + p)
def placePush : Nat := 6

/-- Performs one event of a part (R450): behind an earlier event that waits for a reply it waits; its own fault is posted by the halo engine,
restarted on RESUME and trapped on SIGNAL. -/
def onPart (e : Env) (n : Nat) (g : Grid) (p : Nat) (write : Bool) (s : State) (f : Nat → State → Att) : Att :=
  let d := g.die p
  let va := blockVA g.desc p
  let w := haloWho e.k d g.asid
  let go := fun (s : State) => match s.blockStop w write va with
    | none => f (s.pieceAt w .engRead va 64).1 s
    | some (.fault va' cause level pte) =>
      stalled (s.unitFault d 17 va' g.asid (if write then 5 else 4) (cause, level, pte) (e.user s) e.k (s.threadWord e.k) (placePart n p)).2
    | some (.trap _ code val s) => .trap true code val s
    | some _ => stalled s
  match (s.die d).faults.find? fun x => x.2.place == placePart n p with
  | none => go s
  | some (key, x) =>
    if x.ctx ≠ e.k || x.reply = .waiting then stalled s
    else
      let s := s.modDie d fun y => { y with faults := y.faults.del key }
      if x.reply = .signal then .trap true 0x13 va s else go s

/-- The value of a cell as `LDG` returns it (R450). -/
def cellValue (t : ElTy) (v : Nat) : Word := if t.isInt then BitVec.ofInt 64 (sext v t.width) else BitVec.ofNat 64 (v % 2 ^ t.width)

/-! ### The GRID instructions (R451 to R458) -/

/-- A wait for a stale halo ends: its sample is taken (R523). -/
def waited (e : Env) (p : Nat) (s : State) : State := if e.haloWaits then s.latency e.die 4 p else s

/-- An attempt of `LDG` (R452, R453). -/
def tryLdg (d a b : Reg) (e : Env) (s : State) : Att :=
  withGrid e (e.n a) s fun n g s =>
    match gridOperand e b g s with
    | .error (code, val) => .trap false code val s
    | .ok (p, t, cell) =>
      let word := e.n (b + 1)
      let ty := gdType g.desc
      if cell = .out || cell = .missing then .trap false 0x01 (e.n b) s
      else onPart e n g p false s fun pa s =>
        let x := s.partAt g.desc pa
        let give := fun (v : Nat) => Att.done [.s d (cellValue ty v)] s
        match cell with
        | .inside i =>
          if t = x.m then give (Tab.get 0 x.front i)
          else if x.backTag = some t then give (Tab.get 0 x.back i)
          else if newer x.m t then .trap true 0x08 word s
          else .trap true 0x07 word s
        | .ghost q i =>
          let seg := x.seg q
          let h := seg.slot (t % gdDepth g.desc)
          if h.stamp = some t then .done [.s d (cellValue ty (Tab.get 0 h.cells i))] (waited e p s)
          else if (seg.latest.map fun l => newer l t).getD false then .trap true 0x08 word s
          else
            let until_ := e.until s (BitVec.ofNat 64 g.timeout)
            if !e.haloWaits && (g.fast || g.timeout = 0) || s.passed e.die until_ then .trap true 0x07 word s
            else .wait { how := .running, deadline := until_, aux := [1] } s
        | _ => give g.const

/-- LDG (R447, R452, R453). -/
def execLdg (l : La) (d a b : Reg) (s : State) : Host.Outcome State Fault Refusal := s.issue (.ldg l d a b) l.toNat (tryLdg d a b)

/-- An attempt of `STG` (R451). -/
def tryStg (d a b : Reg) (e : Env) (s : State) : Att :=
  withGrid e (e.n a) s fun n g s =>
    match gridOperand e b g s with
    | .error (code, val) => .trap false code val s
    | .ok (p, t, .inside i) =>
      onPart e n g p true s fun pa s =>
        let x := s.partAt g.desc pa
        if !newer t x.m || (x.backTag.map fun u => u != t).getD false then .trap true 0x08 (e.n (b + 1)) s
        else .done [] (s.setPart pa { x with backTag := some t, back := x.back.put i (e.n d % 2 ^ (gdType g.desc).width) })
    | .ok _ => .trap false 0x01 (e.n b) s

/-- STG (R447, R451). -/
def execStg (d a b : Reg) (s : State) : Host.Outcome State Fault Refusal := s.issue (.stg d a b) 0 (tryStg d a b)

/-- What a committed `GSTEP` keeps while its pushes are outstanding: its part's block and its step. -/
def stepWaits (pa m : Nat) : List Nat := [2, pa, m]

/-- The pushes of a committed `GSTEP`. -/
def State.pushesOf (s : State) (k pa m : Nat) : List Push :=
  s.pushes.filter fun x => x.ctx == k && x.gen == (s.ctx k).gen && x.src == pa && x.step == m

/-- Completes a `GSTEP` once every push has been stamped or has failed (R454). -/
def stepDone (d : Reg) (pa m : Nat) (e : Env) (s : State) : Att :=
  let l := s.pushesOf e.k pa m
  if l.any fun x => x.error.isNone then .wait { how := .parked, deadline := none, aux := stepWaits pa m } s
  else
    let code := (l.filterMap (·.error)).head?
    .done [.s d (BitVec.ofNat 64 (m + (code.map fun c => 2 ^ 63 + c % 256 * 2 ^ 48).getD 0))]
      { s with pushes := s.pushes.filter fun x => !l.contains x }

/-- The unit that stamps a push into part q: its die, or from 8 its package. -/
def State.pushTo (s : State) (g : Grid) (q : Nat) : Nat := if g.pkg q = s.pkg.number then g.die q else 8 + g.pkg q

/-- The commit of a part and the pushes that it sends (R454). -/
def State.commitPart (s : State) (k n : Nat) (g : Grid) (p pa m : Nat) : State :=
  let x := s.partAt g.desc pa
  let s := s.setPart pa { x with m := m, front := x.back, back := x.front, backTag := none }
  let c := s.ctx k
  let out : List Push := (feedsOf g.desc p).map fun q =>
    { src := pa, srcPart := p, dst := blockVA g.desc q, dstPart := q, to_ := s.pushTo g q, depth := gdDepth g.desc, step := m, cells := x.back, ctx := k, gen := c.gen, pts := c.ltime, grid := n, fault := none, error := none }
  let s := { s with pushes := s.pushes ++ out }
  (out.foldl (fun s y => s.post (.haloPush y.to_)) s).post (.haloPush (g.die p))

/-- An attempt of `GSTEP` (R454): once committed, it is parked until its pushes have ended. -/
def tryGstep (d a b : Reg) (e : Env) (s : State) : Att :=
  match e.wait.map (·.aux) with
  | some [2, pa, m] => stepDone d pa m e s
  | _ =>
    withGrid e (e.n a) s fun n g s =>
      let w := e.n b
      let k := w % 256
      let p := wordPart w
      if badPart g w || bits w 31 8 != 0 || k = 0 || 8 < k then .trap false 0x01 w s
      else if s.notMine g e p false then .trap false 0x10 w s
      else releasing e s fun s => onPart e n g p true s fun pa s =>
        let x := s.partAt g.desc pa
        let m := (x.m + k) % 2 ^ 32
        if (x.backTag.map fun u => u != m).getD false then .trap true 0x08 w s
        else stepDone d pa m e (s.commitPart e.k n g p pa m)

/-- GSTEP (R447, R454). -/
def execGstep (l : La) (d a b : Reg) (s : State) : Host.Outcome State Fault Refusal := s.issue (.gstep l d a b) l.toNat (tryGstep d a b)

/-- An attempt of `GWAIT` (R457, R459). -/
def tryGwait (d a b : Reg) (e : Env) (s : State) : Att :=
  withGrid e (e.n a) s fun n g s =>
    let w := e.n b
    let t := w % 2 ^ 32
    if badPart g w then .trap false 0x01 w s
    else if s.notMine g e (wordPart w) false then .trap false 0x10 w s
    else onPart e n g (wordPart w) false s fun pa s =>
      let x := s.partAt g.desc pa
      let segs := (segmentsOf g.desc (wordPart w)).map x.seg
      let slots := segs.map fun z => z.slot (t % gdDepth g.desc)
      let late := segs.any fun z => (z.latest.map fun l => newer l t).getD false && (z.slot (t % gdDepth g.desc)).stamp != some t
      if slots.all fun h => h.stamp == some t then
        .done [.s d 1] (slots.foldl (fun s h => s.raisePts e.k h.pts) ((waited e (wordPart w) s).acquire e.core))
      else if late then .done [.s d 2] (waited e (wordPart w) s)
      else
        let until_ := e.until s (BitVec.ofNat 64 g.timeout)
        if !e.haloWaits && g.timeout = 0 || s.passed e.die until_ then .done [.s d 0] (waited e (wordPart w) s)
        else .wait { how := .running, deadline := until_, aux := [1] } s

/-- GWAIT (R447, R457). -/
def execGwait (l : La) (d a b : Reg) (s : State) : Host.Outcome State Fault Refusal := s.issue (.gwait l d a b) l.toNat (tryGwait d a b)

/-- The word of `GSTAT` (R458). -/
def State.gstat (s : State) (g : Grid) (p sel pa : Nat) : Nat :=
  let x := s.partAt g.desc pa
  match sel with
  | 0 => x.m + ofBool x.backTag.isSome * 2 ^ 32 + ofBool (s.pushes.any fun y => y.src == pa && y.error.isNone) * 2 ^ 33
  | 1 => gdStride g.desc
  | _ =>
    let segs := (segmentsOf g.desc p).map x.seg
    let ls := segs.filterMap (·.latest)
    if segs.isEmpty then 2 ^ 62
    else (if ls.length < segs.length then 2 ^ 63 else 0) + (match ls with
      | [] => 0
      | l :: ls => ls.foldl older l)

/-- An attempt of `GSTAT` (R458). -/
def tryGstat (d a b : Reg) (e : Env) (s : State) : Att :=
  withGrid e (e.n a) s fun n g s =>
    let w := e.n b
    if badPart g w || bits w 31 2 != 0 || w % 4 = 3 then .trap false 0x01 w s
    else if s.notMine g e (wordPart w) true then .trap false 0x10 w s
    else onPart e n g (wordPart w) false s fun pa s => .done [.s d (BitVec.ofNat 64 (s.gstat g (wordPart w) (w % 4) pa))] s

/-- GSTAT (R447, R458). -/
def execGstat (l : La) (d a b : Reg) (s : State) : Host.Outcome State Fault Refusal := s.issue (.gstat l d a b) l.toNat (tryGstat d a b)

/-! ### Pushes (R454, R455) -/

/-- A push as it stands after an attempt: waiting, ended, or failed with a code. -/
inductive Pushed where
  | waits (s : State)
  | faulted (key : Nat) (s : State)
  | ended (s : State)
  | failed (code : Nat) (s : State)
  deriving DecidableEq, Repr

/-- Stamps a push into the slot of its segment, unless the slot is still needed (R454). A block that no launch has declared is waited for
(R455). -/
def State.stampPush (s : State) (x : Push) (pa : Nat) : Pushed :=
  match s.parts.find pa with
  | none => .waits s
  | some y =>
    let seg := y.seg x.srcPart
    let j := x.step % x.depth
    if ((seg.slot j).stamp.map fun u => !newer y.m u).getD false then .waits s
    else
      let latest := match seg.latest with
        | some l => if newer x.step l then some x.step else some l
        | none => some x.step
      let seg := { seg with slots := seg.slots.put j { stamp := some x.step, cells := x.cells, pts := x.pts }, latest := latest }
      .ended (s.setPart pa { y with segs := y.segs.put x.srcPart seg })

/-- A fault that a push waits for: the die whose halo engine holds it, and its key there. -/
def pushFault (d key : Nat) : Nat := d * 2 ^ 44 + key

/-- A push meets a block at one of its homes (R455): a fault is posted by that home's engine, POISON and a lost die end it. -/
def State.pushAt (s : State) (x : Push) (d : Nat) (write : Bool) (va : Nat) (go : State → Pushed) : Pushed :=
  match s.blockStop (haloWho x.ctx d (s.grid x.grid).asid) write va with
  | none => go s
  | some (.fault va cause level pte) =>
    let thread := 2 ^ 62 + x.gen % 256 * 2 ^ 15 + x.ctx % 8 * 2 ^ 12 + coreOf x.ctx
    let (key, s) := s.unitFault d 17 va (s.grid x.grid).asid (if write then 5 else 4) (cause, level, pte) true x.ctx thread placePush
    .faulted (pushFault d key) s
  | some (.trap _ code _ s) => .failed code s
  | some _ => .waits s

/-- A push reads its source block, and is then stamped at its target. One to another package leaves over its route, or fails where there is none; when
its home stamps it is for the schedule to say (log 1). -/
def State.sendPush (s : State) (x : Push) : Pushed :=
  let g := s.grid x.grid
  s.pushAt x (g.die x.srcPart) false (blockVA g.desc x.srcPart) fun s =>
    if 8 ≤ x.to_ then if s.routed (x.to_ - 8) then .ended s else .failed 0x11 s
    else s.pushAt x x.to_ true x.dst fun s => s.stampPush x (s.pieceAt (haloWho x.ctx x.to_ g.asid) .engWrite x.dst 64).1

/-- Tries a push (R454, R455): one that a fault holds waits for the reply. -/
def State.tryPush (s : State) (x : Push) : Pushed :=
  match x.fault with
  | none => s.sendPush x
  | some n =>
    let d := n / 2 ^ 44
    let key := n % 2 ^ 44
    match (s.die d).faults.find key with
    | none => s.sendPush x
    | some f =>
      if f.reply = .waiting then .waits s
      else
        let s := s.modDie d fun y => { y with faults := y.faults.del key }
        if f.reply = .signal then .failed 0x13 s else s.sendPush x

/-- Tries the pushes to a unit in order until one changes something: the pushes after it and those before it keep their places. -/
def State.pushFirst (s : State) (to_ : Nat) : List Push → List Push → Option State
  | _, [] => none
  | before, x :: after =>
    if x.to_ ≠ to_ || x.error.isSome then s.pushFirst to_ (before ++ [x]) after
    else match s.tryPush x with
      | .waits _ => s.pushFirst to_ (before ++ [x]) after
      | .faulted key s => some { s with pushes := before ++ { x with fault := some key } :: after }
      | .ended s => some { s with pushes := before ++ after }
      | .failed code s => some { s with pushes := before ++ { x with error := some code, fault := none } :: after }

/-- HALO_PUSH (R454, R455): the first push to a die, or to package n as number 8 + n, that can be stamped is stamped. -/
def execHaloPush (die : Nat) (s : State) : Host.Outcome State Fault Refusal :=
  match s.pushFirst die [] s.pushes with
  | none => .next s
  | some s => .next (s.post (.haloPush die))

/-! ### Declaring and releasing (R460, R462) -/

/-- The lowest free entry of a launch's grid table. -/
def State.freeGrid (s : State) (slot : Nat) : Option Nat :=
  if slot < 1024 then (List.range 32).find? fun i => !(s.grid (slot * 32 + i)).declared else none

/-- The first and last bytes of the blocks of the parts given. -/
def blockEnds (d : Nat) (ps : List Nat) : List (Nat × Nat) := ps.flatMap fun p => [(p, blockVA d p), (p, blockVA d p + gdSize d - 1)]

/-- The first end of a block that is not mapped (R460). -/
def State.unmapped (s : State) (w : Who) : List (Nat × Nat) → Option MemRes
  | [] => none
  | (_, va) :: l => match s.leaf (dieOf w.core) w.asid va with
    | .leaf .. => s.unmapped w l
    | .none level => some (.fault va 0 level 0)
    | .poison level => some (.fault va 2 level 0)

/-- An end of a block is not KIND 2 with R and W, or is homed elsewhere than its owner says (R460). -/
def State.misplaced (s : State) (w : Who) (own : Nat → Nat) (e : Nat × Nat) : Bool :=
  match s.leaf (dieOf w.core) w.asid e.2 with
  | .leaf pte _ level =>
    let pa := leafPA pte level e.2
    pteKind pte != 2 || !pteR pte || !pteW pte || !s.local_ pa || homeDie pa != own e.1 % 8
  | _ => true

/-- What stops the writes that initialise the parts given. -/
def State.initStop (s : State) (w : Who) (d : Nat) : List Nat → Option MemRes
  | [] => none
  | p :: ps => match s.blockStop w true (blockVA d p) with
    | some r => some r
    | none => s.initStop w d ps

/-- The checks of R460 that follow the reads, and the declaration. `owners` are the entries of the owner table. -/
def declGrid (d a : Reg) (desc : Nat) (owners : List Nat) (e : Env) (s : State) : Att :=
  let at_ := e.n a
  let asid := (s.ctx e.k).asid
  let w := haloWho e.k e.die asid
  let mine := (List.range owners.length).filter fun p => owners.getD p 0 / 256 == s.pkg.number
  let asleep := fun (p : Nat) => let y := s.die (owners.getD p 0 % 8); y.power == .d2 || y.power == .d3
  let ends := blockEnds desc mine
  if badGrid desc || owners.any fun x => bits x 7 3 != 0 then .trap true 0x01 at_ s
  else match mine.find? asleep with
    | some p => .trap true 0x10 (owners.getD p 0) s
    | none => match s.unmapped w ends with
      | some r => lsu e .engWrite s (fun _ s => stalled s) r
      | none => match ends.find? fun x => s.misplaced w (fun p => owners.getD p 0) x with
        | some x => .trap true 0x01 (blockVA desc x.1) s
        | none => match s.freeGrid (s.slotOf e.core) with
          | none => .done [.s d 0] s
          | some i => releasing e s fun s =>
            match s.initStop w desc mine with
            | some r => lsu e .engWrite s (fun _ s => stalled s) r
            | none =>
              let s := mine.foldl (fun s p => s.setPart (s.pieceAt w .engWrite (blockVA desc p) 64).1 (Part.reset desc)) s
              let s := mine.foldl (fun s p => s.post (.haloPush (owners.getD p 0 % 8))) s
              let n := s.slotOf e.core * 32 + i
              let gen := ((s.grid n).gen + 1) % 256
              .done [.s d (BitVec.ofNat 64 (handleOf gen i))] (s.setGrid n
                { gen := gen, declared := true, desc := desc, owners := owners, at_ := at_, asid := asid, fast := gdFast desc,
                  timeout := gdTimeout desc, const := gdConst desc, stale := false })

/-- An attempt of `GDECL` (R460). -/
def tryGdecl (d a : Reg) (e : Env) (s : State) : Att :=
  let at_ := e.n a
  if at_ % 64 ≠ 0 then .trap false 0x03 at_ s
  else if !winOwn.contains (winTag at_) then .trap false 0x04 at_ s
  else snapshot 0 e s (s.plainRead (s.who e.k) .load at_ 64) fun desc s =>
    if !partsOk desc then .trap true 0x01 at_ s
    else
      let n := gdCount desc
      snapshot 1 e s (s.plainRead (s.who e.k) .load (at_ + 64) (2 * n)) fun t s =>
        declGrid d a desc ((List.range n).map fun p => blk t (2 * p) 2) e s

/-- GDECL (R460). -/
def execGdecl (l : La) (d a : Reg) (s : State) : Host.Outcome State Fault Refusal := s.issue (.gdecl l d a) l.toNat (tryGdecl d a)

/-- The handle register of a GRID instruction, and whether it is a `GSTEP` that has committed. -/
def gridUse : Instr → Wait → Option (Reg × Bool)
  | .ldg _ _ a _, _ => some (a, false)
  | .stg _ a _, _ => some (a, false)
  | .gwait _ _ a _, _ => some (a, false)
  | .gstat _ _ a _, _ => some (a, false)
  | .gstep _ _ a _, w => some (a, w.aux.headD 0 == 2)
  | _, _ => none

/-- An operation on a grid that its release must wait for (R462): any that is in flight but a committed `GSTEP`. -/
def State.gridBusy (s : State) (slot h : Nat) : Bool :=
  s.ctxs.any fun x => s.slotOf (coreOf x.1) == slot && x.2.win.outst.any fun o => match o.res with
    | .pend i g w => match gridUse i w with
      | some (a, committed) => !committed && (g.rs a).toNat == h
      | none => false
    | _ => false

/-- Pushes of a grid that still wait are abandoned with CODE 0x0D (R462). -/
def State.abandonPushes (s : State) (n : Nat) : State :=
  { s with pushes := s.pushes.map fun x => if x.grid == n && x.error.isNone then { x with error := some 0x0D, fault := none } else x }

/-- An attempt of `GDECL FREE` (R462). -/
def tryGdeclFree (a : Reg) (e : Env) (s : State) : Att :=
  let slot := s.slotOf e.core
  match s.gridOf slot (e.n a) with
  | none => .trap false 0x01 (e.n a) s
  | some (n, g) =>
    if s.gridBusy slot (e.n a) then stalled s
    else releasing e s fun s => .done [] ((s.abandonPushes n).setGrid n { g with declared := false })

/-- GDECL FREE (R462). -/
def execGdeclFree (a : Reg) (s : State) : Host.Outcome State Fault Refusal := s.issue (.gdeclFree a) 0 (tryGdeclFree a)

end Sys2Proof.Machine
end

