-- ==== Sys2Proof/Machine/Mat.lean ====
section
/-! DEFINITION. The cluster matrix array (R369 to R404): leases, the cores' command queues, operand slots and their fills, accumulator
tiles, products and microprograms. -/

namespace Sys2Proof.Machine

/-! ### Format words (R379, R380) -/

def fwA (w : Nat) : Nat := bits w 3 0
def fwB (w : Nat) : Nat := bits w 7 4
def fwAcc (w : Nat) : Nat := bits w 9 8
def fwRtype (w : Nat) : Nat := bits w 11 10
def fwSat (w : Nat) : Bool := bit w 12
def fwScale (w : Nat) : Int := sext (bits w 23 16) 8 + sext (bits w 31 24) 8
def fwMsel (w : Nat) : Bool := bit w 32

/-- A valid format word (R380). -/
def fwValid (w : Nat) : Bool :=
  let a := fwA w
  let b := fwB w
  let floatOut := fwRtype w == 0 || fwRtype w == 1
  bits w 63 33 == 0 && bits w 15 13 == 0 && (!fwMsel w || (a == 4 && b == 4)) &&
    ((a == 0 && b == 0 && fwAcc w == 0 && floatOut) || (a == 1 && b == 1 && fwAcc w == 1 && floatOut) ||
     (a == 1 && b == 1 && fwAcc w == 1 && fwRtype w == 2 && bits w 31 16 == 0) ||
     ((a == 2 || a == 3) && (b == 2 || b == 3) && fwAcc w == 2 && floatOut) || (a == 4 && b == 4 && fwAcc w == 0 && floatOut))

/-- The largest K of an operand format (R380). -/
def kLimit (f : Nat) : Nat := if f = 0 then 256 else if f = 4 then 128 else 512

/-- Bytes of n elements of an operand format (R386). -/
def elBytes (f n : Nat) : Nat := match f with
  | 0 => 2 * n
  | 3 => 3 * n / 4
  | 4 => 4 * n
  | _ => n

/-- Element j of a row of bytes. -/
def element (f row j : Nat) : Nat := match f with
  | 0 => row / 2 ^ (16 * j) % 2 ^ 16
  | 3 => l6Unpacked row j
  | 4 => row / 2 ^ (32 * j) % 2 ^ 32
  | _ => row / 2 ^ (8 * j) % 2 ^ 8

/-- Bytes of an accumulator element (R116). -/
def accBytes (w : Nat) : Nat := if fwAcc w = 2 then 8 else 4

/-! ### Leases (R372 to R377) -/

/-- The core of a cluster that holds the lease. -/
def State.holder (s : State) (cl : Nat) : Option Nat :=
  ((List.range 16).map (· + cl * 16)).find? fun c => (s.core c).lease.state == .held

/-- The array cycle of a core's die. -/
def State.arrayCycle (s : State) (c : Nat) : Nat := (s.die (dieOf c)).cyc

/-- A request for the lease (R373). -/
def State.request (s : State) (c n age : Nat) : State :=
  (s.modCore c fun x => { x with lease := { state := .wait, n := n, left := 0, cycles := 0, idle := 0, age := age } }).post (.leaseGrant (clusterOf c))

/-- What a parked `MLEASE` keeps: waiting, granted, or withdrawn. -/
def leaseWaits : List Nat := [1]
def leaseGranted : List Nat := [2]
def leaseGone : List Nat := [3]

/-- The parked `MLEASE`s of a core learn what has come of the request (R375). -/
def State.tellLease (s : State) (c : Nat) (aux : List Nat) : State :=
  (contextsOf c).foldl (fun s k => s.modCtx k fun x => { x with win := { x.win with outst := x.win.outst.map fun o => match o.res with
    | .pend (.mlease l d a) g w => { o with res := .pend (.mlease l d a) g { w with aux := aux } }
    | _ => o } }) s

/-- An attempt of `MLEASE` (R375). -/
def tryMlease (d a : Reg) (e : Env) (s : State) : Att :=
  let n := e.n a
  let x := (s.core e.core).lease
  match e.wait.map (·.aux) with
  | some [2] => .done [.s d 1] s
  | some [3] => .done [.s d 0] s
  | _ =>
    if n = 0 || 64 < n then .trap false 0x01 n s
    else match x.state with
      | .held => .done [.s d 1] s
      | .wait => parked none leaseWaits s
      | _ => parked none leaseWaits (s.request e.core n (s.arrayCycle e.core))

/-- MLEASE (R375). -/
def execMlease (l : La) (d a : Reg) (s : State) : Host.Outcome State Fault Refusal := s.issue (.mlease l d a) l.toNat (tryMlease d a)

/-- LEASE_GRANT (R374): with no lease held, the oldest request, ties in ring order after the core last granted. -/
def execLeaseGrant (cluster : Nat) (s : State) : Host.Outcome State Fault Refusal :=
  if (s.holder cluster).isSome then .next s
  else
    let last := (s.cluster cluster).lastGrant
    let ring := (List.range 16).map fun i => cluster * 16 + (last + 1 + i) % 16
    let best := ring.foldl (fun (b : Option Nat) c =>
      if (s.core c).lease.state != .wait then b
      else match b with
        | none => some c
        | some b' => if (s.core c).lease.age < (s.core b').lease.age then some c else b) none
    match best with
    | none => .next s
    | some c =>
      let s := s.modCore c fun x => { x with lease := { x.lease with state := .held, left := x.lease.n, cycles := s.arrayCycle c, idle := s.arrayCycle c } }
      .next (((s.modCluster cluster fun x => { x with lastGrant := c % 16 }).tellLease c leaseGranted).post (.leasedCommandStart cluster))

/-- The first leased command of a queue that has not started. -/
def Core.waitingCmd (x : Core) : Option Cmd := x.queue.find? fun q => q.op != .place && !q.started

/-- A lease ends at a command boundary (R373): SPENT, or WAIT again where a leased command is waiting in the queue. -/
def State.spend (s : State) (c : Nat) : State :=
  let x := s.core c
  (match x.waitingCmd with
    | some q => s.request c x.lease.n q.issued
    | none => s.modCore c fun x => { x with lease := { x.lease with state := .spent } }).post (.leaseGrant (clusterOf c))

/-- LEASE_SPENT (R373): a lease whose commands, cycles or idle time have run out ends at a command boundary. -/
def execLeaseSpent (core : Nat) (s : State) : Host.Outcome State Fault Refusal :=
  let x := s.core core
  if x.lease.state = .held && !(x.queue.any fun q => q.started) && x.lease.out (s.arrayCycle core) then .next (s.spend core) else .next s

/-- An attempt of `MREL` (R376): it waits until every leased command of the core has started and ended its run. -/
def tryMrel (e : Env) (s : State) : Att :=
  let x := s.core e.core
  if x.lease.state = .none then .done [] s
  else if x.lease.state = .held && x.queue.any (fun q => q.op != .place) then stalled s
  else .done [] (((s.modCore e.core fun x => { x with lease := { Lease.reset with n := x.lease.n } }).tellLease e.core leaseGone).post (.leaseGrant (clusterOf e.core)))

/-- MREL (R376). -/
def execMrel (s : State) : Host.Outcome State Fault Refusal := s.issue .mrel 0 tryMrel

/-! ### The command queue (R370, R371) -/

/-- What an instruction whose command is in the queue keeps: the command's number. -/
def queued (id : Nat) : List Nat := [1, id]

/-- A command that takes its place in the queue. -/
def newCmd (op : CmdOp) (id k tile fmt issued : Nat) : Cmd :=
  { op := op, id := id, ctx := k, tile := tile, old := none, slotA := 0, fillA := 0, slotB := 0, fillB := 0, base := 0, stride := 0, masks := 0,
    raw := false, fmt := fmt, issued := issued, started := false, row := 0 }

/-- The tile as an open window of the context fixes it for the instruction at place p: the value from before an outstanding command of the same
context that writes it and in whose window the new one lies (R371). -/
def State.oldTile (s : State) (k p t : Nat) : Option Mem :=
  if (s.ctx k).win.outst.any fun o => decide (o.pos < p ∧ p ≤ o.pos + o.la) && (match o.res with
    | .pend i _ _ => i.dests.any fun x => x.same (.tile t [] true)
    | .ok ws => ws.any fun x => x.same (.tile t [] true)
    | _ => false)
  then some (s.tile (coreOf k) t) else none

/-- Puts a command at the end of its core's queue. A leased command issued in SPENT asks for the lease again (R373). -/
def State.enqueue (s : State) (c : Nat) (q : Cmd) : State :=
  let s := s.modCore c fun x => { x with queue := x.queue ++ [q], cmdNo := x.cmdNo + 1 }
  let s := if q.op != .place && (s.core c).lease.state == .spent then s.request c (s.core c).lease.n q.issued else s
  s.post (.leasedCommandStart (clusterOf c))

/-- A command waits in the queue. -/
def inQueue (id : Nat) (s : State) : Att := .wait { how := .running, deadline := none, aux := queued id } s

/-- The command leaves its core's queue. -/
def State.dequeue (s : State) (c id : Nat) : State :=
  (s.modCore c fun x => { x with queue := x.queue.filter fun q => q.id != id }).post (.leasedCommandStart (clusterOf c))

/-- Another context's open window holds a result for a tile (R511): that of the oldest. -/
def State.heldTile (s : State) (c k t : Nat) : Option Mem :=
  ((contextsOf c).filter fun j => j != k).findSome? fun j => (s.ctx j).win.outst.findSome? fun o => o.writes.findSome? fun x => match x with
    | .tile n m _ => if n = t then some m else none
    | _ => none
def State.tileHeld (s : State) (c k t : Nat) : Bool := (s.heldTile c k t).isSome

/-- A command that its own instruction performs at its place in the queue: `MZERO`, `MLDC`, `MFMT`, `MPROG` (R370). While the queue is full, nothing
issues. `held`: it may not be performed at its issue, since an earlier access holds it back; `tile`: another context's window holds a result for
the tile that it writes, and it waits at its place until that window closes (R511, log 97). -/
def atPlace (e : Env) (s : State) (held tile : Bool) (perform : State → Att) : Att :=
  let x := s.core e.core
  match e.wait.map (·.aux) with
  | some [1, id] =>
    if (x.queue.head?.map (·.id)) = some id && !tile then
      match perform s with
      | .done ws s => .done ws (s.dequeue e.core id)
      | .trap late code val s => .trap late code val (s.dequeue e.core id)
      | .wait w s => .wait { w with aux := if w.how = .blocked then w.aux else queued id } s
      | .switch s => .switch s
    else inQueue id s
  | some (va :: _) => match x.queue.head? with
    | some q => match perform s with
      | .done ws s => .done ws (s.dequeue e.core q.id)
      | .trap late code val s => .trap late code val (s.dequeue e.core q.id)
      | r => r
    | none => .trap true 0x13 va s
  | _ =>
    if 16 ≤ x.queue.length then stopped s
    else if x.queue.isEmpty && !held && !tile then
      match perform s with
      | .wait w s => .wait { w with aux := if w.how = .blocked then w.aux else queued x.cmdNo } (s.enqueue e.core (newCmd .place x.cmdNo e.k 0 0 0))
      | r => r
    else inQueue x.cmdNo (s.enqueue e.core (newCmd .place x.cmdNo e.k 0 0 0))

/-- A tile of the core does not exist (R115). -/
def State.noTile (s : State) (c n : Nat) : Bool := decide (s.accTiles c ≤ n)

/-- MZERO (R391): the clean state, the dirty bit clear. -/
def tryMzero (d : Reg) (e : Env) (s : State) : Att :=
  if s.noTile e.core d.toNat then .trap false 0x0C d.toNat s
  else atPlace e s false (s.tileHeld e.core e.k d.toNat) fun s => .done [.tile d.toNat [] false] s

/-- MZERO (R391). -/
def execMzero (l : La) (d : Reg) (s : State) : Host.Outcome State Fault Refusal := s.issue (.mzero l d) l.toNat (tryMzero d)

/-- An attempt of `MFMT` (R378). -/
def tryMfmt (a : Reg) (e : Env) (s : State) : Att :=
  atPlace e s false false fun s =>
    if fwValid (e.n a) then .done [] (s.modCore e.core fun x => { x with fmt := some (e.n a) }) else .trap true 0x01 (e.n a) s

/-- MFMT (R378). -/
def execMfmt (a : Reg) (s : State) : Host.Outcome State Fault Refusal := s.issue (.mfmt a) 0 (tryMfmt a)

/-- Operation q of a microprogram word and its fields (R398). -/
def mpOp (w q : Nat) : Nat := bits w (12 * q + 11) (12 * q)
def mpPresent (o : Nat) : Bool := bit o 11

/-- A valid microprogram word (R398). -/
def mpValid (w : Nat) : Bool :=
  bits w 63 48 == 0 && mpPresent (mpOp w 0) && ((List.range 3).all fun q => mpPresent (mpOp w q) || !mpPresent (mpOp w (q + 1))) &&
    (List.range 4).all fun q => !mpPresent (mpOp w q) || (bits (mpOp w q) 10 9 != 3 && !(bits (mpOp w q) 2 0 == 7 && bits (mpOp w q) 8 6 != 0))

/-- An attempt of `MPROG` (R397, R398). -/
def tryMprog (a : Reg) (e : Env) (s : State) : Att :=
  atPlace e s false false fun s =>
    if mpValid (e.n a) then .done [] (s.modCore e.core fun x => { x with prog := some (e.n a) }) else .trap true 0x01 (e.n a) s

/-- MPROG (R397). -/
def execMprog (a : Reg) (s : State) : Host.Outcome State Fault Refusal := s.issue (.mprog a) 0 (tryMprog a)

/-- A row of a tile of z-byte elements: the bytes of its 32 elements, each kept to its own bits (R98, R392). -/
def tileRow (z n : Nat) : List Nat := (List.range 32).map fun j =>
  let x := n / 2 ^ (8 * z * j) % 2 ^ (8 * z)
  if z = 8 then x % 2 ^ 50 else x

/-- The contents of a tile from its elements in order, z bytes each (R116). -/
def tileOf (z : Nat) (l : List Nat) : Mem :=
  ((List.range l.length).zip l).flatMap fun e => (List.range z).filterMap fun b =>
    let v : Byte := BitVec.ofNat 8 (e.2 / 2 ^ (8 * b))
    if v = Mem.blank then none else some (e.1 * z + b, v)

/-- Element n of a tile of z-byte elements. -/
def tileElem (m : Mem) (z n : Nat) : Nat := m.readN (n * z) z

/-- The address of row r: `base + r * stride`, modulo 2^64. -/
def rowAddr (base stride r : Nat) : Nat := (base + r * stride) % 2 ^ 64

/-- The rows that `MLDC` loads, from row i on (R392). -/
def loadRows (e : Env) (base stride z : Nat) (f : List Nat → State → Att) : Nat → Nat → List Nat → State → Att
  | 0, _, l, s => f l s
  | n + 1, i, l, s =>
    lsu e .load s (fun x s => loadRows e base stride z f n (i + 1) (l ++ tileRow z x) s)
      (s.plainRead (s.who e.k) .load (rowAddr base stride i) (32 * z))

/-- An attempt of `MLDC` (R392). -/
def tryMldc (d a b : Reg) (e : Env) (s : State) : Att :=
  if s.noTile e.core d.toNat then .trap false 0x0C d.toNat s
  else match (s.core e.core).fmt with
    | none => .trap false 0x12 e.bits s
    | some w => atPlace e s (mustWait (.mldc 0 d a b) e.regs (s.ctx e.k).win.outst) (s.tileHeld e.core e.k d.toNat) fun s =>
        let z := accBytes w
        loadRows e (e.n a) (e.n b) z (fun l s => .done [.tile d.toNat (tileOf z l) true] s) 32 0 [] s

/-- MLDC (R392). -/
def execMldc (l : La) (d a b : Reg) (s : State) : Host.Outcome State Fault Refusal := s.issue (.mldc l d a b) l.toNat (tryMldc d a b)

/-! ### Operand slots (R382 to R390) -/

/-- Slot n of core c's cluster. -/
def State.slot (s : State) (c n : Nat) : Slot := Tab.get Slot.reset (s.cluster (clusterOf c)).slots n

/-- The state with a slot replaced. -/
def State.setSlot (s : State) (c n : Nat) (x : Slot) : State := s.modCluster (clusterOf c) fun y => { y with slots := y.slots.put n x }

/-- MCLAIM (R384). -/
def execMclaim (l : La) (d a : Reg) (s : State) : Host.Outcome State Fault Refusal :=
  s.issue (.mclaim l d a) l.toNat fun e s' =>
    let w := e.n a
    let n := bits w 6 0
    if bits w 63 9 != 0 || bit w 7 || n == 0 || decide (64 < n) then .trap false 0x01 w s'
    else
      let free := ((List.range 64).filter fun i => (s'.slot e.core i).state == .free).take n
      if free.length < n then .done [.s d 0] s'
      else .done [.s d (BitVec.ofNat 64 (free.foldl (fun m i => m + 2 ^ i) 0))]
        (free.foldl (fun s i => s.setSlot e.core i { Slot.reset with state := .empty, owner := e.core, team := bit w 8 }) s')

/-- The latest fill that has arrived at a slot. -/
def Slot.latest (x : Slot) : Option Fill := x.fills.getLast?

/-- Fill number n of a slot. -/
def Slot.fill (x : Slot) (n : Nat) : Option Fill := x.fills.find? fun f => f.no == n

/-- The state code of R389. -/
def SlotState.code : SlotState → Nat
  | .free => 0 | .empty => 1 | .filling => 2 | .ready => 3 | .error => 4

/-- The status word of a slot (R389). -/
def Slot.status (x : Slot) : Nat :=
  let f := x.latest
  x.state.code * 2 ^ 61 + ofBool x.team * 2 ^ 60 + (if x.state = .error then x.code % 256 else 0) * 2 ^ 48 +
    (match f with
      | some f => ofBool f.roleB * 2 ^ 47 + f.fmt % 8 * 2 ^ 44 + f.kq % 16 * 2 ^ 40
      | none => 0) + (if x.state = .free then 0 else x.owner)

/-- MSTAT (R389). -/
def execMstat (l : La) (d a : Reg) (s : State) : Host.Outcome State Fault Refusal :=
  s.issue (.mstat l d a) l.toNat fun e s' =>
    if bits (e.n a) 63 6 != 0 then illegal e s' else .done [.s d (BitVec.ofNat 64 (s'.slot e.core (e.n a)).status)] s'

/-- A command in flight names a slot. -/
def State.slotNamed (s : State) (c n : Nat) : Bool :=
  (List.range 16).any fun i => (s.core (clusterOf c * 16 + i)).queue.any fun q => (q.op == .mma || q.op == .mrun) && (q.slotA == n || q.slotB == n)

/-- An attempt of `MFREE` (R388). -/
def tryMfree (a : Reg) (e : Env) (s : State) : Att :=
  let named := (List.range 64).filter fun i => bit (e.n a) i
  match named.find? fun i => (s.slot e.core i).state == .free || (s.slot e.core i).owner != e.core with
  | some i => .trap false 0x0B i s
  | none =>
    if named.any fun i => (s.slot e.core i).state == .filling || s.slotNamed e.core i then stalled s
    else .done [] (named.foldl (fun s i => s.setSlot e.core i Slot.reset) s)

/-- MFREE (R388). -/
def execMfree (a : Reg) (s : State) : Host.Outcome State Fault Refusal := s.issue (.mfree a) 0 (tryMfree a)

/-- An attempt of `MWAIT` (R390): no named slot filling, no earlier leased command or store of the context outstanding. -/
def tryMwait (d a : Reg) (e : Env) (s : State) : Att :=
  let named := (List.range 64).filter fun i => bit (e.n a) i
  let x := s.core e.core
  if named.any (fun i => (s.slot e.core i).state == .filling) || x.queue.any (fun q => q.ctx == e.k && q.op != .place) || x.storing.any (·.ctx == e.k)
  then stalled s
  else .done [.s d (BitVec.ofNat 64 ((named.filter fun i => (s.slot e.core i).state == .error).foldl (fun m i => m + 2 ^ i) 0))] s

/-- MWAIT (R390). -/
def execMwait (l : La) (d a : Reg) (s : State) : Host.Outcome State Fault Refusal := s.issue (.mwait l d a) l.toNat (tryMwait d a)

/-! ### Fills (R385 to R387) -/

/-- Rows of a fill, and the bytes of one (R386). -/
def fillRows (roleB : Bool) (k : Nat) : Nat := if roleB then k else 32
def fillRowBytes (roleB : Bool) (f k : Nat) : Nat := elBytes f (if roleB then 32 else k)

/-- The first row that R387 does not let pass: the trap and its address. -/
def State.fillTrap (s : State) (c base stride n : Nat) : Nat → Nat → Option (Nat × Nat)
  | 0, _ => none
  | fuel + 1, r =>
    let va := rowAddr base stride r
    let ok := fun (x : Nat) => winTag x == 0 || winTag x == 0xF0 || winTag x == 0xF1
    if !ok va || winTag (va + n - 1) != winTag va then some (0x04, va)
    else s.fillTrap c base stride n fuel (r + 1)

/-- The first scratch row beyond the carve-out. -/
def State.fillCarve (s : State) (c base stride n : Nat) : Nat → Nat → Option (Nat × Nat)
  | 0, _ => none
  | fuel + 1, r =>
    let va := rowAddr base stride r
    if winTag va ≠ 0 && !s.scratchIn c va n then some (0x0C, va) else s.fillCarve c base stride n fuel (r + 1)

/-- Reads the rows of a fill from row `row` on (R387): at the point of performance or the pool, with the issuing context's ASID and pts. -/
def State.fillRead (s : State) (f : Fill) : Nat → State × Fill × Option MemRes
  | 0 => (s, f, none)
  | fuel + 1 =>
    let n := fillRowBytes f.roleB f.fmt ((f.kq + 1) * 32)
    if fillRows f.roleB ((f.kq + 1) * 32) ≤ f.row then (s, f, none)
    else
      let va := rowAddr f.base f.stride f.row
      let w : Who := { k := f.ctx, core := coreOf f.ctx, asid := f.asid, sup := (s.ctx f.ctx).sup, unit := false }
      let take := fun (x : Nat) (s : State) => s.fillRead { f with row := f.row + 1, data := f.data.writeN (f.row * n) n x } fuel
      if winTag va = 0 then
        match s.firstStop w .gather va n true (piecesOf va n) with
        | some r => (s, f, some r)
        | none => let (x, s) := s.readPieces w n .gather (piecesOf va n); take x s
      else take (s.readScratch w.core va n) s

/-- Brings a fill on as far as its reads go: to its end, to an error, or to a fault that its cluster's streamer posts (R387). -/
def State.fillGo (s : State) (n : Nat) (f : Fill) : State × Fill :=
  let c := coreOf f.ctx
  match s.fillRead f 513 with
  | (s, f, none) => (s, { f with ended := true, fault := none })
  | (_, f, some (.trap _ code _ s)) => (s, { f with ended := true, code := code, fault := none })
  | (s, f, some (.fault va cause level pte)) =>
    let cl := clusterOf c
    let (key, s) := s.unitFault (dieOf c) (32 + cl % 32) va f.asid 4 (cause, level, pte) (!(s.ctx f.ctx).sup) f.ctx (s.threadWord f.ctx) (placeFill cl n)
    (s, { f with fault := some key })
  | (s, f, _) => (s, f)

/-- An attempt of `MLDA` or `MLDB` (R387): it arrives at the slot table, and its reads begin. -/
def tryFill (roleB : Bool) (c a b : Reg) (n : BitVec 4) (e : Env) (s : State) : Att :=
  match (s.core e.core).fmt with
  | none => .trap false 0x12 e.bits s
  | some w =>
    let f := if roleB then fwB w else fwA w
    let k := (n.toNat + 1) * 32
    let i := e.n c
    if bits i 63 6 != 0 || decide (kLimit f < k) then illegal e s
    else if (s.slot e.core i).state = .free || (s.slot e.core i).owner ≠ e.core then .trap false 0x0B i s
    else
      let bytes := fillRowBytes roleB f k
      match s.fillTrap e.core (e.n a) (e.n b) bytes (fillRows roleB k) 0 with
      | some (code, va) => .trap false code va s
      | none => match s.fillCarve e.core (e.n a) (e.n b) bytes (fillRows roleB k) 0 with
        | some (code, va) => .trap false code va s
        | none =>
          let x := s.slot e.core i
          let f : Fill := { no := x.nextNo, roleB := roleB, fmt := f, kq := n.toNat, base := e.n a, stride := e.n b, ctx := e.k,
                            asid := (s.ctx e.k).asid, pts := (s.ctx e.k).ltime, row := 0, data := [], ended := false, code := 0, fault := none, readers := 0 }
          let (s, f) := s.fillGo i f
          let x := s.slot e.core i
          .done [] ((s.setSlot e.core i { x with state := .filling, nextNo := x.nextNo + 1, fills := x.fills ++ [{ f with ended := false, code := if f.ended then f.code + 256 else 0 }] }).post (.slotFillComplete (clusterOf e.core) i))

/-- MLDA (R386). -/
def execMlda (a b c : Reg) (n : BitVec 4) (s : State) : Host.Outcome State Fault Refusal :=
  s.issue (.mlda a b c n) 0 (tryFill false c a b n)

/-- MLDB (R386). -/
def execMldb (a b c : Reg) (n : BitVec 4) (s : State) : Host.Outcome State Fault Refusal :=
  s.issue (.mldb a b c n) 0 (tryFill true c a b n)

/-- Fills that nothing needs any more leave the slot: ended ones without readers, but for the latest. -/
def pruneFills : List Fill → List Fill
  | f :: g :: fs => if f.ended && f.readers == 0 then pruneFills (g :: fs) else f :: g :: fs
  | l => l

/-- A slot after one of its fills has ended (R383): READY or ERROR where it is the last that has arrived. -/
def Slot.settled (x : Slot) : Slot :=
  let fs := pruneFills x.fills
  match fs.getLast? with
  | some f => { x with fills := fs, state := if !f.ended then .filling else if f.code = 0 then .ready else .error, code := f.code }
  | none => x

/-- The fill that goes next: the first that has not ended, once every command that arrived before it has read the slot (R385). -/
def nextFill : List Fill → Option Fill
  | [] => none
  | f :: fs => if !f.ended then some f else if f.readers = 0 then nextFill fs else none

/-- A fill of a list replaced. -/
def putFill (f : Fill) (l : List Fill) : List Fill := l.map fun g => if g.no = f.no then f else g

/-- The reply to a fill's fault: still waiting, to go on, or to end it with code 0x13 (R387). -/
def State.fillReply (s : State) (d : Nat) (f : Fill) : Option FaultReply := f.fault.bind fun key => ((s.die d).faults.find key).map (·.reply)

/-- SLOT_FILL_COMPLETE (R383, R387): the slot's next fill ends, where its bytes are there; a fill whose fault has been answered goes on. Between
its arrival and this event a fill whose bytes are all there keeps its code with 256 added. -/
def execSlotFillComplete (cluster slot : Nat) (s : State) : Host.Outcome State Fault Refusal :=
  let c := cluster * 16
  let x := s.slot c slot
  match nextFill x.fills with
  | none => .next s
  | some f =>
    let d := cluster / 32
    let finish := fun (s : State) (f : Fill) =>
      let x := s.slot c slot
      let s := s.setSlot c slot ({ x with fills := putFill f x.fills } : Slot).settled
      (s.post (.leasedCommandStart cluster)).post (.slotFillComplete cluster slot)
    let drop := fun (s : State) => match f.fault with
      | some key => s.modDie d fun y => { y with faults := y.faults.del key }
      | none => s
    if 256 ≤ f.code then .next (finish s { f with ended := true, code := f.code - 256 })
    else match s.fillReply d f with
      | some .waiting => .next s
      | some .signal => .next (finish (drop s) { f with ended := true, code := 0x13, fault := none })
      | _ =>
        let (s, f) := (drop s).fillGo slot f
        if f.ended then .next (finish s f)
        else .next (s.setSlot c slot { s.slot c slot with fills := putFill f (s.slot c slot).fills })

/-! ### MMA and MRUN (R395 to R399) -/

/-- The core may read a slot: its own, or a TEAM slot of its team (R384). -/
def State.mayRead (s : State) (c n : Nat) : Bool :=
  let x := s.slot c n
  x.state != .free && (x.owner == c || (x.team && clusterOf x.owner == clusterOf c && s.teamId x.owner == s.teamId c))

/-- The first of the checks of R395 on the two slots that fails: slot and reason. -/
def State.slotFault (s : State) (c a b fmt : Nat) : Option Nat :=
  let reason := fun (p : Nat → Bool) (r : Nat) => if p a then some (a + r * 256) else if p b then some (b + r * 256) else none
  let k := ((s.slot c a).latest.map (·.kq)).getD 0
  let wrongA := match (s.slot c a).latest with
    | some f => f.roleB || f.fmt != fwA fmt
    | none => true
  let wrongB := match (s.slot c b).latest with
    | some f => !f.roleB || f.fmt != fwB fmt || f.kq != k
    | none => true
  (reason (fun n => !s.mayRead c n) 0).or <| (reason (fun n => (s.slot c n).state == .empty) 1).or <|
    (if wrongA then some (a + 512) else if wrongB then some (b + 512) else none).or (reason (fun n => (s.slot c n).state == .error) 3)

/-- A slot's latest fill has one more reader, or one of its fills one less. -/
def Slot.addReader (x : Slot) : Slot := match x.latest with
  | some f => { x with fills := putFill { f with readers := f.readers + 1 } x.fills }
  | none => x
def Slot.dropReader (x : Slot) (n : Nat) : Slot :=
  { x with fills := pruneFills (x.fills.map fun f => if f.no = n then { f with readers := f.readers - 1 } else f) }

/-- An attempt of `MMA` or `MRUN` (R395): after its checks it enters the queue and waits for its result. -/
def tryProduct (op : CmdOp) (d a b : Reg) (e : Env) (s : State) : Att :=
  let x := s.core e.core
  match e.wait.map (·.aux) with
  | some [1, id] => inQueue id s
  | _ =>
    if s.noTile e.core d.toNat then .trap false 0x0C d.toNat s
    else match x.fmt with
      | none => .trap false 0x12 e.bits s
      | some w =>
        if op = .mrun && (!fwMsel w || x.prog.isNone) then .trap false 0x12 e.bits s
        else if bits (e.n a) 63 6 != 0 || bits (e.n b) 63 6 != 0 then illegal e s
        else if x.lease.state = .none then .trap false 0x0A e.bits s
        else match s.slotFault e.core (e.n a) (e.n b) w with
          | some v => .trap false 0x0B v s
          | none =>
            if 16 ≤ x.queue.length then stopped s
            else
              let fill := fun (n : Nat) => ((s.slot e.core n).latest.map (·.no)).getD 0
              let q := { newCmd op x.cmdNo e.k d.toNat w (s.arrayCycle e.core) with
                old := s.oldTile e.k e.pos d.toNat, slotA := e.n a, fillA := fill (e.n a), slotB := e.n b, fillB := fill (e.n b) }
              let s := s.setSlot e.core (e.n a) (s.slot e.core (e.n a)).addReader
              let s := s.setSlot e.core (e.n b) (s.slot e.core (e.n b)).addReader
              inQueue x.cmdNo (s.enqueue e.core q)

/-- MMA (R395, R396). -/
def execMma (l : La) (d a b : Reg) (s : State) : Host.Outcome State Fault Refusal := s.issue (.mma l d a b) l.toNat (tryProduct .mma d a b)

/-- MRUN (R395, R399). -/
def execMrun (l : La) (d a b : Reg) (s : State) : Host.Outcome State Fault Refusal := s.issue (.mrun l d a b) l.toNat (tryProduct .mrun d a b)

/-- A BF16 operand of the array: a subnormal of either sign reads as +0 (R82, R101); a zero keeps its sign (R102). -/
def arrayBf16 (x : Nat) : FVal := if x / 2 ^ 7 % 2 ^ 8 = 0 ∧ x % 2 ^ 7 ≠ 0 then .fin false 0 0 else bf16.read x

/-- Rows of a fill's bytes. -/
def Fill.rowOf (f : Fill) (r : Nat) : Nat :=
  let n := fillRowBytes f.roleB f.fmt ((f.kq + 1) * 32)
  f.data.readN (r * n) n

/-- Groups of four (R101). -/
def groupsOf : Nat → List (Nat × Nat) → List (List (Nat × Nat))
  | 0, _ => []
  | _, [] => []
  | n + 1, l => l.take 4 :: groupsOf n (l.drop 4)

/-- One output element of `MMA` (R101): c with the products of a row and a column added. -/
def mmaElem (w : Nat) (ps : List (Nat × Nat)) (c : Nat) : Flagged :=
  let add := fun (f : Nat → (Nat × Nat) → Flagged) => ps.foldl (fun (x : Flagged) p => let r := f x.1 p; (r.1, x.2 ||| r.2)) (c, 0)
  match fwA w with
  | 0 => (groupsOf ps.length ps).foldl (fun (x : Flagged) g =>
      let r := fp32.addGroup x.1 (g.map fun p => (arrayBf16 p.1, arrayBf16 p.2))
      (r.1, x.2 ||| r.2)) (c, 0)
  | 1 => narrow (fwSat w) 32 (sext c 32 + ps.foldl (fun (x : Int) p => x + sext p.1 8 * sext p.2 8) 0)
  | 4 => add fun x p => fp32.fma p.1 p.2 x
  | _ => add fun x p => w48Add x (l6Product (l6Code p.1) (l6Code p.2))

/-- The values of a microprogram at one step: S, T0 and T1, and the flags raised (R399). -/
structure MicroState where
  x : Nat
  t0 : Nat
  t1 : Nat
  flags : Nat
  deriving DecidableEq, Repr

/-- An operand of a microprogram operation (R398). -/
def MicroState.operand (m : MicroState) (a b : Nat) : Nat → Nat
  | 0 => m.x | 1 => a | 2 => b | 3 => m.t0 | 4 => m.t1 | 5 => 0 | 6 => fp32.inf | _ => fp32.signed true fp32.inf

/-- The operations of R398; `SELA` looks at a. -/
def microOp (a : Nat) (x y : Nat) : Nat → Flagged
  | 0 => fp32.add x y
  | 1 => fp32.sub x y
  | 2 => fp32.mul x y
  | 3 => fp32.minmax false x y
  | 4 => fp32.minmax true x y
  | 5 => fp32.lse x y
  | 6 => (if a ≤ fp32.inf then x else y, 0)
  | _ => (x ^^^ fp32.sign, 0)

/-- One operation of the program, if it is present. -/
def MicroState.run (m : MicroState) (a b o : Nat) : MicroState :=
  if !mpPresent o then m
  else
    let r := microOp a (m.operand a b (bits o 5 3)) (m.operand a b (bits o 8 6)) (bits o 2 0)
    let m := { m with flags := m.flags ||| r.2 }
    match bits o 10 9 with
    | 0 => { m with x := r.1 }
    | 1 => { m with t0 := r.1 }
    | _ => { m with t1 := r.1 }

/-- One output element of `MRUN` (R399). -/
def mrunElem (prog : Nat) (ps : List (Nat × Nat)) (c : Nat) : Flagged :=
  let m := ps.foldl (fun (m : MicroState) p =>
    (List.range 4).foldl (fun m q => m.run p.1 p.2 (mpOp prog q)) { m with t0 := 0, t1 := 0 }) { x := c, t0 := 0, t1 := 0, flags := 0 }
  (m.x, m.flags)

/-- The tile that a command computes, element by element, and the flags (R396). -/
def product (elem : List (Nat × Nat) → Nat → Flagged) (a b : Fill) (z : Nat) (c : Mem) : Mem × Nat :=
  let k := (a.kq + 1) * 32
  let rowsB := (List.range k).map b.rowOf
  let out := (List.range 32).flatMap fun i =>
    let rowA := a.rowOf i
    (List.range 32).map fun j =>
      elem (((List.range k).zip rowsB).map fun p => (element a.fmt rowA p.1, element b.fmt p.2 j)) (tileElem c z (32 * i + j))
  (tileOf z (out.map (·.1)), out.foldl (fun f x => f ||| x.2) 0)

/-! ### MSTC (R393, R394) -/

/-- An element of a tile as `MSTC` stores it, its size, and the flags (R100, R393). -/
def readout (w : Nat) (raw : Bool) (x : Nat) : Nat × Nat × Nat :=
  let f := if fwRtype w = 0 then fp32 else bf16
  let z := if fwRtype w = 0 then 4 else 2
  if raw then (if fwAcc w = 2 then x % 2 ^ 50 else x, accBytes w, 0)
  else if fwRtype w = 2 then (x, 4, 0)
  else if fwAcc w = 2 then let r := w48Read f (fwSat w) (fwScale w) x; (r.1, z, r.2)
  else
    let v : FVal := if fwAcc w = 1 then .fin (decide (sext x 32 < 0)) (sext x 32).natAbs (fwScale w)
      else match fp32.read x with
        | .fin n m e => .fin n m (e + fwScale w)
        | y => y
    let r := f.deliver 0 (some v)
    let r := match v with
      | .fin n _ _ => f.saturate (fwSat w) n r
      | _ => r
    (r.1, z, r.2)

/-- The elements that a store command writes of a row: address, value, size (R393). -/
def rowStores (q : Cmd) (m : Mem) (i : Nat) : List (Nat × Nat × Nat) :=
  if !bit q.masks i then []
  else (List.range 32).filterMap fun j =>
    if !bit q.masks (32 + j) then none
    else
      let r := readout q.fmt q.raw (tileElem m (accBytes q.fmt) (32 * i + j))
      some (((q.base + i * q.stride + j * r.2.1) % 2 ^ 64), r.1, r.2.1)

/-- The flags that a readout raises (R393). -/
def storeFlags (q : Cmd) (m : Mem) : Nat :=
  (List.range 1024).foldl (fun f n =>
    if bit q.masks (n / 32) && bit q.masks (32 + n % 32) then f ||| (readout q.fmt q.raw (tileElem m (accBytes q.fmt) n)).2.2 else f) 0

/-- The first element of a row that would not be stored. -/
def State.rowStop (s : State) (w : Who) : List (Nat × Nat × Nat) → Option MemRes
  | [] => none
  | (va, x, n) :: l => match s.plainStore w va n x with
    | .ok _ _ => s.rowStop w l
    | r => some r

/-- Stores a row whose elements all pass. -/
def State.rowWrite (s : State) (w : Who) (l : List (Nat × Nat × Nat)) : State :=
  l.foldl (fun s y => match s.plainStore w y.1 y.2.2 y.2.1 with
    | .ok _ s' => s'
    | _ => s) s

/-- The stores of a command from a row on (R394): rows before one that stops are written, that row and the later ones are not. -/
def storeRows (e : Env) (q : Cmd) (m : Mem) : Nat → State → Att
  | 0, s => .done [] (s.modCore e.core fun x => { x with storing := x.storing.filter fun y => y.id != q.id })
  | n + 1, s =>
    let row := rowStores q m (31 - n)
    if 31 - n < q.row then storeRows e q m n s
    else match s.rowStop (s.who e.k) row with
      | none => storeRows e q m n (s.rowWrite (s.who e.k) row)
      | some r =>
        let s := s.modCore e.core fun x => { x with storing := x.storing.map fun y => if y.id = q.id then { y with row := 31 - n } else y }
        match lsu e .store s (fun _ s => .done [] s) (match r with
          | .trap late code val _ => .trap late code val s
          | r => r) with
        | .trap late code val s => .trap late code val (s.modCore e.core fun x => { x with storing := x.storing.filter fun y => y.id != q.id })
        | .wait w s => .wait (if w.how = .running then { w with aux := queued q.id } else { w with aux := w.aux ++ [q.id] }) s
        | r => r

/-- The number of a waiting `MSTC`'s command. -/
def mstcId : List Nat → Option Nat
  | [1, id] => some id
  | [_, id] => some id
  | _ => none

/-- An attempt of `MSTC` (R393, R394): it enters the queue, and once its tile has been read it stores. -/
def tryMstc (d a b c : Reg) (r : BitVec 1) (e : Env) (s : State) : Att :=
  let x := s.core e.core
  match (e.wait.map (·.aux)).bind mstcId with
  | some id =>
    match x.storing.find? fun q => q.id == id with
    | some q => storeRows e q (q.old.getD []) 32 s
    | none => inQueue id s
  | none =>
    if s.noTile e.core d.toNat then .trap false 0x0C d.toNat s
    else match x.fmt with
      | none => .trap false 0x12 e.bits s
      | some w =>
        if x.lease.state = .none then .trap false 0x0A e.bits s
        else if 16 ≤ x.queue.length then stopped s
        else inQueue x.cmdNo (s.enqueue e.core { newCmd .mstc x.cmdNo e.k d.toNat w (s.arrayCycle e.core) with
          old := s.oldTile e.k e.pos d.toNat, base := e.n a, stride := e.n b, masks := if c = 0 then 2 ^ 64 - 1 else e.n c, raw := r = 1 })

/-- MSTC (R393): its window counts as closed when it enters the queue (R394), so nothing stalls on it for its lookahead. -/
def execMstc (d a b c : Reg) (r : BitVec 1) (s : State) : Host.Outcome State Fault Refusal :=
  s.issue (.mstc d a b c r) (2 ^ 32) (tryMstc d a b c r)

/-! ### Start and completion (R373, R374, R396) -/

/-- The instruction whose command has this number takes its outcome. -/
def State.cmdEnd (s : State) (k id : Nat) (res : Res) : State :=
  (s.modCtx k fun c => { c with win := { c.win with outst := c.win.outst.map fun o => match o.res with
    | .pend _ _ w => if w.aux = queued id then { o with res := res } else o
    | _ => o } }).advance k

/-- Both fills of a command: there, or in error with the slot, or still coming. -/
inductive Operands where
  | ready (a b : Fill)
  | bad (slot : Nat)
  | coming
  deriving DecidableEq, Repr

/-- What a command's slots hold for it (R385, R395). -/
def State.operandsOf (s : State) (c : Nat) (q : Cmd) : Operands :=
  match (s.slot c q.slotA).fill q.fillA, (s.slot c q.slotB).fill q.fillB with
  | some a, some b =>
    if a.ended && a.code != 0 then .bad q.slotA
    else if b.ended && b.code != 0 then .bad q.slotB
    else if a.ended && b.ended then .ready a b else .coming
  | _, _ => .coming

/-- A command's readers' marks go. -/
def State.unread (s : State) (c : Nat) (q : Cmd) : State :=
  let s := s.setSlot c q.slotA ((s.slot c q.slotA).dropReader q.fillA)
  let s := s.setSlot c q.slotB ((s.slot c q.slotB).dropReader q.fillB)
  (s.post (.slotFillComplete (clusterOf c) q.slotA)).post (.slotFillComplete (clusterOf c) q.slotB)

/-- A leased command starts (R373). -/
def State.startCmd (s : State) (c : Nat) (q : Cmd) : State :=
  (s.modCore c fun x => { x with
    lease := { x.lease with left := x.lease.left - 1 }
    queue := x.queue.map fun y => if y.id = q.id then { y with started := true } else y }).post (.leasedCommandComplete c)

/-- LEASED_COMMAND_START (R373, R396): the command at the head of the holder's queue, once its slots are READY. One whose fill has ended in
error faults with 0x0B, reason 3 (R395). -/
def execLeasedCommandStart (cluster : Nat) (s : State) : Host.Outcome State Fault Refusal :=
  match s.holder cluster with
  | none => .next (s.post (.leaseGrant cluster))
  | some c =>
    let x := s.core c
    match x.queue.head? with
    | none => .next s
    | some q =>
      if q.op = .place || q.started || x.lease.left = 0 then .next s
      else if q.op = .mstc then .next (s.startCmd c q)
      else match s.operandsOf c q with
        | .coming => .next s
        | .bad n => .next (((s.dequeue c q.id).unread c q).cmdEnd q.ctx q.id (.trap 0x0B (BitVec.ofNat 64 (n + 768))))
        | .ready _ _ => if s.tileHeld c q.ctx q.tile then .next s else .next (s.startCmd c q)

/-- The lease at the boundary after a command (R373), from which the idle time counts. -/
def State.boundary (s : State) (c : Nat) : State :=
  let s := s.modCore c fun x => { x with lease := { x.lease with idle := s.arrayCycle c } }
  let x := s.core c
  if x.lease.state = .held && (x.lease.left = 0 || x.lease.cyclesLeft (s.arrayCycle c) = 0) then s.spend c else s

/-- The value that a command reads of its tile at its place in the queue: what its own context's windows fix, else what an earlier command of another
context has made of the tile, held in a window or not (R370, R371, R511). -/
def State.tileFor (s : State) (c : Nat) (q : Cmd) : Mem := (q.old.or (s.heldTile c q.ctx q.tile)).getD (s.tile c q.tile)

/-- LEASED_COMMAND_COMPLETE (R396, R393): the result goes to its instruction, and the flags to its context. A store's tile has been read. -/
def execLeasedCommandComplete (core : Nat) (s : State) : Host.Outcome State Fault Refusal :=
  let x := s.core core
  match x.queue.find? (·.started) with
  | none => .next s
  | some q =>
    let c := s.tileFor core q
    let s := s.dequeue core q.id
    match q.op with
    | .mstc =>
      let s := (s.modCore core fun x => { x with storing := x.storing ++ [{ q with old := some c }] }).flag q.ctx (storeFlags q c)
      .next (s.boundary core)
    | _ => match s.operandsOf core q with
      | .ready a b =>
        let z := accBytes q.fmt
        let r := product (if q.op = .mma then mmaElem q.fmt else mrunElem (x.prog.getD 0)) a b z c
        .next ((((s.unread core q).flag q.ctx r.2).cmdEnd q.ctx q.id (.ok [.tile q.tile r.1 true])).boundary core)
      | _ => .next ((s.unread core q).boundary core)

end Sys2Proof.Machine
end

