-- ==== Sys2Proof/Machine/LoadStore.lean ====
section
/-! DEFINITION. The plain loads and stores of majors 0x04 and 0x05 and their compact forms (R50, R143 to R146). Each has an attempt of its
own, which a waiting access makes again when it is answered (R61). -/

namespace Sys2Proof.Machine

/-- A load of n bytes from ea into sD, sign- or zero-extended (R143). -/
def tryLoad (d : Reg) (n : Nat) (signed : Bool) (ea : Env → Nat) (e : Env) (s : State) : Att :=
  lsu e .load s (fun x s' => .done [.s d (if signed then BitVec.ofInt 64 (sext x (8 * n)) else BitVec.ofNat 64 x)] s')
    (s.plainRead (s.who e.k) .load (ea e) n)

/-- A store of the low n bytes of a register to ea (R144). -/
def tryStore (r : Reg) (n : Nat) (ea : Env → Nat) (e : Env) (s : State) : Att :=
  lsu e .store s (fun _ s' => .done [] s') (s.plainStore (s.who e.k) (ea e) n (e.n r % 2 ^ (8 * n)))

/-- LD.B (R143). -/
def execLdB (l : La) (d a : Reg) (p : BitVec 8) (s : State) : Host.Outcome State Fault Refusal :=
  s.issue (.ldB l d a p) l.toNat (tryLoad d 1 true (·.ea a p 1))

/-- LD.BU (R143). -/
def execLdBu (l : La) (d a : Reg) (p : BitVec 8) (s : State) : Host.Outcome State Fault Refusal :=
  s.issue (.ldBu l d a p) l.toNat (tryLoad d 1 false (·.ea a p 1))

/-- LD.H (R143). -/
def execLdH (l : La) (d a : Reg) (p : BitVec 8) (s : State) : Host.Outcome State Fault Refusal :=
  s.issue (.ldH l d a p) l.toNat (tryLoad d 2 true (·.ea a p 2))

/-- LD.HU (R143). -/
def execLdHu (l : La) (d a : Reg) (p : BitVec 8) (s : State) : Host.Outcome State Fault Refusal :=
  s.issue (.ldHu l d a p) l.toNat (tryLoad d 2 false (·.ea a p 2))

/-- LD.W (R143). -/
def execLdW (l : La) (d a : Reg) (p : BitVec 8) (s : State) : Host.Outcome State Fault Refusal :=
  s.issue (.ldW l d a p) l.toNat (tryLoad d 4 true (·.ea a p 4))

/-- LD.WU (R143). -/
def execLdWu (l : La) (d a : Reg) (p : BitVec 8) (s : State) : Host.Outcome State Fault Refusal :=
  s.issue (.ldWu l d a p) l.toNat (tryLoad d 4 false (·.ea a p 4))

/-- LD.D (R143). -/
def execLdD (l : La) (d a : Reg) (p : BitVec 8) (s : State) : Host.Outcome State Fault Refusal :=
  s.issue (.ldD l d a p) l.toNat (tryLoad d 8 false (·.ea a p 8))

/-- ST.B (R144). -/
def execStB (a r : Reg) (p : BitVec 8) (s : State) : Host.Outcome State Fault Refusal :=
  s.issue (.stB a r p) 0 (tryStore r 1 (·.ea a p 1))

/-- ST.H (R144). -/
def execStH (a r : Reg) (p : BitVec 8) (s : State) : Host.Outcome State Fault Refusal :=
  s.issue (.stH a r p) 0 (tryStore r 2 (·.ea a p 2))

/-- ST.W (R144). -/
def execStW (a r : Reg) (p : BitVec 8) (s : State) : Host.Outcome State Fault Refusal :=
  s.issue (.stW a r p) 0 (tryStore r 4 (·.ea a p 4))

/-- ST.D (R144). -/
def execStD (a r : Reg) (p : BitVec 8) (s : State) : Host.Outcome State Fault Refusal :=
  s.issue (.stD a r p) 0 (tryStore r 8 (·.ea a p 8))

/-- LDD.N (R50). -/
def execLddN (d a : BitVec 3) (i : BitVec 5) (s : State) : Host.Outcome State Fault Refusal :=
  s.issue (.lddN d a i) 0 (tryLoad (regN d) 8 false (·.eaN (regN a) i.toNat 8))

/-- STD.N (R50). -/
def execStdN (d a : BitVec 3) (i : BitVec 5) (s : State) : Host.Outcome State Fault Refusal :=
  s.issue (.stdN d a i) 0 (tryStore (regN d) 8 (·.eaN (regN a) i.toNat 8))

/-- LDW.N (R50): LD.W sign-extends. -/
def execLdwN (d a : BitVec 3) (i : BitVec 5) (s : State) : Host.Outcome State Fault Refusal :=
  s.issue (.ldwN d a i) 0 (tryLoad (regN d) 4 true (·.eaN (regN a) i.toNat 4))

/-- STW.N (R50). -/
def execStwN (d a : BitVec 3) (i : BitVec 5) (s : State) : Host.Outcome State Fault Refusal :=
  s.issue (.stwN d a i) 0 (tryStore (regN d) 4 (·.eaN (regN a) i.toNat 4))

/-- LDSP.N (R50): from the stack pointer s30. -/
def execLdspN (d : Reg) (i : BitVec 6) (s : State) : Host.Outcome State Fault Refusal :=
  s.issue (.ldspN d i) 0 (tryLoad d 8 false (·.eaN 30 i.toNat 8))

/-- STSP.N (R50). -/
def execStspN (d : Reg) (i : BitVec 6) (s : State) : Host.Outcome State Fault Refusal :=
  s.issue (.stspN d i) 0 (tryStore d 8 (·.eaN 30 i.toNat 8))

end Sys2Proof.Machine
end

