-- ==== Sys2Proof/Machine/VMem.lean ====
section
/-! DEFINITION. Vector loads and stores of scratch, major 0x0E (R172 to R174), and the checks that gathers and scatters share with them. -/

namespace Sys2Proof.Machine

/-- The element addresses of a VMEM form, modulo 2^64 (R172). -/
def unitAddr (t : ElTy) (e : Env) (a : Reg) (i : Nat) : Nat := (e.n a + i * (t.width / 8)) % 2 ^ 64
def strideAddr (e : Env) (a b : Reg) (i : Nat) : Nat := (e.s a + BitVec.ofNat 64 i * e.s b).toNat
def indexAddr (t : ElTy) (e : Env) (a b : Reg) (i : Nat) : Nat := (e.n a + elem t.width (e.v b) i * (t.width / 8)) % 2 ^ 64

/-- The active elements of a type. -/
def actives (t : ElTy) (m : Word) : List Nat := (List.range t.lanes).filter (active m)

/-- The check of one element at issue (R173, R194): a tag outside the list traps with 0x04, a scratch element beyond the carve-out with
0x0C. -/
def elementTrap (s : State) (c : Nat) (tags : List Nat) (ea n : Nat) : Option Nat :=
  if !tags.contains (winTag ea) || !tags.contains (winTag ((ea + n - 1) % 2 ^ 64)) then some 0x04
  else if winTag ea ≠ 0 && !s.scratchIn c ea n then some 0x0C
  else none

/-- The lowest failing element's trap, with its address. -/
def elementsTrap (s : State) (c : Nat) (tags : List Nat) (n : Nat) : List Nat → Option (Nat × Nat)
  | [] => none
  | ea :: eas => match elementTrap s c tags ea n with
    | some code => some (code, ea)
    | none => elementsTrap s c tags n eas

/-- Two of the elements written overlap in bytes (R174). -/
def overlap (n : Nat) : List Nat → Bool
  | [] => false
  | a :: as => as.any (fun b => decide ((a + 2 ^ 64 - b) % 2 ^ 64 < n ∨ (b + 2 ^ 64 - a) % 2 ^ 64 < n)) || overlap n as

/-- An attempt of a vector load from scratch: active elements take their bytes (R172, R173). -/
def tryVload (t : ElTy) (k : KReg) (d : Reg) (addr : Env → Nat → Nat) (e : Env) (s : State) : Att :=
  let n := t.width / 8
  match elementsTrap s e.core [0xF0, 0xF1] n ((actives t (e.m k)).map (addr e)) with
  | some (code, ea) => .trap false code ea s
  | none =>
    let r := masked t (e.m k) (e.v d) fun j => (s.readScratch e.core (addr e j) n, 0)
    .done [.v d r.1] s

/-- An attempt of a vector store to scratch: in ascending order, so that the highest element wins; overlap sets SDUP (R174). -/
def tryVstore (t : ElTy) (k : KReg) (d : Reg) (addr : Env → Nat → Nat) (e : Env) (s : State) : Att :=
  let n := t.width / 8
  let js := actives t (e.m k)
  match elementsTrap s e.core [0xF0, 0xF1] n (js.map (addr e)) with
  | some (code, ea) => .trap false code ea s
  | none =>
    let s2 := js.foldl (fun x j => x.writeScratch e.core (addr e j) n (elem t.width (e.v d) j)) s
    .done [] (s2.vflag e.k (flagIf (overlap n (js.map (addr e))) vSDUP))

/-- VLD (R172). -/
def execVld (t : ElTy) (k : KReg) (d a : Reg) (s : State) : Host.Outcome State Fault Refusal :=
  s.issue (.vld t k d a) 0 (tryVload t k d fun e j => unitAddr t e a j)

/-- VST (R172). -/
def execVst (t : ElTy) (k : KReg) (d a : Reg) (s : State) : Host.Outcome State Fault Refusal :=
  s.issue (.vst t k d a) 0 (tryVstore t k d fun e j => unitAddr t e a j)

/-- VLDS (R172). -/
def execVlds (t : ElTy) (k : KReg) (d a b : Reg) (s : State) : Host.Outcome State Fault Refusal :=
  s.issue (.vlds t k d a b) 0 (tryVload t k d fun e j => strideAddr e a b j)

/-- VSTS (R172). -/
def execVsts (t : ElTy) (k : KReg) (d a b : Reg) (s : State) : Host.Outcome State Fault Refusal :=
  s.issue (.vsts t k d a b) 0 (tryVstore t k d fun e j => strideAddr e a b j)

/-- VLDB (R172): one element, for every active one. -/
def execVldb (t : ElTy) (k : KReg) (d a : Reg) (s : State) : Host.Outcome State Fault Refusal :=
  s.issue (.vldb t k d a) 0 (tryVload t k d fun e _ => e.n a)

/-- VLDI (R172). -/
def execVldi (t : ElTy) (k : KReg) (d a b : Reg) (s : State) : Host.Outcome State Fault Refusal :=
  s.issue (.vldi t k d a b) 0 (tryVload t k d fun e j => indexAddr t e a b j)

/-- VSTI (R172). -/
def execVsti (t : ElTy) (k : KReg) (d a b : Reg) (s : State) : Host.Outcome State Fault Refusal :=
  s.issue (.vsti t k d a b) 0 (tryVstore t k d fun e j => indexAddr t e a b j)

end Sys2Proof.Machine
end

