-- ==== Sys2Proof/Machine/VecX.lean ====
section
/-! DEFINITION. The X-form vector instructions of major 0x1E (R191 to R200). They carry a lookahead count. -/

namespace Sys2Proof.Machine

/-- A masked X-form instruction into vD. -/
def vecX (s : State) (i : Instr) (l : La) (t : ElTy) (k : KReg) (d : Reg) (f : Env → Nat → Flagged) : Host.Outcome State Fault Refusal :=
  s.issue i l.toNat fun e s' =>
    let r := masked t (e.m k) (e.v d) (f e)
    .done [.v d r.1] (s'.flag e.k r.2)

/-- VFMA (R192). -/
def execVfma (l : La) (t : ElTy) (k : KReg) (d a b c : Reg) (s : State) : Host.Outcome State Fault Refusal :=
  vecX s (.vfma l t k d a b c) l t k d fun e j =>
    (fmtOf t).fma (elem t.width (e.v a) j) (elem t.width (e.v b) j) (elem t.width (e.v c) j)

/-- VFMS (R192). -/
def execVfms (l : La) (t : ElTy) (k : KReg) (d a b c : Reg) (s : State) : Host.Outcome State Fault Refusal :=
  vecX s (.vfms l t k d a b c) l t k d fun e j =>
    (fmtOf t).fms (elem t.width (e.v a) j) (elem t.width (e.v b) j) (elem t.width (e.v c) j)

/-- VMAD (R192): wrapped, or clamped with SAT. -/
def execVmad (l : La) (t : ElTy) (k : KReg) (d a b c : Reg) (r : BitVec 1) (s : State) : Host.Outcome State Fault Refusal :=
  vecX s (.vmad l t k d a b c r) l t k d fun e j =>
    let w := t.width
    narrow (r == 1) w (sext (elem w (e.v a) j) w * sext (elem w (e.v b) j) w + sext (elem w (e.v c) j) w)

/-- The rank key of an element (R193): integers by signed value, floats by total order, NaN below every number. -/
def rankKey (t : ElTy) (x : Nat) : Int :=
  if t.isInt then sext x t.width
  else
    let f := fmtOf t
    if (f.read x).isNan then -(2 ^ 80)
    else if f.sign ≤ x then -((x - f.sign : Nat) : Int) - 1 else x

/-- How many of the candidates rank above element i: a greater key, or an equal one at a lower index (R193). -/
def rankOf (t : ElTy) (m : Word) (a : VReg) (i : Nat) : Nat :=
  let key := fun j => rankKey t (elem t.width a j)
  ((actives t m).filter fun j => decide (key i < key j) || (key i == key j && decide (j < i))).length

/-- VTOPK (R193). -/
def execVtopk (l : La) (t : ElTy) (k : KReg) (d a c : Reg) (n : BitVec 7) (s : State) : Host.Outcome State Fault Refusal :=
  s.issue (.vtopk l t k d a c n) l.toNat fun e s' =>
    if d = c then illegal e s'
    else
      let w := t.width
      let m := e.m k
      let x := e.v a
      let out := ((List.range (min n.toNat (actives t m).length)).map fun j => ((actives t m).find? fun i => rankOf t m x i == j).getD 0)
      let nan := out.any fun i => !t.isInt && ((fmtOf t).read (elem w x i)).isNan
      let vals := vecOf w ((List.range t.lanes).map fun j => (out.map (elem w x)).getD j (elem w (e.v d) j))
      let idxs := vecOf w ((List.range t.lanes).map fun j => out.getD j (elem w (e.v c) j))
      .done [.v d vals, .v c idxs] (s'.vflag e.k (flagIf nan vKNAN))

/-! ### Gathers and scatters (R194 to R198) -/

/-- The tags that gathers and scatters accept (R194). -/
def anyWindow : List Nat := [0, 0xF0, 0xF1]

/-- The aligned 8-byte units that an element touches, as those of translated memory that have been read give them: a unit is read once (R195). -/
def readUnit (w : Who) (n u : Nat) (s : State) (seen : Tab Nat) : Nat × State × Tab Nat :=
  match seen.find u with
  | some x => (x, s, seen)
  | none => let (x, s) := s.readPiece w (8 * u) 8 n .gather; (x, s, seen.put u x)

/-- One element read where it lies: at its slice or at its pool, never from an L1 (R194); elements of one aligned 8-byte unit share its value
(R195). -/
def gatherElement (e : Env) (ea n : Nat) (s : State) (seen : Tab Nat) : MemRes × Tab Nat :=
  if winTag ea = 0 then
    match s.firstStop (s.who e.k) .gather ea n true (piecesOf ea n) with
    | some r => (r, seen)
    | none =>
      let (x, s, seen) := readUnit (s.who e.k) n (ea / 8) s seen
      let (y, s, seen) := if (ea + n - 1) / 8 = ea / 8 then (0, s, seen) else readUnit (s.who e.k) n (ea / 8 + 1) s seen
      (.ok ((x + y * 2 ^ 64) / 2 ^ (8 * (ea % 8)) % 2 ^ (8 * n)) s, seen)
  else (.ok (s.readScratch e.core ea n) s, seen)

/-- The outcome of several elements from those met so far and the next (R197): all of them are waited for, and then the first failure decides. -/
def worse (bad : Option MemRes) (r : MemRes) : Option MemRes := match bad, r with
  | some .stall, _ | _, .stall => some .stall
  | some x, _ => some x
  | none, r => some r

/-- Reads the elements of a gather that have not completed: the values, by element, and what decides where some have failed (R197). -/
def gatherFrom (e : Env) (n : Nat) (addr : Nat → Nat) : List Nat → Tab Nat → Option MemRes → State → Tab Nat → Tab Nat × Option MemRes × State
  | [], got, bad, s, _ => (got, bad, s)
  | j :: js, got, bad, s, seen =>
    if (got.find j).isSome then gatherFrom e n addr js got bad s seen
    else match gatherElement e (addr j) n s seen with
      | (.ok x s, seen) => gatherFrom e n addr js (got.put j x) bad s seen
      | (r, seen) => gatherFrom e n addr js got (worse bad r) s seen

/-- What a waiting gather keeps: the faulting address, then index and value of every element completed. -/
def packGot (va : Nat) (got : Tab Nat) : List Nat := va :: got.flatMap fun x => [x.1, x.2]
def unpackGot : List Nat → Tab Nat
  | i :: x :: r => (i, x) :: unpackGot r
  | _ => []

/-- The outcome of a gather or scatter whose lowest failing element met r (R197). -/
def elementFails (e : Env) (a : Acc) (got : Tab Nat) (r : MemRes) (s : State) : Att :=
  match r with
  | .fault va cause level pte =>
    if (s.ctx e.k).sup then .trap true 0x13 va s
    else .wait { how := .blocked, deadline := none, aux := packGot va got } (s.pageFault e.k a va cause level pte)
  | .trap late code val s' => .trap late code val s'
  | _ => .wait { how := .running, deadline := none, aux := packGot 0 got } s

/-- An attempt of VGATHER (R194, R195, R197). -/
def tryGather (t : ElTy) (k : KReg) (d a b : Reg) (e : Env) (s : State) : Att :=
  let n := t.width / 8
  let addr := indexAddr t e a b
  let js := actives t (e.m k)
  match elementsTrap s e.core anyWindow n (js.map addr) with
  | some (code, ea) => .trap false code ea s
  | none =>
    let had := match e.wait with
      | some w => unpackGot w.aux.tail
      | none => []
    let (got, bad, s) := gatherFrom e n addr js had none s []
    match bad with
    | some r => elementFails e .gather got r s
    | none => .done [.v d (vecOf t.width ((List.range t.lanes).map fun j => Tab.get (elem t.width (e.v d) j) got j))] s

/-- VGATHER (R194). -/
def execVgather (l : La) (t : ElTy) (k : KReg) (d a b : Reg) (s : State) : Host.Outcome State Fault Refusal :=
  s.issue (.vgather l t k d a b) l.toNat (tryGather t k d a b)

/-- What decides where elements of a scatter fail their check at their slices (R196, R197). -/
def scatterStop (s : State) (e : Env) (n : Nat) (eas : List Nat) : Option MemRes :=
  eas.foldl (fun bad ea =>
    if winTag ea = 0 then
      match s.firstStop (s.who e.k) .scatter ea n true (piecesOf ea n) with
      | some r => worse bad r
      | none => bad
    else bad) none

/-- What a scatter that has passed its check still has to write in translated memory, piece by piece in ascending order of elements: element, offset
in it, length, physical address, and whether it is performed at the home (R288, R318). -/
def scatterPieces (s : State) (e : Env) (n : Nat) (addr : Nat → Nat) (js : List Nat) : List Nat :=
  js.flatMap fun j =>
    if winTag (addr j) = 0 then
      (piecesOf (addr j) n).flatMap fun p =>
        let (pa, pte) := s.pieceAt (s.who e.k) .scatter p.1 n
        [j, p.1 - addr j, p.2, pa, ofBool (uncached pte)]
    else []

/-- The slices hold the lines of a scatter against registration (R196, R358): key and line of each translated element. -/
def State.holdLines (s : State) (e : Env) (n : Nat) (eas : List Nat) : State :=
  s.modDie e.die fun x => { x with scatters := x.scatters ++ (eas.filter fun (ea : Nat) => winTag ea == 0).flatMap (fun ea =>
    (piecesOf ea n).map fun p => (e.k, keyOf (s.who e.k).asid (s.pieceAt (s.who e.k) .scatter p.1 n).2, p.1 / 64)) }

/-- The lines of context k's scatter are free again, and registrations that waited may go on (R358). -/
def State.freeLines (s : State) (k : Nat) : State :=
  let d := dieOf (coreOf k)
  if (s.die d).scatters.any fun x => x.1 == k then
    (s.modDie d fun x => { x with scatters := x.scatters.filter fun y => y.1 != k }).post (.rangeLockGrant d)
  else s

/-- A scatter's element piece is written at its slice (R194, R196). -/
def scatterPiece (e : Env) (s : State) (off n pa home x : Nat) : State :=
  let l := pa / 64
  let s := (s.met e.core l).spillCluster e.core l none
  s.sliceStore e.k l (pa % 64) n (x / 2 ^ (8 * off) % 2 ^ (8 * n)) (home == 1)

/-- An attempt of VSCATTER (R196): every element is checked; then every element is written, the highest index last, those in translated memory one
piece at a time while their lines are held (R198). -/
def tryScatter (t : ElTy) (k : KReg) (d a b : Reg) (e : Env) (s : State) : Att :=
  let n := t.width / 8
  let addr := indexAddr t e a b
  let js := actives t (e.m k)
  let finish := fun (s : State) => Att.done [] (s.vflag e.k (flagIf (overlap n (js.map addr)) vSDUP))
  let waits := fun (l : List Nat) (s : State) => Att.wait { how := .running, deadline := none, aux := 1 :: l } s
  match e.wait.map (·.aux) with
  | some (1 :: j :: off :: m :: pa :: home :: rest) =>
    let s := scatterPiece e s off m pa home (elem t.width (e.v d) j)
    if rest = [] then finish (s.freeLines e.k) else waits rest s
  | _ =>
    match elementsTrap s e.core anyWindow n (js.map addr) with
    | some (code, ea) => .trap false code ea s
    | none =>
      match scatterStop s e n (js.map addr) with
      | some r => elementFails e .scatter [] r s
      | none =>
        let l := scatterPieces s e n addr js
        let s2 := js.foldl (fun x j => if winTag (addr j) = 0 then x else x.writeScratch e.core (addr j) n (elem t.width (e.v d) j)) s
        if l = [] then finish s2 else waits l (s2.holdLines e n (js.map addr))

/-- VSCATTER (R194). -/
def execVscatter (t : ElTy) (k : KReg) (d a b : Reg) (s : State) : Host.Outcome State Fault Refusal :=
  s.issue (.vscatter t k d a b) 0 (tryScatter t k d a b)

/-! ### Dot products -/

/-- Pairs first to last - 1 that a mask leaves active. -/
def activePairs (m : Word) (first n : Nat) : List Nat := ((List.range n).map (· + first)).filter (active m)

/-- One W48 lane of `VDOTL` (R199): its eight products in ascending order. -/
def dotLane (m : Word) (a b : VReg) (x j : Nat) : Flagged :=
  (activePairs m (8 * j) 8).foldl (fun r i =>
    let q := w48Add r.1 (l6Product (l6Code (elem 8 a i)) (l6Code (elem 8 b i)))
    (q.1, r.2 ||| q.2)) (x % 2 ^ 50, 0)

/-- VDOTL (R199): every lane is written. -/
def execVdotl (l : La) (k : KReg) (d a b c : Reg) (s : State) : Host.Outcome State Fault Refusal :=
  s.issue (.vdotl l k d a b c) l.toNat fun e s' =>
    let xs := (List.range 8).map fun j => dotLane (e.m k) (e.v a) (e.v b) (elem 64 (e.v c) j) j
    .done [.v d (vecOf 64 (xs.map (·.1)))] (s'.flag e.k (xs.foldl (fun y x => y ||| x.2) 0))

/-- VDOTB (R200): lanes 0 to 7 take a group of four products each, lanes 8 to 15 pass. -/
def execVdotb (l : La) (k : KReg) (d a b c : Reg) (s : State) : Host.Outcome State Fault Refusal :=
  s.issue (.vdotb l k d a b c) l.toNat fun e s' =>
    let xs := (List.range 16).map fun j =>
      let x := elem 32 (e.v c) j
      if j < 8 then fp32.addGroup x ((activePairs (e.m k) (4 * j) 4).map fun i => (bf16.read (elem 16 (e.v a) i), bf16.read (elem 16 (e.v b) i)))
      else (x, 0)
    .done [.v d (vecOf 32 (xs.map (·.1)))] (s'.flag e.k (xs.foldl (fun y x => y ||| x.2) 0))

end Sys2Proof.Machine
end

