-- ==== Sys2Proof/Machine/Settle.lean ====
section
/-! DEFINITION. What becomes of waiting instructions (R57, R61, R293): the attempt of every instruction that can wait, and the order in which
a context's waiting instructions try again. -/

namespace Sys2Proof.Machine

/-- The attempt of an instruction that can wait, as its meaning makes it. An instruction that cannot wait is never outstanding. -/
def attemptOf (i : Instr) : Env → State → Att := match i with
  | .amoAdd _ d a b => tryAmo2 d a b (· + ·)
  | .amoAnd _ d a b => tryAmo2 d a b (· &&& ·)
  | .amoOr _ d a b => tryAmo2 d a b (· ||| ·)
  | .amoXor _ d a b => tryAmo2 d a b (· ^^^ ·)
  | .amoMin _ d a b => tryAmo2 d a b amoMin
  | .amoMax _ d a b => tryAmo2 d a b amoMax
  | .amoMinu _ d a b => tryAmo2 d a b amoMinu
  | .amoMaxu _ d a b => tryAmo2 d a b amoMaxu
  | .amoSwap _ d a b => tryAmo2 d a b fun _ y => y
  | .amoCas _ d a b => tryCas d a b
  | .amoAddn _ d a b => tryAddn d a b
  | .ldAcq _ d a => tryLdAcq d a
  | .stRel a b => tryStRel a b
  | .ldSc _ d a => tryLdSc d a
  | .stSc a b => tryStSc a b
  | .fence sc => tryFence sc.toNat
  | .fenceSc => tryFenceSc
  | .bara d n m => tryBara d (barN n m)
  | .barw d n m => tryBarw d (barN n m)
  | .barx d n m => tryBarx d (barN n m)
  | .team d a b => tryTeam d a b
  | .copy _ d a n => tryEngine .copy d a n.toNat
  | .copym _ d a n => tryEngine .copym d a n.toNat
  | .get _ d a n => tryEngine .get d a n.toNat
  | .put _ d a n => tryEngine .put d a n.toNat
  | .ctrw _ d a n => tryCtrw d a n.toNat
  | .ldg _ d a b => tryLdg d a b
  | .stg d a b => tryStg d a b
  | .gstep _ d a b => tryGstep d a b
  | .gwait _ d a b => tryGwait d a b
  | .gstat _ d a b => tryGstat d a b
  | .gdecl _ d a => tryGdecl d a
  | .gdeclFree a => tryGdeclFree a
  | .rejoin d p => tryRejoin d p
  | .ldB _ d a p => tryLoad d 1 true (·.ea a p 1)
  | .ldBu _ d a p => tryLoad d 1 false (·.ea a p 1)
  | .ldH _ d a p => tryLoad d 2 true (·.ea a p 2)
  | .ldHu _ d a p => tryLoad d 2 false (·.ea a p 2)
  | .ldW _ d a p => tryLoad d 4 true (·.ea a p 4)
  | .ldWu _ d a p => tryLoad d 4 false (·.ea a p 4)
  | .ldD _ d a p => tryLoad d 8 false (·.ea a p 8)
  | .stB a r p => tryStore r 1 (·.ea a p 1)
  | .stH a r p => tryStore r 2 (·.ea a p 2)
  | .stW a r p => tryStore r 4 (·.ea a p 4)
  | .stD a r p => tryStore r 8 (·.ea a p 8)
  | .lddN d a i => tryLoad (regN d) 8 false (·.eaN (regN a) i.toNat 8)
  | .stdN d a i => tryStore (regN d) 8 (·.eaN (regN a) i.toNat 8)
  | .ldwN d a i => tryLoad (regN d) 4 true (·.eaN (regN a) i.toNat 4)
  | .stwN d a i => tryStore (regN d) 4 (·.eaN (regN a) i.toNat 4)
  | .ldspN d i => tryLoad d 8 false (·.eaN 30 i.toNat 8)
  | .stspN d i => tryStore d 8 (·.eaN 30 i.toNat 8)
  | .mlease _ d a => tryMlease d a
  | .mrel => tryMrel
  | .mzero _ d => tryMzero d
  | .mfmt a => tryMfmt a
  | .mprog a => tryMprog a
  | .mldc _ d a b => tryMldc d a b
  | .mfree a => tryMfree a
  | .mwait _ d a => tryMwait d a
  | .mlda a b c n => tryFill false c a b n
  | .mldb a b c n => tryFill true c a b n
  | .mma _ d a b => tryProduct .mma d a b
  | .mrun _ d a b => tryProduct .mrun d a b
  | .mstc d a b c r => tryMstc d a b c r
  | .send a b v => trySend a b v
  | .sendm a b v => trySendm a b v
  | .mbxw d a b => tryMbxw d a b
  | .sld _ d a b => trySld d a b
  | .sst d a b => trySst d a b
  | .sadd d a b => trySadd d a b
  | .sstat _ d a b => trySstat d a b
  | .sdecl _ d a => trySdecl d a
  | .sdeclFree a => trySdeclFree a
  | .siter _ d a b => trySiter d a b
  | .snext _ d a b c => trySnext d a b c
  | .dense _ d a n => tryDense d a n.toNat
  | .taskend => retryTaskend
  | .wfi => tryWfi
  | .biasflipHost a => tryBiasflip a true
  | .biasflipDevice a => tryBiasflip a false
  | .pubf a => tryPubf a
  | .spawn a => trySpawn a
  | .sync => trySync
  | .jinit a b => tryJinit a b
  | .jdec d a => tryJdec d a
  | .donate d a b => tryDonate d a b
  | .vld t k d a => tryVload t k d fun e j => unitAddr t e a j
  | .vst t k d a => tryVstore t k d fun e j => unitAddr t e a j
  | .vlds t k d a b => tryVload t k d fun e j => strideAddr e a b j
  | .vsts t k d a b => tryVstore t k d fun e j => strideAddr e a b j
  | .vldb t k d a => tryVload t k d fun e _ => e.n a
  | .vldi t k d a b => tryVload t k d fun e j => indexAddr t e a b j
  | .vsti t k d a b => tryVstore t k d fun e j => indexAddr t e a b j
  | .vgather _ t k d a b => tryGather t k d a b
  | .vscatter t k d a b => tryScatter t k d a b
  | _ => fun _ s => .done [] s

/-- The registers, address and wait that an outstanding instruction keeps. -/
def Outst.env (o : Outst) (k : Nat) (i : Instr) (g : Regs) (w : Wait) : Env :=
  { k := k, pos := o.pos, pc := o.pc, next := o.next, bits := i.word, regs := g, wait := some w }

/-- An outstanding instruction of context k tries again, unless an older one holds it back (R59, R309) or its fault waits for a reply (R293). -/
def State.retryOne (s : State) (k : Nat) (o : Outst) : State := match o.res with
  | .pend i g w =>
    let c := s.ctx k
    if mustWait i g (c.win.outst.filter fun x => decide (x.pos < o.pos)) || (w.how == .blocked && bit c.mbx.toNat 63) then s
    else resolve k o (attemptOf i (o.env k i g w) s)
  | _ => s

/-- The outstanding instruction of context k at place q, if it still waits and is of a kind, tries again. -/
def State.retryAt (s : State) (k : Nat) (p : Instr → Bool) (q : Nat) : State :=
  match (s.ctx k).win.outst.find? fun o => decide (o.pos = q) with
  | some o => match o.res with
    | .pend i _ _ => if p i then s.retryOne k o else s
    | _ => s
  | none => s

/-- Every waiting instruction of context k of a kind tries again, oldest first. -/
def State.settleOf (s : State) (k : Nat) (p : Instr → Bool) : State :=
  (((s.ctx k).win.outst.filter Outst.pending).map (·.pos)).foldl (fun s q => s.retryAt k p q) s

/-- Every waiting instruction of context k tries again; a fetch that a fault held up is made again once the fault is answered. -/
def State.settle (s : State) (k : Nat) : State := (s.settleOf k fun _ => true).advance k

/-- The nearest deadline of the context's waiting instructions of a kind. -/
def Ctx.deadlineOf (c : Ctx) (p : Instr → Bool) : Option Nat :=
  (c.win.outst.filterMap fun o => match o.res with
    | .pend i _ w => if p i then w.deadline else none
    | _ => none).foldl (fun m t => some (match m with
      | some x => min x t
      | none => t)) none

/-- The deadline of the context's waiting instructions of a kind passes: time runs on to it, and they try again. -/
def State.timeout (s : State) (k : Nat) (p : Instr → Bool) : State :=
  match (s.ctx k).deadlineOf p with
  | none => s
  | some t => (s.runTo (dieOf (coreOf k)) t).settleOf k p

end Sys2Proof.Machine
end

