-- ==== Sys2Proof/Machine/MemEvents.lean ====
section
/-! DEFINITION. The events of the memory system (R287 to R305), of results that arrive (R56), and of waits that end by themselves (R218, R252,
R349, R453, R457, R505). -/

namespace Sys2Proof

/-! ### Instructions that wait for a time -/

/-- `SYNC`. -/
def Instr.isSync : Instr → Bool
  | .sync => true
  | _ => false

/-- `MBXW`. -/
def Instr.isMbxw : Instr → Bool
  | .mbxw .. => true
  | _ => false

/-- `CTRW`. -/
def Instr.isCtrw : Instr → Bool
  | .ctrw .. => true
  | _ => false

/-- `WFI`. -/
def Instr.isWfi : Instr → Bool
  | .wfi => true
  | _ => false

/-- `LDG`. -/
def Instr.isLdg : Instr → Bool
  | .ldg .. => true
  | _ => false

/-- `GWAIT`. -/
def Instr.isGwait : Instr → Bool
  | .gwait .. => true
  | _ => false

namespace Machine

/-! ### Accesses at the slices (R287, R289, R293) -/

/-- A die's slices and walkers work. -/
def State.working (s : State) (d : Nat) : Bool := (s.die d).power == .d0 && !(s.die d).lost

/-- An access of kind fill: a prefetch in flight arrives, in the L1 or in the slice, and is dropped and counted where the slice no longer lets it pass
(R326, R331); else a line comes into the L1 of the accessor's core by a miss, where that has an L1 (R118, R298, log 4). -/
def State.missFill (s : State) (w : Who) (va : Nat) : State :=
  let due := (s.core w.core).coming.find? fun e => e.1 == va / 64
  let s := match due with
    | some x => s.modCore w.core fun y => { y with coming := y.coming.erase x }
    | none => s
  match s.prefetchable w va with
  | none => if due.isSome then s.modCore w.core fun y => { y with pfdrop := countUp y.pfdrop 1 } else s
  | some (pa, pte) =>
    let l := pa / 64
    match due with
    | some (_, _, toL1) =>
      if !toL1 then (s.fill w va pa pte false false).modCore w.core fun y => { y with brought := if y.brought.contains l then y.brought else l :: y.brought }
      else if s.l1Lines w.core = 0 then s
      else s.fill w va pa pte true true
    | none => if s.l1Lines w.core = 0 then s else s.fill w va pa pte true false

/-- What a slice makes of an access (R289): the access is performed, or a fault is answered. A trap is raised at the instruction that made
the access, in its own step. -/
def State.answered (s : State) (r : AccessReq) : MemRes → State
  | .ok _ s => s
  | .fault _ cause level pte =>
    ({ s with answers := s.answers ++ [{ req := r, fault := some (cause, level, pte), value := 0 }] } : State).post (.pageFaultAnswer r.k)
  | .trap _ _ _ s => s
  | .stall => s

/-- TRANSLATED_ACCESS (R289): an access of a context in translated memory reaches its slice. An atomic stores its data (R321). -/
def execTranslatedAccess (r : AccessReq) (s : State) : Host.Outcome State Fault Refusal :=
  let w := s.who r.k
  if winTag r.va ≠ 0 || !s.working (dieOf w.core) then .next s
  else match r.kind with
    | .load => .next (s.answered r (s.plainRead w .load r.va r.size))
    | .store => .next (s.answered r (s.plainStore w r.va r.size (r.data % 2 ^ (8 * r.size))))
    | .atomic => .next (s.answered r (s.atomic w .atomic r.va fun _ => some (r.data % 2 ^ 64)))
    | .fill => .next (s.missFill w r.va)

/-- PAGE_WALK (R287, R290): a walk that ends in a leaf leaves the translation in the die's slices. -/
def execPageWalk (die asid va : Nat) (s : State) : Host.Outcome State Fault Refusal :=
  let d := s.die die
  if !s.working die || (d.tlb.any fun t => t.serves asid va) then .next s
  else match s.walk die asid va with
    | .leaf pte at_ level =>
      let t : Tlb := { slice := sliceHash asid va, asid := if pteG pte then none else some asid, va := va / pageSize level * pageSize level, size := pageSize level,
                       pte := pte, pteAt := at_ }
      .next (s.modDie die fun x => { x with tlb := t :: x.tlb })
    | _ => .next s

/-- The first answer for a context, and the others. -/
def takeAnswer (k : Nat) : List Answer → Option (Answer × List Answer)
  | [] => none
  | a :: as => if a.req.k = k then some (a, as) else (takeAnswer k as).map fun x => (x.1, a :: x.2)

/-- What an access of a slice asks for, as a fault names it. -/
def accOf : AccessKind → Acc
  | .load | .fill => .load
  | .store => .store
  | .atomic => .atomic

/-- PAGE_FAULT_ANSWER (R293): the load-store unit posts the fault, or joins the one outstanding. A service core posts none (R297). -/
def execPageFaultAnswer (k : Nat) (s : State) : Host.Outcome State Fault Refusal :=
  match takeAnswer k s.answers with
  | none => .next s
  | some (a, rest) =>
    let s : State := { s with answers := rest }
    match a.fault with
    | some (cause, level, pte) =>
      if (s.ctx k).sup || (s.ctx k).state == .free then .next s
      else .next (s.pageFault k (accOf a.req.kind) a.req.va cause level pte)
    | none => .next s

/-! ### Lines (R300 to R302) -/

/-- RENEWAL (R302): the home renews the copy that the die of context k keeps of a guest line. A line of which the die keeps none, as of a host-bias
page (R318), comes by the access that reads it. -/
def execRenewal (k pa : Nat) (s : State) : Host.Outcome State Fault Refusal :=
  let d := dieOf (coreOf k)
  let l := pa / 64
  let home := homeDie pa
  if !s.local_ pa || home == d || !s.working d || !s.working home || ((s.die d).guest.find l).isNone || ((s.die d).owned.find l).isSome then .next s
  else
    let (s, p) := s.renew d l (s.ctx k).ltime
    .next (s.raisePts k p)

/-- WRITE_BACK (R300, R302): the owning die writes a line to its home, by its own choice. -/
def execWriteBack (die line : Nat) (s : State) : Host.Outcome State Fault Refusal := .next (s.writeBack die line)

/-- RECALL (R300): the home recalls a line from the die that owns it. -/
def execRecallLine (line : Nat) (s : State) : Host.Outcome State Fault Refusal := .next (s.recall line)

/-- OWNED_LINE_TIMEOUT (R300): 1 us after the first store since the last write-back the line goes home. -/
def execOwnedLineTimeout (die line : Nat) (s : State) : Host.Outcome State Fault Refusal :=
  match (s.die die).owned.find line with
  | some o => if o.dirty then .next ((s.runTo die (o.since + 1000 * 65536)).writeBack die line) else .next s
  | none => .next s

/-! ### Logical time (R303, R305) -/

/-- How far a stamp lags another, where it lies behind it in serial-number order. -/
def stampLag (p h : Nat) : Nat := if serialGe 24 h p then (h + 2 ^ 24 - p % 2 ^ 24) % 2 ^ 24 else 0

/-- A context's pts after a tick (R303, R305). -/
def tickPts (h p : Nat) : Nat := serialMax 24 ((p + 1) % 2 ^ 24) ((h + (2 ^ 24 - 2 ^ 22)) % 2 ^ 24)

/-- Die d discards every guest copy, at its slices and in its L1s, that lags its home time (R305), after writing back what is dirty of it (R298). -/
def State.discardGuests (s : State) (d : Nat) : State :=
  let h := (s.die d).home
  let lags := fun (y : L1Line) => y.guest && decide (2 ^ 22 ≤ stampLag y.rts h)
  let s := ((s.cores.map (·.1)).filter fun c => dieOf c == d).foldl (fun s c => s.spillIf c fun _ y => lags y) s
  let s := s.modDie d fun x => { x with guest := x.guest.filter fun e => decide (stampLag e.2.rts h < 2 ^ 22) }
  { s with cores := s.cores.map fun (e : Nat × Core) =>
      if dieOf e.1 = d then (e.1, { e.2 with l1 := e.2.l1.filter fun y => !lags y.2 }) else e }

/-- Die d's home visits every line that it homes (R305): stamps whose wts lags H by 2^22 or more become H. -/
def State.visitLines (s : State) (d : Nat) : State :=
  let h := (s.die d).home
  let fresh := fun (w : Nat) => decide (stampLag w h < 2 ^ 22)
  let moved := s.stamps.map fun (e : Nat × (Nat × Nat)) => if homeDie (e.1 * 64) = d && !fresh e.2.1 then (e.1, (h, h)) else e
  ({ s with stamps := moved } : State).modDie d fun x => { x with floor := if fresh x.floor then x.floor else h }

/-- Die d visits the shards that it homes, like lines (R305, R427). -/
def State.visitShards (s : State) (d : Nat) : State :=
  let h := (s.die d).home
  { s with regions := s.regions.map fun (e : Nat × Region) =>
      (e.1, { e.2 with stamps := e.2.stamps.map fun (t : Nat × (Nat × Nat)) =>
        let x := s.shardAt ((s.launch (e.1 / 64)).clusters.headD 0 * 128) e.1 e.2 t.1
        if x.cl / 32 = d && decide (2 ^ 22 ≤ stampLag t.2.1 h) then (t.1, (h, h)) else t }) }

/-- LTIME_TICK (R303, R305): the clock runs to the die's next tick; H and every pts of the die move on, the home visits its lines (log 86) and shards and
the slices discard the copies that lag. -/
def execLtimeTick (die : Nat) (s : State) : Host.Outcome State Fault Refusal :=
  let d := s.die die
  if d.power = .d3 || d.lost then .next s
  else
    let s := s.runTo die (d.nextTick * 65536)
    let h := (d.home + 1) % 2 ^ 24
    let s := s.modDie die fun x => { x with home := h, nextTick := d.nextTick + d.ltperiod }
    let moved := s.ctxs.map fun (e : Nat × Ctx) => if dieOf (coreOf e.1) = die then (e.1, { e.2 with ltime := tickPts h e.2.ltime }) else e
    .next (((({ s with ctxs := moved } : State).visitLines die).visitShards die).discardGuests die)

/-- LINE_TIMESTAMP_VISIT (R305): the home visits a line; the dies discard copies that lag. -/
def execLineTimestampVisit (line : Nat) (s : State) : Host.Outcome State Fault Refusal :=
  let pa := line * 64
  if !s.local_ pa then .next s
  else
    let h := (s.die (homeDie pa)).home
    let s : State := if 2 ^ 22 ≤ stampLag (s.lineStamps line).1 h then { s with stamps := s.stamps.put line (h, h) } else s
    .next ((List.range 8).foldl State.discardGuests s)

/-! ### Results and waits -/

/-- RESULT_ARRIVAL (R56, R60): the i-th outstanding instruction of context k tries for its result. One that has faulted is found to have: issue
stops, whatever is left of its window. -/
def execResultArrival (k i : Nat) (s : State) : Host.Outcome State Fault Refusal :=
  match (s.ctx k).win.outst[i]? with
  | some o => if o.faulted then .next (s.faultFound k o.pos) else .next (s.retryOne k o)
  | none => .next s

/-- A parked `SYNC` is woken: its watch is spent (R252). -/
def Ctx.syncWakes (c : Ctx) : Ctx :=
  { c with win := { c.win with outst := c.win.outst.map fun o => match o.res with
      | .pend .sync g w => if (o.watch).isSome then { o with res := .pend .sync g { w with aux := syncWoken } } else o
      | _ => o } }

/-- SYNC_WAKE (R252): the home of the counter wakes a parked `SYNC`, which reads it again. -/
def execSyncWake (k : Nat) (s : State) : Host.Outcome State Fault Refusal := .next ((s.modCtx k Ctx.syncWakes).settleOf k Instr.isSync)

/-- SYNC_POLL (R252): 256 ns have passed, and a `SYNC` without a watch reads its counter again. -/
def execSyncPoll (k : Nat) (s : State) : Host.Outcome State Fault Refusal := .next (s.timeout k Instr.isSync)

/-- MBXW_TIMEOUT (R218). -/
def execMbxwTimeout (k : Nat) (s : State) : Host.Outcome State Fault Refusal := .next (s.timeout k Instr.isMbxw)

/-- CTRW_TIMEOUT (R349). -/
def execCtrwTimeout (k : Nat) (s : State) : Host.Outcome State Fault Refusal := .next (s.timeout k Instr.isCtrw)

/-- WFI_TIMEOUT (R505). -/
def execWfiTimeout (k : Nat) (s : State) : Host.Outcome State Fault Refusal := .next (s.timeout k Instr.isWfi)

/-- GRID_LOAD_TIMEOUT (R453). -/
def execGridLoadTimeout (k : Nat) (s : State) : Host.Outcome State Fault Refusal := .next (s.timeout k Instr.isLdg)

/-- GWAIT_TIMEOUT (R457). -/
def execGwaitTimeout (k : Nat) (s : State) : Host.Outcome State Fault Refusal := .next (s.timeout k Instr.isGwait)

/-- INDEX_ENGINE_EVENT (R414): the index engine takes up the sparse operations of context k that wait for it. -/
def execIndexEngineEvent (k : Nat) (s : State) : Host.Outcome State Fault Refusal := .next (s.settleOf k fun i => i.accesses == 2)

/-- PART_HOME_EVENT (R450): the part home takes up the grid operations of context k that wait for it. -/
def execPartHomeEvent (k : Nat) (s : State) : Host.Outcome State Fault Refusal := .next (s.settleOf k fun i => i.accesses == 3)

end Machine

end Sys2Proof
end

