-- ==== Sys2Proof/Machine/Command.lean ====
section
/-! DEFINITION. What the host commands share (R491): which commands the package takes, one after the other, and the free fill of what a
record's layout leaves open (log 11). -/

namespace Sys2Proof.Machine

/-- A host command is under way: a save or a restore that the host asked for, or a flip that waits for its write-back (R491). -/
def State.commandBusy (s : State) : Bool :=
  (s.launches.any fun e => match e.2.cmd with
    | some seq => decide (seq < 2 ^ 32)
    | none => false) || s.flips.any fun f => f.ctx.isNone

/-- A command as the package takes it (R491, R521, R524): from the given step of the bring-up on, in ring order, and during a trip only those
that may end it; any other is rejected then. `e` is the command's own event, by which it waits for its turn. -/
def State.command (s : State) (e : Event) (seq slot ready : Nat) (inTrip : Bool) (f : State → State) : Host.Outcome State Fault Refusal :=
  if s.pkg.bringup < ready then .next s
  else if s.commandBusy then .next (s.post e)
  else if s.pkg.trip.isSome && !inTrip then .next (s.commandDone seq slot 1)
  else .next (f s)

/-- A command that names no launch is done, or rejected. -/
def State.done (s : State) (seq : Nat) : State := s.commandDone seq 0xFFFF 0
def State.rejected (s : State) (seq : Nat) : State := s.commandDone seq 0xFFFF 1

/-- Steps of the bring-up that have ended when commands are accepted, and when the host may name the package and its routes (R524). -/
def readyForCommands : Nat := 6
def readyForNames : Nat := 4

/-- Writes numbers at offsets from a base: offset, bytes, value. -/
def Mem.puts (m : Mem) (base : Nat) (l : List (Nat × Nat × Nat)) : Mem := l.foldl (fun m x => m.writeN (base + x.1) x.2.1 x.2.2) m

/-- Writes n doublewords that the manual gives no value for, from an address on. -/
def State.freeFill (s : State) (base : Nat) : Nat → State
  | 0 => s
  | n + 1 =>
    let (w, s) := s.free
    ({ s with mem := s.mem.writeN (base + 8 * n) 8 w.toNat } : State).freeFill base n

end Sys2Proof.Machine
end

