-- ==== Sys2Proof/Machine/Save.lean ====
section
/-! DEFINITION. Pre-emption (R507 to R513): the steps of a save, the image it writes to the save area, the tiles that stay in the pools until
a pool is needed (R401), and the restore (R402, R513). -/

namespace Sys2Proof.Machine

/-! ### The save area (R508, R509) -/

/-- Bytes of a cluster's part of a save area. -/
def clusterBytes : Nat := 0x1204000

/-- The core record of core c in the save area of a launch (R508). -/
def recordAt (l : Launch) (area c : Nat) : Nat :=
  area + 0x10000 + (l.clusters.idxOf (clusterOf c)) * clusterBytes + 0x104000 + c % 16 * 0x110000

/-- The dirty tiles of a core, by number. -/
def dirtyTiles (x : Core) : List Nat := (List.range 32).filter fun n => bit x.dirty n

/-- Writes a core's dirty tiles to its record, tile n at n * 8 KiB, and the dirty map (R401). -/
def State.writeTiles (s : State) (l : Launch) (area c : Nat) (x : Core) : State :=
  let at_ := recordAt l area c
  let s := (s.dropPage (at_ + 0x10000) 0x40000).dropPage (at_ + 0x40) 0x40
  let m := (dirtyTiles x).foldl (fun m n => m.blit (at_ + 0x10000 + n * 8192) (Tab.get [] x.tiles n) 0 8192) s.mem
  { s with mem := m.writeN (at_ + 0x68) 8 x.dirty }

/-- The tiles that a saved launch left in the pool of core c go to its save area, once (R401). Those of a launch that firmware has saved have
no area that the manual names (log 33). -/
def State.flushTilesOf (s : State) (slot c : Nat) : State :=
  let l := s.launch slot
  match l.saved with
  | none => s
  | some v => match v.cores.find c with
    | none => s
    | some x =>
      if v.moved.contains c || !(l.clusters.contains (clusterOf c)) then s
      else
        let s := match l.area with
          | some area => s.writeTiles l area c x
          | none => s
        s.modLaunch slot fun l => { l with saved := l.saved.map fun v => { v with moved := c :: v.moved } }

/-- The pool of core c is needed: what saved launches left in it goes to their save areas (R401). -/
def State.flushTiles (s : State) (c : Nat) : State :=
  (s.launches.filter fun e => e.2.state == .saved).foldl (fun s e => s.flushTilesOf e.1 c) s

/-! ### The image of a context (R510, R511) -/

/-- The code of a context state (R203, R510). -/
def CtxState.code : CtxState → Nat
  | .free => 0 | .running => 1 | .parked => 2 | .blocked => 3 | .following => 4

/-- The first place of a context that is not done, and its address (R510). -/
def Ctx.resumeAt (c : Ctx) : Nat × Word :=
  match c.win.outst.find? fun o => o.pending || o.faulted with
  | some o => (o.pos, o.pc)
  | none => (c.win.seq, c.pc)

/-- Held results: number in the order of R511 (scalars from 0, vectors from 32, masks from 64, tiles from 72), value, instructions left. -/
def Ctx.heldResults (c : Ctx) : List (Nat × Wr × Nat) :=
  let p := c.resumeAt.1
  c.win.outst.flatMap fun o => o.writes.map fun x =>
    ((match x with
      | .s r _ => r.toNat
      | .v r _ => 32 + r.toNat
      | .k r _ => 64 + r.toNat
      | .tile n _ _ => 72 + n), x, o.pos + o.la + 1 - p)

/-- The bitmap of the held results with numbers from `first`. -/
def heldMap (l : List (Nat × Wr × Nat)) (first n : Nat) : Nat :=
  (List.range n).foldl (fun m i => if l.any fun x => x.1 == first + i then m + 2 ^ i else m) 0

/-- The nibbles of R511. -/
def heldLeft (l : List (Nat × Wr × Nat)) : Nat :=
  (l.filter fun x => x.1 != 0 && x.1 != 64).foldl (fun m x => setBits m (4 * x.1) 4 (min x.2.2 15)) 0

/-- The register block image of a context but for its wait record (R510). -/
def Ctx.image (c : Ctx) : List (Nat × Nat × Nat) :=
  let g := c.regs
  let (p, pc) := c.resumeAt
  let held := c.heldResults
  let csr := [c.fflags, c.vstat, BitVec.ofNat 64 c.ltime, c.tvec, c.tcause, c.tval, c.tepc, c.xid, c.uiepc, c.uien, c.frame,
    BitVec.ofNat 64 c.asid, c.mbx, BitVec.ofNat 64 c.hold, BitVec.ofNat 64 c.depth, c.svec, c.scause, c.sval, c.sepc]
  ((List.range 32).map fun n => (8 * n, 8, (g.rs (BitVec.ofNat 5 n)).toNat)) ++
    ((List.range 32).map fun n => (0x100 + 64 * n, 64, (g.rv (BitVec.ofNat 5 n)).toNat)) ++
    ((List.range 8).map fun n => (0x900 + 8 * n, 8, if n = 0 then 0 else (g.rk (BitVec.ofNat 3 n)).toNat)) ++
    [(0x940, 8, pc.toNat),
     (0x948, 8, skipMask (c.win.doneAfter p) p + ofBool (c.state == .parked) * 2 ^ 15 + c.state.code * 2 ^ 16 + c.gen % 256 * 2 ^ 24)] ++
    ((List.range 19).map fun n => (0x950 + 8 * n, 8, (csr.getD n 0).toNat)) ++
    [(0xA00, 8, heldMap held 0 32), (0xA08, 8, heldMap held 32 32), (0xA10, 8, heldMap held 64 8), (0xA18, 8, heldMap held 72 32),
     (0xA20, 52, heldLeft held), (0xA54, 0x4AC, 0)] ++
    ((List.range 64).map fun b => (0xF00 + 4 * b, 4, Tab.get 0 c.arr b))

/-- The held-result image of a context (R511). -/
def Ctx.heldImage (c : Ctx) : List (Nat × Nat × Nat) := c.heldResults.filterMap fun x => match x.2.1 with
  | .s r v => some (8 * r.toNat, 8, v.toNat)
  | .v r v => some (0x100 + 64 * r.toNat, 64, v.toNat)
  | .k r v => some (0x900 + 8 * r.toNat, 8, v.toNat)
  | .tile .. => none

/-- The tiles that a context's open windows hold (R511). -/
def Ctx.heldTiles (c : Ctx) : List (Nat × Mem) := c.heldResults.filterMap fun x => match x.2.1 with
  | .tile n m _ => some (n, m)
  | _ => none

/-- Writes the records of context k at its place in its core's record. What the manual lays no layout down for is a free value: the wait
record of a context that waits. -/
def State.saveCtx (s : State) (at_ k : Nat) : State :=
  let c := s.ctx k
  let i := k % 8
  let s := { s with mem := (s.mem.puts (at_ + 0x3000 + i * 4096) c.image).puts (at_ + 0xB000 + i * 0xA00) c.heldImage }
  let s := { s with mem := c.heldTiles.foldl (fun m t => m.blit (at_ + 0x110000 - (t.1 + 1) * 8192) t.2 0 8192) s.mem }
  if c.state = .parked || c.state = .blocked then s.freeFill (at_ + 0x3000 + i * 4096 + 0x9E8) 3 else s

/-- Writes the record of core c (R509). The counters, the cursors, the handler table, a proposal and a format context that is not set have no
layout in the manual: they are free values. -/
def State.saveCore (s : State) (at_ c : Nat) : State :=
  let x := s.core c
  let head := [x.pword, x.geom, x.stealcfg, x.hmask, x.bounces, x.pagermap, x.pfiss, x.pfuse, x.pflate, x.pfdrop, x.lease.n]
  let s := (s.freeFill (at_ + 0x58) 2).freeFill (at_ + 0x70) 1
  let s := ((s.freeFill (at_ + 0x1000) 512).freeFill (at_ + 0x2000) 256).freeFill (at_ + 0x2800) 128
  let put := fun (m : Mem) (o : Nat) (v : Option Nat) => match v with
    | some w => m.writeN (at_ + o) 8 w
    | none => m
  let m := s.mem.puts at_ (((List.range 11).map fun n => (8 * n, 8, head.getD n 0)) ++ [(0x68, 8, x.dirty)])
  let m := put (put m 0x58 x.fmt) 0x60 x.prog
  let m := (m.blit (at_ + 0x50000) x.share 0 (8192 * pwShared x.pword)).blit (at_ + 0x90000) x.scratch 0 (scratchSize x.pword)
  ((List.range (pwBacked x.pword)).map (· + c * 8)).foldl (fun s k => s.saveCtx at_ k) { s with mem := m }

/-- Writes the cluster part of a save area (R508): the READY slots' contents; its barrier records and slot table, whose places in their
16 KiB the manual does not give, are free values. -/
def State.saveCluster (s : State) (at_ n : Nat) : State :=
  let s := s.freeFill at_ 2048
  let ready := (s.cluster n).slots.filter fun e => e.2.state == .ready
  { s with mem := ready.foldl (fun m e => match e.2.latest with
      | some f => m.blit (at_ + 0x4000 + e.1 * 16384) f.data 0 16384
      | none => m) s.mem }

/-- Writes the records of a launch to its save area (R508 to R511). -/
def State.writeImage (s : State) (l : Launch) (area : Nat) : State :=
  let s := s.dropPage area (0x10000 + l.clusters.length * clusterBytes)
  let s := s.freeFill area 8192
  let s := l.clusters.foldl (fun s n => s.saveCluster (area + 0x10000 + l.clusters.idxOf n * clusterBytes) n) s
  (s.coresOf l).foldl (fun s c => s.saveCore (recordAt l area c) c) s

/-! ### The steps of a save (R512) -/

/-- The contexts of a launch. -/
def State.ctxsOf (s : State) (l : Launch) : List Nat := (s.coresOf l).flatMap contextsOf

/-- The command of a waiting instruction stands in its core's queue and has not started. -/
def Core.unstarted (x : Core) (w : Wait) : Bool := match w.aux with
  | [1, id] => x.queue.any fun q => q.id == id && !q.started
  | _ => false

/-- A scatter in its write phase (R196). -/
def Outst.writesElements (o : Outst) : Bool := match o.res with
  | .pend (.vscatter ..) _ { aux := 1 :: _ :: _, .. } => true
  | _ => false

/-- Step 2 cancels an instruction, to be issued again (R512, R401, R463, R202): one that has faulted, one that has not begun, a waiting `LDG`, a
gather, a scatter in its check phase, a parked `MLEASE`, a leased command that has not started. -/
def saveCancels (x : Core) (o : Outst) : Bool := match o.res with
  | .trap .. => true
  | .pend i _ w => w.how != .blocked && !o.writesElements && (match i with
    | .ldg .. | .vgather .. | .vscatter .. | .mlease .. => true
    | .copy .. | .copym .. | .get .. | .put .. | .dense .. | .sdecl .. | .gdecl .. | .sld .. | .sst .. | .sadd .. | .sstat .. | .siter ..
    | .snext .. => w.how == .running
    | .mma .. | .mrun .. | .mstc .. | .mzero .. | .mldc .. | .mfmt .. | .mprog .. => (w.how == .running && w.aux.isEmpty) || x.unstarted w
    | _ => w.how == .running && w.aux.isEmpty)
  | .ok _ => false

/-- A gather that a page fault blocks keeps nothing that it has read: it is made again whole after the reply (R202). -/
def Ctx.wholeGathers (c : Ctx) : Ctx :=
  { c with win := { c.win with outst := c.win.outst.map fun o => match o.res with
      | .pend (.vgather l t k d a b) g w => { o with res := .pend (.vgather l t k d a b) g { w with aux := w.aux.take 1 } }
      | _ => o } }

/-- An outstanding instruction holds no stop of its context (R512): its result is held, it is parked or blocked, or it is a `GWAIT`, a `GSTEP` that
has committed or a scatter that writes its elements. -/
def saveKeeps (o : Outst) : Bool := match o.res with
  | .pend i _ w => w.how != .running || o.writesElements || (match i, w.aux with
    | .gwait .., _ => true
    | .gstep .., 2 :: _ => true
    | _, _ => false)
  | _ => true

/-- A context leaves its hoist, which dissolves: it goes on at its own PC or its shadow PC (R230). -/
def State.dissolve (s : State) (k : Nat) : State :=
  (if (s.ctx k).member then s.leave k (s.ctx k).pc else s).modCtx k fun c => { c with leader := none, port := [], latch := none }

/-- Context k stops (R512 step 2). -/
def State.stopCtx (s : State) (k : Nat) : State :=
  if (s.ctx k).state = .free then s
  else
    let x := s.core (coreOf k)
    ((s.dissolve k).modCtx k fun c => (c.cancel (saveCancels x)).wholeGathers).setWaitState k

/-- The queue of a core after its unstarted commands are cancelled: what has started stays, and the place of an instruction that is blocked. -/
def State.stopQueue (s : State) (c : Nat) : State :=
  let kept := (contextsOf c).flatMap fun k => (s.ctx k).win.outst.filterMap fun o => match o.res with
    | .pend _ _ { how := .blocked, .. } => some k
    | _ => none
  let gone := (s.core c).queue.filter fun q => !q.started && !(q.op == .place && kept.contains q.ctx)
  let s := (gone.filter fun q => q.op == .mma || q.op == .mrun).foldl (fun s q => s.unread c q) s
  s.modCore c fun x => { x with queue := x.queue.filter fun q => !gone.any fun g => g.id == q.id }

/-- A core's lease is revoked at a command boundary (R401). -/
def State.revoke (s : State) (c : Nat) : State :=
  let x := s.core c
  if x.lease.state = .none || x.queue.any (·.started) then s
  else (s.modCore c fun x => { x with lease := { x.lease with state := .spent } }).post (.leaseGrant (clusterOf c))

/-- Every context of a launch has stopped, and no lease is held. -/
def State.quiet (s : State) (l : Launch) : Bool :=
  ((s.ctxsOf l).all fun k => (s.ctx k).win.outst.all saveKeeps) &&
    (s.coresOf l).all fun c => !((s.core c).queue.any (·.started)) && (s.core c).lease.state != .held && (s.core c).lease.state != .wait

/-- Step 2 is made until every context has stopped. -/
def State.stopLaunch (s : State) (l : Launch) : State :=
  let s := (s.ctxsOf l).foldl State.stopCtx s
  (s.coresOf l).foldl (fun s c => (s.stopQueue c).revoke c) s

/-- Transfers, stores, fills and write phases of scatters of a launch have ended (R512 step 3). -/
def State.drained (s : State) (l : Launch) : Bool :=
  let cs := s.coresOf l
  (cs.all fun c => (s.core c).xfers.isEmpty && (s.core c).storing.isEmpty) && ((s.ctxsOf l).all fun k => !(s.ctx k).win.outst.any Outst.writesElements) &&
    l.clusters.all fun n => (s.cluster n).slots.all fun e => !cs.contains e.2.owner || e.2.fills.all (·.ended)

/-- A record's deadlines become what is left of them, or are counted from now again. -/
def Outst.mapDeadline (f : Nat → Nat) (o : Outst) : Outst := match o.res with
  | .pend i g w => { o with res := .pend i g { w with deadline := w.deadline.map f } }
  | _ => o
def Ctx.mapDeadline (f : Nat → Nat) (c : Ctx) : Ctx := { c with win := { c.win with outst := c.win.outst.map (Outst.mapDeadline f) } }
def Core.mapDeadline (f : Nat → Nat) (x : Core) : Core :=
  { x with proposal := x.proposal.map fun p => { p with deadline := p.deadline.map f } }

/-- What the save keeps of a launch. -/
def State.record (s : State) (l : Launch) : Saved :=
  let left := fun c t => t - s.now (dieOf c)
  let cs := s.coresOf l
  { ctxs := (s.ctxsOf l).map fun k => (k, (s.ctx k).mapDeadline (left (coreOf k)))
    cores := cs.map fun c => (c, (s.core c).mapDeadline (left c))
    barriers := l.clusters.map fun n => (n, (s.cluster n).barriers)
    slots := l.clusters.map fun n => (n, (s.cluster n).slots.filter fun e => cs.contains e.2.owner)
    replies := [], arrivals := l.late, moved := [] }

/-- Step 7: the launch is SAVED and lets go of its clusters; one that firmware has saved is to be restored (R487). -/
def State.saved (s : State) (slot : Nat) (l : Launch) : State :=
  let v := s.record l
  let s := s.clearCores l
  let host := (l.cmd.map fun seq => decide (seq < 2 ^ 32)).getD false
  let s := s.modLaunch slot fun l => { l with state := .saved, saved := some v, save := none, late := [], cmd := none, wanted := !host }
  let s := s.post .queueBind
  match l.cmd with
  | some seq => if seq < 2 ^ 32 then s.commandDone seq slot 0 else s
  | none => s

/-- The launch moves to a step of its save. -/
def State.toStep (s : State) (slot n : Nat) : State := s.modLaunch slot fun l => { l with save := some n }

/-- Every write of a launch's contexts has reached its home and has had its token (R332, R474): no later token is owed to one of them. -/
def State.settled (s : State) (l : Launch) : Bool × State :=
  (s.ctxsOf l).foldl (fun x k => let (done, s) := x.2.released k; (x.1 && done, s)) (true, s)

/-- Step 6 spills every deque of a launch to its ring, in order (R260, R509); a launch that such a spill ends has none. -/
def State.spillDeques (s : State) (l : Launch) : State :=
  (s.coresOf l).foldl (fun s c => if (s.core c).slot.isNone then s else s.spillDeque c (s.core c).hardware) s
def State.dequesSpilled (s : State) (l : Launch) : Bool := (s.coresOf l).all fun c => (s.core c).hardware == 0 && (s.core c).slot.isSome

/-- One step of a save, if what it waits for has come (R512). -/
def State.saveStep (s : State) (slot : Nat) (l : Launch) : Nat → State
  | 1 => if l.clusters.any fun n => (s.cluster n).barriers.any fun e => e.2.releasing then s else (s.stopLaunch l).toStep slot 2
  | 2 => if s.quiet l then s.toStep slot 3 else s.stopLaunch l
  | 3 => if s.drained l then s.toStep slot 4 else s
  | 4 =>
    if (s.coresOf l).any fun c => !(s.core c).claims.isEmpty then s
    else ((s.ctxsOf l).foldl (fun s k => s.unlock (coreOf k) (pinOf k)) s).toStep slot 5
  | 5 =>
    let s := s.spillLaunch slot
    ((s.coresOf l).foldl (fun s c => (s.spillIf c fun _ _ => true).modCore c fun x => { x with l1 := [], coming := [], brought := [] }) s).toStep slot 6
  | _ => match s.settled l with
    | (false, s) => s
    | (true, s) =>
      let s := s.spillDeques l
      if s.dequesSpilled l then (match l.area with
        | some area => s.writeImage l area
        | none => s).saved slot l
      else s

/-- The use that a launch has made of its LIMIT up to now (R485). -/
def State.usedNow (s : State) (l : Launch) : Nat := l.used + match l.began with
  | some t => s.now 0 - t
  | none => 0

/-- Step 1 of a save begins (R512): steals and handlers stop, and so does the count of the LIMIT. -/
def State.beginSave (s : State) (slot seq : Nat) (area : Option Nat) : State :=
  let l := s.launch slot
  let s := (s.coresOf l).foldl (fun s c => s.modCore c fun x => { x with saving := true }) s
  s.modLaunch slot fun l => { l with save := some 1, area := area, cmd := some seq, used := s.usedNow l, began := none }

/-- The number under which firmware pre-empts for a starving queue (R487): no command of the host has it. -/
def firmwareSeq : Nat := 2 ^ 32

/-- PREEMPT (R507, R512): it is checked, begun, and then goes on step by step; the launch's end ends it. -/
def execPreempt (seq slot area len : Nat) (s : State) : Host.Outcome State Fault Refusal :=
  let again := Event.preempt seq slot area len
  let l := s.launch slot
  match l.save with
  | some n =>
    if l.cmd = some seq then
      let s := s.saveStep slot l n
      .next (if ((s.launch slot).save).isSome then s.post again else s)
    else .next (s.post again)
  | none =>
    if seq = firmwareSeq then .next s
    else s.command again seq (s.named slot) readyForCommands false fun s =>
      if 1024 ≤ slot || l.state != .running || area % 65536 != 0 || decide (len < 0x10000 + l.clusters.length * clusterBytes) then
        s.commandDone seq (s.named slot) 1
      else (s.beginSave slot seq (some area)).post again

/-! ### The restore (R402, R513) -/

/-- A core of a saved launch as the restore puts it back: its tiles where they stayed, or read back from the save area, dirty ones dirty and
clean ones clean (R402); its lease SPENT; what belongs to the die and its rings as it stands now. -/
def State.restoredCore (s : State) (l : Launch) (v : Saved) (c : Nat) (x : Core) : Core :=
  let now := s.core c
  let tiles := match l.area with
    | some area =>
      if v.moved.contains c then (dirtyTiles x).map fun n => (n, s.mem.slice (recordAt l area c + 0x10000 + n * 8192) 8192 0) else x.tiles
    | none => x.tiles
  { x.mapDeadline (· + s.now (dieOf c)) with
    tiles := tiles, l1 := [], coming := [], brought := [], saving := false, steal := StealEngine.reset, claims := [], faultCount := now.faultCount, scSeq := now.scSeq,
    lease := if x.lease.state = .none then x.lease else { x.lease with state := .spent, left := 0 } }

/-- A parked `SYNC` reads its counter and arms its watch anew (R513). -/
def Ctx.rearmed (c : Ctx) : Ctx :=
  { c with win := { c.win with outst := c.win.outst.map fun o => match o.res with
      | .pend .sync g w => if w.how = .parked then { o with res := .pend .sync g { w with aux := syncWoken, deadline := none } } else o
      | _ => o } }

/-- A context of a saved launch as the restore puts it back: its pts no further than 2^22 behind its die's H (R332), its timeouts from now,
a parked `WFI` complete (R505). -/
def State.restoredCtx (s : State) (k : Nat) (c : Ctx) : Ctx :=
  let d := dieOf (coreOf k)
  let low := ((s.die d).home + 2 ^ 24 - 2 ^ 22) % 2 ^ 24
  { (c.mapDeadline (· + s.now d)).wakeWfi.rearmed with ltime := serialMax 24 c.ltime low }

/-- The pins of a restored context's landed tiles are registered again (R260). -/
def State.pinAgain (s : State) (asid k : Nat) : State :=
  let c := coreOf k
  let ranges := pinRanges s c asid (s.ctx k).landed
  if ranges.isEmpty then s else s.askLocks (dieOf c) { core := c, xfer := pinOf k, ranges := ranges, reqs := [] }

/-- The events that set a restored core going. -/
def State.wakeCore (s : State) (c : Nat) : State :=
  (contextsOf c).foldl (fun s k => (s.advance k).post (.completionInterrupt k)) (((s.post (.handlerStart c)).post (.stealBackoff c)).post (.leasedCommandStart (clusterOf c)))

/-- A fault reply that came while the launch was saved is applied (R296). -/
def State.lateReply (s : State) (r : Nat × Nat × Nat) : State :=
  if (s.ctx r.1).awaits { thread := r.2.1, code := r.2.2 } then
    (s.modCtx r.1 fun c => { c with mbx := c.mbx &&& ~~~(0x8000000000000000 : Word) }).replied r.1 r.2.2
  else s

/-- A message or bounce that came while the launch was saved arrives (R231). -/
def State.lateArrival (s : State) (m : Msg) : State :=
  if m.reason = 0 then s.arrive (dstCore m.dst) m else s.arriveBounce (dstCore m.dst) m

/-- Puts a saved launch back onto its clusters (R513). -/
def State.restoreLaunch (s : State) (slot : Nat) : State :=
  let l := s.launch slot
  match l.saved with
  | none => s
  | some v =>
    let s := (s.coresOf l).foldl (fun s c => (s.launches.filter fun e => e.2.state == .saved && e.1 != slot).foldl (fun s e => s.flushTilesOf e.1 c) s) s
    let s := v.cores.foldl (fun s e => s.setCore e.1 (s.restoredCore l v e.1 e.2)) s
    let s := v.ctxs.foldl (fun s e => s.setCtx e.1 (s.restoredCtx e.1 e.2)) s
    let s := v.barriers.foldl (fun s e => s.modCluster e.1 fun x => { x with barriers := e.2 }) s
    let s := v.slots.foldl (fun s e => s.modCluster e.1 fun x => { x with slots := e.2 ++ x.slots.filter fun (y : Nat × Slot) => !e.2.any fun z => z.1 == y.1 }) s
    let s := s.modLaunch slot fun l =>
      { l with state := .running, saved := none, wanted := false, cmd := none, began := if l.rootReady then some (s.now 0) else none, starving := false }
    let s := (s.ctxsOf l).foldl (fun s k => s.pinAgain l.asid k) s
    let s := if l.rootReady then s else s.post (.rootDispatch slot)
    let s := v.arrivals.foldl State.lateArrival s
    let s := (s.coresOf l).foldl State.wakeCore s
    let s := v.replies.foldl State.lateReply s
    match l.cmd with
    | some seq => if seq < 2 ^ 32 then s.commandDone seq slot 0 else s
    | none => s

/-- RESTORE (R507, R513): the launch ranks as a pending entry of its queue, and firmware places it when its clusters are free. -/
def execRestore (seq slot : Nat) (s : State) : Host.Outcome State Fault Refusal :=
  s.command (.restore seq slot) seq (s.named slot) readyForCommands false fun s =>
    let l := s.launch slot
    if 1024 ≤ slot || l.state != .saved || l.clusters.any fun n => (s.die (n / 32)).lost then
      s.commandDone seq (s.named slot) 1
    else (s.modLaunch slot fun l => { l with wanted := true, cmd := some seq }).post .queueBind

end Sys2Proof.Machine
end

