-- ==== Sys2Proof/Machine/Queue.lean ====
section
/-! DEFINITION. User queues, launch placement and event queues (R480 to R490), and the host commands that act on them (R491). -/

namespace Sys2Proof.Machine

/-! ### Entries (R482, R483) -/

/-- Bytes of an entry. -/
def entryBytes (x : QueueSpec) : Nat := 64 * x.format

/-- The entry at the head of a queue's ring, read at its home as a snapshot. -/
def State.entryAt (s : State) (x : HQueue) : Nat × State :=
  let at_ := x.spec.ring + x.head % x.spec.entries * entryBytes x.spec
  let s := (List.range (entryBytes x.spec / 64 + 1)).foldl (fun s i => if s.local_ at_ then s.recall (at_ / 64 + i) else s) s
  (s.mem.readN at_ (entryBytes x.spec), s)

/-- Fields of an entry (R483). -/
def qeClusters (b : Nat) : Nat := blk b 2 2
def qeTag (b : Nat) : Nat := blk b 4 4
def qeCode (b : Nat) : Nat := blk b 8 8
def qePword (b : Nat) : Nat := blk b 16 4
def qeRows (b : Nat) : Nat := blk b 20 1
def qeCols (b : Nat) : Nat := blk b 21 1
def qeDies (b : Nat) : Nat := blk b 22 1
def qeRoot (b : Nat) : Nat := blk b 24 8
def qeEvq (b : Nat) : Nat := blk b 32 2
def qeDq (b : Nat) : Nat := blk b 64 2
def qeLimit (b : Nat) : Nat := blk b 68 4
def qeNotBefore (b : Nat) : Nat := blk b 72 8

/-- PHASE of an entry is the one that its pass through the ring asks for (R482). -/
def phaseOk (x : HQueue) (b : Nat) : Bool := bit (blk b 1 1) 7 == (x.head / x.spec.entries % 2 == 0)

/-- An event queue has been created. -/
def State.hasEvq (s : State) (n : Nat) : Bool := (s.evqs.find n).isSome

/-- The event queue of an entry: the one it names, or the queue's default, which also stands in for one that was never created. -/
def State.entryEvq (s : State) (x : HQueue) (b : Nat) : Nat :=
  if qeEvq b ≠ 0xFFFF && s.hasEvq (qeEvq b) then qeEvq b else x.spec.evq

/-- A die may be used under a DIEMASK: 0 means all. -/
def dieAllowed (mask d : Nat) : Bool := mask == 0 || bit mask d

/-- The reserve map of a die (R485): its cluster 31 by default. -/
def State.reserved (s : State) (d : Nat) : Nat := Tab.get (2 ^ 31) s.pkg.reserve d

/-- The clusters that a queue may use on the dies allowed (R483). -/
def State.capacity (s : State) (signal : Bool) (mask : Nat) : Nat :=
  ((List.range 8).filter (dieAllowed mask)).foldl (fun n d => n + (if signal then 32 else 32 - popcount 32 (s.reserved d))) 0

/-- A donation queue that an entry names is bound to another launch (R256). -/
def State.dqTaken (s : State) (mask : Nat) : Bool :=
  (List.range 16).any fun n => bit mask n && (Tab.get DonQueue.reset s.donq n).slot.isSome

/-- The checks of R483 in table order: the cause of the first that fails. -/
def State.entryFault (s : State) (x : HQueue) (b : Nat) : Option Nat :=
  let v2 := x.spec.format == 2
  (([(blk b 0 1 != x.spec.format, 0x01), (blk b 1 1 % 128 != 0, 0x01), (qeClusters b == 0 || decide (256 < qeClusters b), 0x01),
     (bit (qeCode b) 0, 0x03), (winTag (qeCode b) != 0, 0x04), (!pwValid (qePword b), 0x0F),
     (qeRows b == 0 || qeCols b == 0 || decide (16 < qeRows b) || decide (16 < qeCols b) || decide (16 < qeRows b * qeCols b), 0x01),
     (decide (s.capacity x.spec.signal (qeDies b) < qeClusters b), 0x10), (blk b 23 1 != 0, 0x01),
     (qeRoot b % 64 != 0, 0x03), (winTag (qeRoot b) != 0, 0x04), (qeEvq b != 0xFFFF && !s.hasEvq (qeEvq b), 0x10), (blk b 34 30 != 0, 0x01),
     (v2 && s.dqTaken (qeDq b), 0x10), (v2 && blk b 66 2 != 0, 0x01), (v2 && blk b 80 48 != 0, 0x01)] : List (Bool × Nat)).find? (·.1)).map (·.2)

/-- The state with a queue replaced. -/
def State.setQueue (s : State) (q : Nat) (x : HQueue) : State := { s with queues := s.queues.put q x }

/-- A LAUNCH_ERROR of no launch (R489). -/
def State.launchError (s : State) (evq tag code : Nat) : State :=
  s.hostEvent evq { type := 3, slot := 0xFFFF, tag := tag, info := code, payload := 0 }

/-- A queue goes into the error state (R481, R482). -/
def State.failQueue (s : State) (q : Nat) (x : HQueue) (tag : Nat) : State :=
  (s.setQueue q { x with failed := true, ready := none, rereadAt := none }).launchError x.spec.evq tag 0x01

/-- The head passes an entry, and the next is read (R484). -/
def HQueue.passed (x : HQueue) : HQueue := { x with head := (x.head + 1) % 2 ^ 32, ready := none, rereads := 0, rereadAt := none, notBefore := 0 }

/-- An entry that fails a check produces no launch (R483). -/
def State.failEntry (s : State) (q : Nat) (x : HQueue) (b code : Nat) : State :=
  ((s.setQueue q x.passed).launchError (s.entryEvq x b) (qeTag b) code).post (.queueEntryRead q)

/-- The time on die 0's clock that a word of `TCLK` names, as serial-number order tells it (R275); a word that lies behind names the past. -/
def State.timeNamed (s : State) (w : Nat) : Nat :=
  let gap := (w + 2 ^ 64 - s.now 0 % 2 ^ 64) % 2 ^ 64
  if gap < 2 ^ 63 then s.now 0 + gap else 0

/-- An entry whose PHASE is right is checked, and then waits to be bound. -/
def State.checkEntry (s : State) (q : Nat) (x : HQueue) (b : Nat) : State :=
  match s.entryFault x b with
  | some code => s.failEntry q x b code
  | none =>
    (s.setQueue q { x with ready := some b, rereads := 0, rereadAt := none, notBefore := if x.spec.format = 2 then s.timeNamed (qeNotBefore b) else 0 }).post .queueBind

/-- Firmware has an entry to read (R482). -/
def HQueue.unread (x : HQueue) : Bool := !x.failed && x.head != x.tail && x.ready.isNone

/-- One microsecond in units of `TCLK`. -/
def microsecond : Nat := 1000 * 65536

/-- QUEUE_ENTRY_READ (R482, R483). -/
def execQueueEntryRead (q : Nat) (s : State) : Host.Outcome State Fault Refusal :=
  match s.queues.find q with
  | none => .next s
  | some x =>
    if !x.unread || x.rereadAt.isSome then .next s
    else
      let (b, s) := s.entryAt x
      if phaseOk x b then .next (s.checkEntry q x b)
      else .next ((s.setQueue q { x with rereads := 0, rereadAt := some (s.now 0 + microsecond) }).post (.phaseReread q))

/-- PHASE_REREAD (R482): after 1 us the entry is read again, ten times at most. -/
def execPhaseReread (q : Nat) (s : State) : Host.Outcome State Fault Refusal :=
  match s.queues.find q with
  | none => .next s
  | some x =>
    if !x.unread || x.rereadAt.isNone then .next s
    else
      let (b, s) := (s.runToDeadline 0 x.rereadAt).entryAt x
      if phaseOk x b then .next (s.checkEntry q x b)
      else if 10 ≤ x.rereads + 1 then .next (s.failQueue q x (qeTag b))
      else .next ((s.setQueue q { x with rereads := x.rereads + 1, rereadAt := some (s.now 0 + microsecond) }).post (.phaseReread q))

/-- TAIL_WRITE (R481, R486): a doorbell store of 4 or 8 bytes. -/
def execTailWrite (q tail size : Nat) (s : State) : Host.Outcome State Fault Refusal :=
  match s.queues.find q with
  | none => .next s
  | some x =>
    if x.failed || !(size == 4 || size == 8) then .next s
    else
      let t := tail % 2 ^ 32
      if x.spec.entries < (t + 2 ^ 32 - x.head) % 2 ^ 32 then .next (s.failQueue q { x with tail := t } 0)
      else .next (((s.setQueue q { x with tail := t, since := if x.head = x.tail then s.now 0 else x.since }).post (.queueEntryRead q)).post .queueBind)

/-! ### Placement (R119, R485) -/

/-- A running launch has the cluster. -/
def State.occupied (s : State) (n : Nat) : Bool := s.launches.any fun e => e.2.state == .running && e.2.clusters.contains n

/-- A cluster runs no launch, is not gated, and its die is in D0 (R485, R519). -/
def State.freeCluster (s : State) (n : Nat) : Bool :=
  let d := s.die (n / 32)
  d.up && d.power == .d0 && !d.lost && !(s.cluster n).gated && !s.occupied n

/-- The clusters that an entry takes, in ascending order (R485), if there are enough. -/
def State.pick (s : State) (count mask : Nat) (signal : Bool) : Option (List Nat) :=
  let l := ((List.range 256).filter fun n =>
    dieAllowed mask (n / 32) && s.freeCluster n && (signal || !bit (s.reserved (n / 32)) (n % 32))).take count
  if l.length = count then some l else none

/-- A free slot of a queue's kind (R484). -/
def State.freeSlot (s : State) (signal : Bool) : Option Nat :=
  ((List.range 1024).drop (if signal then 960 else 0)).find? fun n => (signal || decide (n < 960)) && (s.launch n).state == .free

/-- GEOM of a core at placement: a team of one, with the launch's ROWS and COLS (R262). -/
def geomPlaced (c rows cols : Nat) : Nat := geomReset c + rows * 2 ^ 37 + cols * 2 ^ 42

/-- A worker core takes a launch (R119, R485): its pool is cleared after what a saved launch left there has gone, its contexts are free with
the next generation, and its registers are at their values of placement. -/
def State.placeCore (s : State) (slot c : Nat) : State :=
  let l := s.launch slot
  let s := s.flushTiles c
  let old := s.core c
  let n := max (pwBacked old.pword) (pwBacked l.pword)
  let s := (List.range 8).foldl (fun s i => s.modCtx (c * 8 + i) fun x =>
    { x.freed with gen := if i < n then (x.gen + 1) % 256 else x.gen, asid := l.asid, ltime := (s.die (dieOf c)).home, arr := [], arrPts := [] }) s
  s.setCore c { Core.reset (s.die (dieOf c)).service (s.die (dieOf c)).up c with
    pword := l.pword, geom := geomPlaced c l.rows l.cols, pagermap := old.pagermap, ringBase := old.ringBase, ringQuota := old.ringQuota, msgQuota := old.msgQuota,
    faultCount := old.faultCount, scSeq := old.scSeq, slot := some slot }

/-- LAUNCH_PLACEMENT (R485): every worker core of the clusters, their barriers, and the donation queues. -/
def State.place (s : State) (slot dq : Nat) : State :=
  let l := s.launch slot
  let s := l.clusters.foldl (fun s n => s.modCluster n fun x => { x with barriers := [] }) s
  let s := (s.coresOf l).foldl (fun s c => s.placeCore slot c) s
  let s := { s with donq := (List.range 16).foldl (fun t n =>
    if bit dq n then t.put n { Tab.get DonQueue.reset t n with slot := some slot, entries := [] } else t) s.donq }
  (s.coresOf l).foldl (fun s c => s.post (.stealBackoff c)) (s.post (.rootDispatch slot))

/-- Binds a queue's entry to a slot and clusters (R484 to R486). -/
def State.bindEntry (s : State) (q : Nat) (x : HQueue) (b slot : Nat) (clusters : List Nat) (starving : Bool) : State :=
  let v2 := x.spec.format == 2
  let l : Launch := { Launch.reset with
    state := .running, queue := q, tag := qeTag b, evq := s.entryEvq x b, code := qeCode b, pword := qePword b, rows := qeRows b, cols := qeCols b,
    root := qeRoot b, dqmask := if v2 then qeDq b else 0, limit := if v2 then qeLimit b else 0, clusters := clusters, asid := x.spec.asid,
    level := x.spec.level, boundAt := s.now 0, starving := starving }
  let s := { s with launches := s.launches.put slot l }
  let s := s.setQueue q { x.passed with since := s.now 0 }
  ((s.place slot l.dqmask).post (.queueEntryRead q)).post .queueBind

/-! ### Choosing (R486, R487) -/

/-- What waits to be bound: the entry of a queue, or a saved launch (`slot`) that ranks as one of its queue. -/
structure Waiting where
  queue : Nat
  slot : Option Nat
  level : Nat
  age : Nat
  starving : Bool
  deriving DecidableEq, Repr

/-- The ageing quantum in units of `TCLK`. -/
def State.quantum (s : State) : Nat := s.pkg.quantum * 65536

/-- The effective level of R486. -/
def State.effective (s : State) (base age : Nat) : Nat := if base = 0 then 0 else max 1 (base - age / s.quantum)

/-- Something of a base level that has waited since a time. -/
def State.waiting (s : State) (q : Nat) (slot : Option Nat) (base since : Nat) : Waiting :=
  let age := s.now 0 - since
  { queue := q, slot := slot, level := s.effective base age, age := age, starving := decide (4 * s.quantum ≤ age) }

/-- Launches of a queue that are RUNNING or SAVED. -/
def State.launchesOf (s : State) (q : Nat) : Nat := (s.launches.filter fun e => e.2.state != .free && e.2.queue == q).length

/-- A queue is pending (R486): its head is behind its tail, it has fewer than CONC launches, and NOTBEFORE of its next entry has passed. -/
def State.queuePending (s : State) (q : Nat) (x : HQueue) : Bool :=
  x.head != x.tail && decide (s.launchesOf q < x.spec.conc) && decide (x.notBefore ≤ s.now 0)

/-- What the host reads at an offset of a queue's doorbell page (R481): HEAD, STATE, and 0 anywhere else. -/
def State.doorbell (s : State) (q off : Nat) : Nat :=
  match s.queues.find q with
  | none => 0
  | some x =>
    if off = 0x008 then x.head
    else if off = 0x010 then if x.failed then 2 else if s.queuePending q x then 1 else 0
    else 0

/-- A queue is pending with its entry read (R486). -/
def State.isPending (s : State) (q : Nat) (x : HQueue) : Bool :=
  !x.failed && x.ready.isSome && s.queuePending q x

/-- Everything that waits to be bound. -/
def State.allWaiting (s : State) : List Waiting :=
  ((s.queues.filter fun e => s.isPending e.1 e.2).map fun e => s.waiting e.1 none e.2.spec.level e.2.since) ++
    (s.launches.filter fun e => e.2.state == .saved && e.2.wanted).map fun e => s.waiting e.2.queue (some e.1) e.2.level e.2.boundAt

/-- The order of R486 and R487, with SIGNAL queues before all others (R488). -/
def Waiting.before (a b : Waiting) : Bool :=
  let rank := fun (w : Waiting) => if w.level = 0 then 0 else if w.starving then 1 else 1 + w.level
  if rank a != rank b then decide (rank a < rank b) else if a.age != b.age then decide (b.age < a.age) else decide (a.queue < b.queue)

/-- The first of a list in that order. -/
def firstWaiting : List Waiting → Option Waiting
  | [] => none
  | w :: ws => match firstWaiting ws with
    | some v => if v.before w then some v else some w
    | none => some w

/-- The clusters of a saved launch are free (R513). -/
def State.clustersFree (s : State) (l : Launch) : Bool := l.clusters.all s.freeCluster

/-- Something that waits can be placed. -/
def State.placeable (s : State) (w : Waiting) : Bool :=
  match w.slot with
  | some n => s.clustersFree (s.launch n)
  | none => match s.queues.find w.queue with
    | none => false
    | some x =>
      let b := x.ready.getD 0
      (s.freeSlot x.spec.signal).isSome && (s.pick (qeClusters b) (qeDies b) x.spec.signal).isSome

/-- Binds what waits; an entry whose donation queues have been bound since it was read fails its check now (R483). -/
def State.bind (s : State) (w : Waiting) : State :=
  match w.slot with
  | some n => (s.restoreLaunch n).post .queueBind
  | none => match s.queues.find w.queue with
    | none => s
    | some x =>
      let b := x.ready.getD 0
      if x.spec.format = 2 && s.dqTaken (qeDq b) then s.failEntry w.queue x b 0x10
      else match s.freeSlot x.spec.signal, s.pick (qeClusters b) (qeDies b) x.spec.signal with
        | some slot, some l => s.bindEntry w.queue x b slot l w.starving
        | _, _ => s

/-- Firmware may pre-empt a launch for a starving queue (R487). -/
def State.mayPreempt (s : State) (n : Nat) (l : Launch) : Bool :=
  l.state == .running && decide (n < 960) && l.save.isNone && !(l.starving && decide (s.now 0 - l.boundAt < s.quantum))

/-- The launch that firmware takes: the worst base level, then the most recently bound (R487). -/
def State.victim (s : State) : Option Nat :=
  ((s.launches.filter fun e => s.mayPreempt e.1 e.2).foldl (fun (v : Option (Nat × Launch)) e => match v with
    | none => some e
    | some y => if y.2.level < e.2.level || (y.2.level == e.2.level && decide (y.2.boundAt < e.2.boundAt)) then some e else v) none).map (·.1)

/-- Firmware begins to save a launch, one at a time, for a starving entry that cannot be placed (R487). -/
def State.preemptForStarving (s : State) : State :=
  if s.launches.any fun e => e.2.save.isSome && e.2.cmd == some firmwareSeq then s
  else match s.victim with
    | some n => (s.beginSave n firmwareSeq none).post (.preempt firmwareSeq n 0 0)
    | none => s

/-- QUEUE_BIND (R486, R487): the best of those that can be placed is bound; for a starving one that cannot be placed, firmware pre-empts. -/
def execQueueBind (s : State) : Host.Outcome State Fault Refusal :=
  let l := s.allWaiting
  match firstWaiting (l.filter s.placeable) with
  | some w => .next (s.bind w)
  | none => if l.any (·.starving) then .next s.preemptForStarving else .next s

/-- AGEING_QUANTUM (R486): the next full quantum of a pending queue's age passes. -/
def execAgeingQuantum (q : Nat) (s : State) : Host.Outcome State Fault Refusal :=
  match s.queues.find q with
  | none => .next s
  | some x =>
    if s.isPending q x then
      .next ((s.runTo 0 (x.since + ((s.now 0 - x.since) / s.quantum + 1) * s.quantum)).post .queueBind)
    else .next s

/-- NOTBEFORE_PASSED (R486). -/
def execNotbeforePassed (q : Nat) (s : State) : Host.Outcome State Fault Refusal :=
  match s.queues.find q with
  | none => .next s
  | some x => if x.ready.isSome && !x.failed then .next ((s.runTo 0 x.notBefore).post .queueBind) else .next s

/-- The time at which a launch's LIMIT passes (R485). -/
def Launch.limitAt (l : Launch) : Option Nat :=
  if l.limit = 0 || l.state != .running then none else l.began.map fun t => t + (l.limit * microsecond - l.used)

/-- LIMIT_EXPIRY (R485). -/
def execLimitExpiry (slot : Nat) (s : State) : Host.Outcome State Fault Refusal :=
  match (s.launch slot).limitAt with
  | some t => .next ((s.runTo 0 t).finishLaunch slot 3)
  | none => .next s

/-! ### Event queues (R489, R490) -/

/-- EVENT_VECTOR_SIGNAL (R489): at most once per microsecond for each vector. -/
def execEventVectorSignal (evq : Nat) (s : State) : Host.Outcome State Fault Refusal :=
  match s.evqs.find evq with
  | none => .next s
  | some q =>
    if !q.owed then .next s
    else
      let last := s.evqs.foldl (fun (t : Option Nat) (e : Nat × EvQ) => if e.2.vector = q.vector then (match t, e.2.signalled with
        | some a, some b => some (max a b)
        | some a, none => some a
        | none, x => x) else t) none
      let s := s.runToDeadline 0 (last.map (· + microsecond))
      .next { s with evqs := s.evqs.put evq { q with owed := false, signalled := some (s.now 0), signals := q.signals + 1 } }

/-- EVENT_HEAD_ADVANCE (R490): the host writes its head index to the header line, and events that wait are written. -/
def execEventHeadAdvance (evq head : Nat) (s : State) : Host.Outcome State Fault Refusal :=
  match s.evqs.find evq with
  | none => .next s
  | some q =>
    let s := { s with evqs := s.evqs.put evq { q with head := head % 2 ^ 64 }, mem := s.mem.writeN (q.header + 8) 8 (head % 2 ^ 64) }
    .next (s.drainEvents evq (q.buffer.length + 1))

/-! ### Host commands of this chapter (R480, R486, R489, R491) -/

/-- The limits of R480 on a queue. -/
def State.badQueue (s : State) (q : Nat) (x : QueueSpec) : Bool :=
  !([16, 32, 64, 128, 256, 512, 1024, 2048, 4096, 8192, 16384, 32768, 65536].contains x.entries) || !(x.format == 1 || x.format == 2) ||
    decide (7 < x.level) || (x.level == 0 && !x.signal) || x.conc == 0 || decide (16 < x.conc) || decide (32768 ≤ q) || decide (4096 ≤ x.asid) ||
    decide (4096 ≤ x.evq) || (x.signal && decide (64 ≤ (s.queues.filter fun e => e.2.spec.signal && e.1 != q).length))

/-- CREATE_QUEUE (R480, R481): it also resets a queue in the error state. -/
def execCreateQueue (seq q : Nat) (f : QueueSpec) (s : State) : Host.Outcome State Fault Refusal :=
  s.command (.createQueue seq q f) seq 0xFFFF readyForCommands false fun s =>
    if s.badQueue q f then s.rejected seq
    else (s.setQueue q { spec := f, tail := 0, head := 0, failed := false, since := s.now 0, rereads := 0, rereadAt := none, ready := none,
                         notBefore := 0 }).done seq

/-- DESTROY_QUEUE (R491): each launch of the queue ends with cause 2. -/
def execDestroyQueue (seq q : Nat) (s : State) : Host.Outcome State Fault Refusal :=
  s.command (.destroyQueue seq q) seq 0xFFFF readyForCommands false fun s =>
    if (s.queues.find q).isNone then s.rejected seq
    else
      let ls := (s.launches.filter fun e => e.2.state != .free && e.2.queue == q).map (·.1)
      (ls.foldl (fun (s : State) n => s.finishLaunch n 2) { s with queues := s.queues.del q }).done seq

/-- CREATE_EVQ (R489): a ring of 2^n events, n from 4 to 16, its header line and its vector. -/
def execCreateEvq (seq evq base entries header vector : Nat) (s : State) : Host.Outcome State Fault Refusal :=
  s.command (.createEvq seq evq base entries header vector) seq 0xFFFF readyForCommands false fun s =>
    if 4096 ≤ evq || 4096 ≤ vector || !([16, 32, 64, 128, 256, 512, 1024, 2048, 4096, 8192, 16384, 32768, 65536].contains entries) then s.rejected seq
    else
      let q : EvQ := { base := base, entries := entries, header := header, vector := vector, tail := 0, head := 0, buffer := [], drops := 0,
                       signalled := none, owed := false, signals := 0 }
      ({ s with evqs := s.evqs.put evq q, mem := s.mem.writeN header 24 0 } : State).done seq

/-- SET_QUANTUM (R486): 10 us to 10 ms. -/
def execSetQuantum (seq ns : Nat) (s : State) : Host.Outcome State Fault Refusal :=
  s.command (.setQuantum seq ns) seq 0xFFFF readyForCommands false fun s =>
    if ns < 10000 || 10000000 < ns then s.rejected seq else (({ s with pkg := { s.pkg with quantum := ns } } : State).done seq).post .queueBind

/-- SET_RESERVE (R485): the reserve map of one die. -/
def execSetReserve (seq die map : Nat) (s : State) : Host.Outcome State Fault Refusal :=
  s.command (.setReserve seq die map) seq 0xFFFF readyForCommands false fun s =>
    if 8 ≤ die then s.rejected seq
    else (({ s with pkg := { s.pkg with reserve := s.pkg.reserve.put die (map % 2 ^ 32) } } : State).done seq).post .queueBind

/-- END_LAUNCH (R255, R491): a slot that holds no launch is rejected. -/
def execEndLaunch (seq slot : Nat) (s : State) : Host.Outcome State Fault Refusal :=
  s.command (.endLaunch seq slot) seq (s.named slot) readyForCommands false fun s =>
    if 1024 ≤ slot || (s.launch slot).state = .free then s.commandDone seq (s.named slot) 1
    else (s.finishLaunch slot 2).commandDone seq slot 0

/-- HOSTCMD (R491): a class-3 message to a service core. -/
def execHostcmd (seq core payload : Nat) (s : State) : Host.Outcome State Fault Refusal :=
  s.command (.hostcmd seq core payload) seq 0xFFFF readyForCommands false fun s =>
    if 4096 ≤ core || !s.isService core || s.deaf (dieOf core) then s.rejected seq
    else (s.send (hwMsg core 3 4 64 (payload % 2 ^ 512) 0xFFFF (s.die (dieOf core)).home)).done seq

end Sys2Proof.Machine
end

