-- ==== Sys2Proof/Machine/Sha.lean ====
section
/-! DEFINITION. SHA-256 (FIPS 180-4) of 64 bytes, by which a measurement register is extended (R526). The standard's constants are computed from
what it defines them by: the fractions of the roots of the first primes. -/

namespace Sys2Proof.Machine

/-- A word of SHA-256. -/
abbrev W32 := BitVec 32

/-- The greatest r + y, y below 2^n, whose power p does not exceed x. -/
def rootBelow (p x : Nat) : Nat → Nat → Nat
  | 0, r => r
  | n + 1, r => rootBelow p x n (if (r + 2 ^ n) ^ p ≤ x then r + 2 ^ n else r)

/-- The first 64 primes. -/
def shaPrimes : List Nat := (List.range 312).filter fun q => decide (2 ≤ q) && (List.range 18).all fun d => decide (d < 2 ∨ d = q ∨ q % d ≠ 0)

/-- The first 32 bits of the fraction of a prime's root of degree p: FIPS 180-4 takes cube roots for its rounds (4.2.2) and square roots for the
initial value (5.3.3). -/
def rootFraction (p q : Nat) : W32 := BitVec.ofNat 32 (rootBelow p (q * 2 ^ (32 * p)) 38 0)

/-- A word rotated right by each of several amounts, added bit by bit: the sums of FIPS 180-4, 4.1.2. -/
def turns (rs : List Nat) (x : W32) : W32 := rs.foldl (fun y r => y ^^^ x.rotateRight r) 0

/-- The 64 words that a block's 16 give: each further one from those 16, 15, 7 and 2 places before it (6.2.2). -/
def shaExtend : Nat → List W32 → List W32
  | n + 1, w0 :: w1 :: ws =>
    let old := ws.getD 12 0
    w0 :: shaExtend n (w1 :: ws ++ [w0 + (turns [7, 18] w1 ^^^ w1 >>> 3) + ws.getD 7 0 + (turns [17, 19] old ^^^ old >>> 10)])
  | _, _ => []

/-- The eight working variables, the newest of the two halves first. -/
structure ShaVars where
  a : W32
  b : W32
  c : W32
  d : W32
  e : W32
  f : W32
  g : W32
  h : W32
  deriving DecidableEq, Repr

/-- One round, with the round's constant added to its word (6.2.2). -/
def ShaVars.round (v : ShaVars) (kw : W32) : ShaVars :=
  let choice := v.g ^^^ (v.e &&& (v.f ^^^ v.g))
  let majority := (v.a &&& (v.b ||| v.c)) ||| (v.b &&& v.c)
  let t := v.h + kw + turns [6, 11, 25] v.e + choice
  { a := t + turns [2, 13, 22] v.a + majority, b := v.a, c := v.b, d := v.c, e := v.d + t, f := v.e, g := v.f, h := v.g }

/-- One block of 16 words. -/
def ShaVars.block (v : ShaVars) (w : List W32) : ShaVars :=
  let z := (List.zipWith (fun q x => rootFraction 3 q + x) shaPrimes (shaExtend 64 w)).foldl ShaVars.round v
  { a := v.a + z.a, b := v.b + z.b, c := v.c + z.c, d := v.d + z.d, e := v.e + z.e, f := v.f + z.f, g := v.g + z.g, h := v.h + z.h }

/-- The initial hash value. -/
def ShaVars.start : ShaVars :=
  let r := fun i => rootFraction 2 (shaPrimes.getD i 0)
  { a := r 0, b := r 1, c := r 2, d := r 3, e := r 4, f := r 5, g := r 6, h := r 7 }

/-- The words of the variables as one number, the first the most significant. -/
def ShaVars.digest (v : ShaVars) : BitVec 256 := v.a ++ v.b ++ v.c ++ v.d ++ v.e ++ v.f ++ v.g ++ v.h

/-- A number as 16 words, the most significant first. -/
def blockWords (x : Nat) : List W32 := ((List.range 16).map fun i => BitVec.ofNat 32 (x >>> (32 * i))).reverse

/-- SHA-256 of the 64 bytes of a number, the most significant byte first: the block, and one of padding that ends in the length in bits. -/
def sha256 (x : BitVec 512) : BitVec 256 :=
  ((ShaVars.start.block (blockWords x.toNat)).block (blockWords (2 ^ 511 + 512))).digest

end Sys2Proof.Machine
end

