-- ==== Sys2Proof/Machine/Treut.lean ====
section
/-! DEFINITION. The synchronisation of Treut time (R275 to R279): the two-step exchange of each die with the grandmaster die, and of a
package's grandmaster with the system reference, whose stamps are free values (log 11). The slew is `Die.slewed`. -/

namespace Sys2Proof.Machine

/-- The period of the exchange, 2^20 ns, in units of `TCLK` (R277). -/
def exchangePeriod : Nat := 2 ^ 20 * 65536

/-- The other end of a die's exchange as its clock shows: the grandmaster's `TCLK`, or a free value for another package (R279). -/
def State.reference (s : State) (d : Nat) : Nat × State :=
  if d = s.pkg.gmDie then let (w, s) := s.free; (w.toNat, s) else (s.now s.pkg.gmDie, s)

/-- A die takes part in exchanges: it is up, and, if it is the grandmaster, its package is joined to another system reference. -/
def State.exchanges (s : State) (d : Nat) : Bool :=
  (s.die d).up && (s.die d).power == .d0 && !(s.die d).lost && (d != s.pkg.gmDie || (!s.pkg.sysref && !s.pkg.routes.isEmpty))

/-- A die has lost the synchronisation of its own exchange: with the grandmaster, or the grandmaster's with another package (R278, R279). -/
def State.outOfSync (s : State) (d : Nat) : Bool := if d = s.pkg.gmDie then (s.die d).xloss else (s.die d).loss

/-- The time at which a die's next exchange begins (R277): one period after the last that was due, at once for a die that has lost
synchronisation. -/
def State.exchangeAt (s : State) (d : Nat) : Nat :=
  if s.outOfSync d && (s.die d).exch.isNone then s.now d else (s.die d).lastSync + exchangePeriod * ((s.die d).missed + 1)

/-- An exchange is due (R277). -/
def State.exchangeDue (s : State) (d : Nat) : Bool := s.reached d (s.exchangeAt d)

/-- A stamp that the die's port takes of a message sent when the reference showed t: the die's clock as it stands to the reference's, the link's
delay later (R277). The stamps of an exchange with another package are taken as they come (log 46). -/
def State.stampFrom (s : State) (d t : Nat) : Nat :=
  if d = s.pkg.gmDie then s.now d else t + Config.linkDelay d + s.now d - s.now s.pkg.gmDie

/-- The stamp that the reference's port takes of a message sent when the die's clock showed t. -/
def State.stampAt (s : State) (d t : Nat) : Nat × State :=
  if d = s.pkg.gmDie then s.reference d else (t + Config.linkDelay d + s.now s.pkg.gmDie - s.now d, s)

/-- TREUT_EXCHANGE (R277): the reference sends Sync. An exchange that is still open when the next is due has been missed. -/
def execTreutExchange (die : Nat) (s : State) : Host.Outcome State Fault Refusal :=
  if !s.exchanges die || !s.exchangeDue die then .next s
  else if (s.die die).exch.isSome then .next (s.post (.exchangeMissed die))
  else
    let (t, s) := s.reference die
    .next ((s.modDie die fun x => { x with exch := some { stage := 1, t1 := t, t2 := 0, t3 := 0, t4 := 0 } }).post (.treutSyncReceive die))

/-- The next stage of a die's exchange, where it stands at the stage named. -/
def State.exchangeStep (s : State) (d stage : Nat) (f : Exchange → Exchange) (next : Event) : State :=
  match (s.die d).exch with
  | some x => if x.stage = stage then (s.modDie d fun y => { y with exch := some { f x with stage := stage + 1 } }).post next else s
  | none => s

/-- The Sync arrives at t2 (R277). -/
def execTreutSyncReceive (die : Nat) (s : State) : Host.Outcome State Fault Refusal :=
  .next (s.exchangeStep die 1 (fun x => { x with t2 := s.stampFrom die x.t1 }) (.followUpReceive die))

/-- The Follow_Up arrives with t1, and Delay_Req goes out at t3. -/
def execFollowUpReceive (die : Nat) (s : State) : Host.Outcome State Fault Refusal :=
  .next (s.exchangeStep die 2 (fun x => { x with t3 := s.now die }) (.delayReqReceive die))

/-- The reference receives the Delay_Req at t4. -/
def execDelayReqReceive (die : Nat) (s : State) : Host.Outcome State Fault Refusal :=
  let (t, s) := s.stampAt die (((s.die die).exch.map (·.t3)).getD 0)
  .next (s.exchangeStep die 3 (fun x => { x with t4 := t }) (.delayRespReceive die))

/-- The offset ((t2 - t1) - (t4 - t3)) / 2 of R277. -/
def Exchange.offset (x : Exchange) : Int := (((x.t2 : Int) - x.t1) - ((x.t4 : Int) - x.t3)) / 2

/-- The servo is at its limit when removing the offset over one period takes more than 200 ppm (R275, R276). -/
def slewLimit (o : Int) : Bool := decide (exchangePeriod * 200 < o.natAbs * 10 ^ 6)

/-- The grandmaster has completed an exchange with a die: if it has come out of D3 itself, it is in sync again (R32, R278, log 62). -/
def State.referenceMet (s : State) : State :=
  s.modDie s.pkg.gmDie fun y => if y.loss then { y with loss := false, bound := 0 } else y

/-- The Delay_Resp arrives: the exchange is complete, and the servo has an offset to remove (R277 to R279). -/
def execDelayRespReceive (die : Nat) (s : State) : Host.Outcome State Fault Refusal :=
  match (s.die die).exch with
  | some x =>
    if x.stage = 4 then
      let done := fun (y : Die) => { y with exch := none, missed := 0, lastSync := y.tclk, offset := x.offset, slewmax := slewLimit x.offset }
      if die = s.pkg.gmDie then .next (s.modDie die fun y => { done y with xbound := 37, xloss := false })
      else .next ((s.modDie die fun y => { done y with bound := 3, loss := false }).referenceMet)
    else .next s
  | none => .next s

/-- EXCHANGE_MISSED (R276, R278): MISSED counts; at 3 synchronisation is lost, and the bound grows. -/
def execExchangeMissed (die : Nat) (s : State) : Host.Outcome State Fault Refusal :=
  .next (s.modDie die fun y =>
    let n := min 255 (y.missed + 1)
    let since := y.tclk - y.lastSync
    let y := { y with exch := none, missed := n }
    if n < 3 then y
    else if die = s.pkg.gmDie then { y with xloss := true, xbound := if y.xbound = 0xFFFF then 0xFFFF else lostBound true since }
    else { y with loss := true, bound := if y.bound = 0xFFFF then 0xFFFF else lostBound false since })

end Sys2Proof.Machine
end

