-- ==== Sys2Proof/Machine/Power.lean ====
section
/-! DEFINITION. The package as the host manages it (R306, R307, R514 to R527): power states, resets and losses of dies, page scrubs, trips,
bring-up and attestation, package numbers and routes, and host accesses through the CXL port (R479). -/

namespace Sys2Proof.Machine

/-! ### A die's memory and its reset (R305, R306, R514) -/

/-- An address lies in a die's HBM. -/
def State.inDie (s : State) (d pa : Nat) : Bool := s.local_ pa && homeDie pa == d

/-- A die's HBM loses its contents, or is scrubbed: every byte reads as an unlisted one does (log 7), and its lines' timestamps are 0. -/
def State.wipe (s : State) (d : Nat) : State :=
  ({ s with
    mem := s.mem.filter fun e => !s.inDie d e.1
    poison := s.poison.filter fun l => !s.inDie d (l * 64)
    stamps := s.stamps.filter fun e => !s.inDie d (e.1 * 64)
    parts := s.parts.filter fun e => !s.inDie d e.1 } : State).modDie d fun x => { x with floor := 0 }

/-- No die holds a copy of a line that a die homes any more (R307). -/
def State.forgetHome (s : State) (d : Nat) : State :=
  let s := (List.range 8).foldl (fun s e => s.modDie e fun x =>
    { x with owned := x.owned.filter fun y => !s.inDie d (y.1 * 64), guest := x.guest.filter fun y => !s.inDie d (y.1 * 64) }) s
  { s with cores := s.cores.map fun (e : Nat × Core) => (e.1, { e.2 with l1 := e.2.l1.filter fun y => !s.inDie d (y.1 * 64) }) }

/-- The cores of a die. -/
def coresOfDie (d : Nat) : List Nat := (List.range 512).map (· + d * 512)

/-- The tiles that saved launches left in the pools of a die go to their save areas (R401, R514). -/
def State.flushDie (s : State) (d : Nat) : State :=
  (s.launches.filter fun e => e.2.state == .saved).foldl (fun s e =>
    ((s.coresOf e.2).filter fun c => dieOf c == d).foldl (fun s c => s.flushTilesOf e.1 c) s) s

/-- Messages in flight to the cores of a die arrive before it stops (R474). -/
def State.drainNet (s : State) (d : Nat) : State :=
  let here := fun (m : Msg) => decide (dstKind m.dst < 2) && dieOf (dstCore m.dst) == d
  (s.net.filter here).foldl (fun s m => s.arrive (dstCore m.dst) m) { s with net := s.net.filter fun m => !here m }

/-- Requests of transfers in a die's units end with a code (R364). -/
def State.endRequests (s : State) (d code : Nat) : State :=
  let rs := (s.die d).inbox.flatMap (·.2)
  let s := s.modDie d fun x => { x with inbox := [] }
  rs.foldl (fun s r => match s.xferOf r with
    | some x => s.ack r.core r.xfer 0 x.pts true (some code)
    | none => s) s

/-- Before a die is cleared its L1s and its slices write back what is dirty, range locks or not, and its owned lines go home (R306, R514). -/
def State.writeHome (s : State) (d : Nat) : State :=
  (((s.modDie d fun x => { x with locks := [] }).freeHeld d).spillAll fun c _ => dieOf c == d).writeBackAll d

/-- The cores, contexts and units of a die are cleared, contexts free with the next generation (R514 step 4). What its home keeps is left. -/
def State.clearDie (s : State) (d : Nat) : State :=
  let s := { s with
    ctxs := s.ctxs.map fun (e : Nat × Ctx) =>
      if dieOf (coreOf e.1) = d then (e.1, { Ctx.reset (s.isService (coreOf e.1)) with gen := (e.2.gen + 1) % 256 }) else e
    cores := s.cores.filter fun e => dieOf e.1 != d
    clusters := s.clusters.map fun (e : Nat × Cluster) => if e.1 / 32 = d then (e.1, { Cluster.reset e.1 with gated := e.2.gated }) else e
    acks := s.acks.filter fun a => dieOf a.core != d }
  s.modDie d fun x => { x with
    locks := [], lockQ := [], issuing := [], inbox := [], fifo := [], pointers := [], tlb := [], owned := [], guest := [], held := [], scatters := [], faults := [], scq := [],
    exch := none, resets := x.resets + 1, firstGen := (x.firstGen + 1) % 256 }

/-- The first tick at or after a die's clock for its period (R303). -/
def Die.retick (x : Die) : Die := { x with nextTick := (x.tclk / 65536 / x.ltperiod + 1) * x.ltperiod }

/-- The registers of a die that a reset returns to their reset values (R286, R304). -/
def Die.registersReset (x : Die) : Die := ({ x with ptroot := 0, ltperiod := 1000, lease := 16 } : Die).retick

/-- The package is joined to system time through another package (R276, R279). -/
def State.joined (s : State) : Bool := !s.pkg.sysref && !s.pkg.routes.isEmpty

/-- Synchronisation is lost at a D3 exit and while a die is off (R32, R278), and with the grandmaster that of its package with system time (R279). -/
def State.unsynced (s : State) (d : Nat) : State :=
  s.modDie d fun x => { x with loss := true, bound := 0xFFFF, missed := 0, xloss := d == s.pkg.gmDie && s.joined, xbound := 0xFFFF }

/-- How many service cores firmware designates in the clusters of a die that comes up: 1 to 4 (R20). Which number it takes is firmware's choice and
free in the model (log 83). -/
def serviceCount (w : Word) : Nat := 1 + w.toNat % 4

/-- A die comes up out of D3, or at bring-up (R20, R277, R278, R517, R524): its clock is loaded from the grandmaster's Sync and the link's delay,
which is the grandmaster's time at its arrival, `CYC` is 0 and the clock's phase free (R30), its contexts are of generation 0 (R159), its lines'
timestamps and H are 0, and it is out of sync. -/
def State.dieUp (s : State) (d : Nat) : State :=
  let t := s.now s.pkg.gmDie
  let (cores, s) := s.free
  let (phase, s) := s.free
  let s := s.clearDie d
  let s := { s with ctxs := s.ctxs.filter fun e => dieOf (coreOf e.1) != d }
  (s.modDie d fun x =>
    ({ x with power := .d0, mhz := 2100, service := serviceCount cores, cyc := 0, phase := phase.toNat % cycleUnit, tclk := t, up := true, home := 0, floor := 0,
              lastSync := t, offset := 0, slack := 0, slewmax := false, firstGen := 0 } : Die).registersReset).unsynced d

/-! ### Power states (R517 to R520) -/

/-- A launch in one of the states given has a cluster on a die. -/
def State.launchOn (s : State) (d : Nat) (states : List SlotUse) : Bool :=
  s.launches.any fun e => states.contains e.2.state && e.2.clusters.any fun n => n / 32 == d

/-- A power state by its code. -/
def Power.ofCode : Nat → Power
  | 0 => .d0 | 1 => .d1 | 2 => .d2 | _ => .d3

/-- A die goes into D3 on command: it is drained, its HBM is lost, and copies of its lines are as for a lost die (R306, R518). -/
def State.dieOff (s : State) (d : Nat) : State :=
  let s := ((s.drainNet d).writeHome d).endRequests d 0x11
  let s := (((s.clearDie d).forgetHome d).wipe d)
  (s.modDie d fun x => { x with power := .d3, up := false, cyc := 0 }).unsynced d

/-- Every die has been commanded back to D0 after a trip: bring-up runs again (R521). -/
def State.restart (s : State) : State :=
  if s.pkg.trip.isSome && (List.range 8).all fun d => (s.die d).power == .d0 then
    { s with pkg := { s.pkg with trip := none, bringup := 0 }, agenda := s.agenda ++ List.replicate 6 Event.bringUp }
  else s

/-- A die changes its power state (R517, R518). -/
def State.toPower (s : State) (d : Nat) (p : Power) : State :=
  let old := (s.die d).power
  let s := if old = .d0 && p != .d0 then s.flushDie d else s
  if p = .d3 then (if old = .d3 then s else s.dieOff d)
  else if old = .d3 then
    if s.pkg.trip.isSome then (s.modDie d fun x => { x with power := p }).restart
    else (s.dieUp d).modDie d fun x => { x with power := p }
  else (s.modDie d fun x => { x with power := p }).post .queueBind

/-- SET_POWER (R518): only D0 is taken during a trip (R521). -/
def execSetPower (seq die state : Nat) (s : State) : Host.Outcome State Fault Refusal :=
  s.command (.setPower seq die state) seq 0xFFFF readyForCommands (state == 0 && decide (die < 8)) fun s =>
    if 8 ≤ die || 4 ≤ state || (state == 2 && s.launchOn die [.running]) || (state == 3 && s.launchOn die [.running, .saved]) then s.rejected seq
    else (s.toPower die (Power.ofCode state)).done seq

/-- Requests of other dies' transfers that no fault holds are still in a die's units (R474). -/
def State.unitsBusy (s : State) (d : Nat) : Bool := (s.die d).inbox.any fun e => e.2.any fun r => r.fault.isNone

/-- WARM_RESET (R514): rejected while a RUNNING launch has a cluster on the die. It waits until the die's units have drained. -/
def execWarmReset (seq die : Nat) (s : State) : Host.Outcome State Fault Refusal :=
  s.command (.warmReset seq die) seq 0xFFFF readyForCommands false fun s =>
    if 8 ≤ die || s.launchOn die [.running] || (s.die die).power != .d0 || (s.die die).lost then s.rejected seq
    else if s.unitsBusy die then s.post (.warmReset seq die)
    else
      let s := (s.flushDie die).drainNet die
      let s := (List.range 8).foldl (fun s e => s.post (.tokenReturn die e)) s
      let s := ((s.writeHome die).endRequests die 0x11).clearDie die
      ((s.modDie die Die.registersReset).done seq).post .queueBind

/-- CLUSTER_GATE (R519): only a cluster that no launch occupies is gated. -/
def execClusterGate (seq cluster : Nat) (gate : Bool) (s : State) : Host.Outcome State Fault Refusal :=
  s.command (.clusterGate seq cluster gate) seq 0xFFFF readyForCommands false fun s =>
    if 256 ≤ cluster || (gate && s.occupied cluster) then s.rejected seq
    else
      let s := if gate then (s.workersOf cluster).foldl State.flushTiles s else s
      ((s.modCluster cluster fun x => { x with gated := gate }).done seq).post .queueBind

/-- SET_CLOCK (R519): 1,600 to 2,300 MHz in steps of 25. -/
def execSetClock (seq die mhz : Nat) (s : State) : Host.Outcome State Fault Refusal :=
  s.command (.setClock seq die mhz) seq 0xFFFF readyForCommands false fun s =>
    if 8 ≤ die || mhz < 1600 || 2300 < mhz || mhz % 25 != 0 then s.rejected seq else (s.modDie die fun x => { x with mhz := mhz }).done seq

/-- SET_ENVELOPE (R520): 600 to 1,900 W. -/
def execSetEnvelope (seq watts : Nat) (s : State) : Host.Outcome State Fault Refusal :=
  s.command (.setEnvelope seq watts) seq 0xFFFF readyForCommands false fun s =>
    if watts < 600 || 1900 < watts then s.rejected seq else ({ s with pkg := { s.pkg with envelope := watts } } : State).done seq

/-! ### Trips (R521) -/

/-- Every launch ends with a LAUNCH_END of cause 4, and nothing else of it is written. -/
def State.endAllByTrip (s : State) : State :=
  (s.launches.filter fun e => e.2.state != .free).foldl (fun (s : State) e =>
    (s.endLaunch e.1).hostEvent (s.evqOf e.1) { type := 2, slot := e.1, tag := s.tagOf e.1, info := 4, payload := 0 }) s

/-- A trip: every die is in D3 at once, without draining. -/
def State.tripped (s : State) (sensor : Nat) : State :=
  let s := ({ s with net := [], bounces := [], acks := [], answers := [], replies := [] } : State).endAllByTrip
  let s := (List.range 8).foldl (fun s d =>
    (((s.clearDie d).wipe d).modDie d fun x => { x with power := .d3, up := false, cyc := 0 }).unsynced d) s
  { s with pkg := { s.pkg with trip := some sensor, tripSignals := s.pkg.tripSignals + 1 } }

/-- THERMAL_TRIP (R521): the status register takes the sensor's number. -/
def execThermalTrip (sensor : Nat) (s : State) : Host.Outcome State Fault Refusal :=
  if s.pkg.trip.isSome then .next s else .next (s.tripped sensor)

/-- COOLANT_FLOW_TRIP (R521): no die sensor has tripped, and the number that the register takes is a free value. -/
def execCoolantFlowTrip (s : State) : Host.Outcome State Fault Refusal :=
  if s.pkg.trip.isSome then .next s
  else
    let (w, s) := s.free
    .next (s.tripped w.toNat)

/-! ### Lost dies and poison (R282, R307, R364, R515) -/

/-- No L1 holds certain lines any more, and those of a lost die hold nothing. -/
def State.dropLines (s : State) (d : Nat) (ls : List Nat) : State :=
  { s with cores := s.cores.map fun (e : Nat × Core) => (e.1, { e.2 with l1 := if dieOf e.1 = d then [] else e.2.l1.filter fun y => !ls.contains y.1 }) }

/-- A die is declared lost (R307, R515): the lines that it owned are POISON and hold what was last written back; no L1 serves them any longer. -/
def State.dieGone (s : State) (d : Nat) : State :=
  let ls := ((s.die d).owned.map (·.1)).filter fun l => homeDie (l * 64) != d
  let s := ({ s with poison := s.poison ++ ls.filter fun l => !s.poison.contains l } : State).dropLines d ls
  let s := ls.foldl (fun s l => s.tellPoison 0xFFFF (l * 64)) s
  let s := (s.forgetHome d).modDie d fun x => { x with lost := true, owned := [], guest := [], held := [], scq := [] }
  let running := (s.launches.filter fun e => e.2.state == .running && e.2.clusters.any fun n => n / 32 == d).map (·.1)
  (running.foldl (fun s n => s.failLaunch n 0x11) s).endRequests d 0x11

/-- DIE_LOST (R307, R515). -/
def execDieLost (seq die : Nat) (s : State) : Host.Outcome State Fault Refusal :=
  s.command (.dieLost seq die) seq 0xFFFF readyForCommands false fun s =>
    if 8 ≤ die || (s.die die).lost then s.rejected seq else (s.dieGone die).done seq

/-- SCRUB (R307): a 64 KiB page of device memory whose home die answers. Its lines' copies go, its bytes become zero, and its POISON is
cleared. -/
def execScrub (seq page : Nat) (s : State) : Host.Outcome State Fault Refusal :=
  s.command (.scrub seq page) seq 0xFFFF readyForCommands false fun s =>
    let d := s.die (homeDie page)
    if page % 65536 != 0 || !s.local_ page || d.lost || d.power == .d3 then s.rejected seq
    else
      let s := s.dropPage page 65536
      let s := (List.range 1024).foldl (fun s i => (s.stampWrite (page / 64 + i) (s.die (homeDie page)).home).1) s
      ({ s with mem := s.mem.clear page 65536, poison := s.poison.filter fun l => !inPage page 65536 l } : State).done seq

/-! ### Names and routes (R277, R279, R491, R493) -/

/-- A line or an address of one package's memory under another number. -/
def renumber (unit old new a : Nat) : Nat :=
  if !bit (a * unit) 51 && bits (a * unit) 46 39 == old then a - old * (2 ^ 39 / unit) + new * (2 ^ 39 / unit) else a

/-- SET_PKGNUM (R491): the package's memory stands under its new number. -/
def execSetPkgnum (seq n : Nat) (s : State) : Host.Outcome State Fault Refusal :=
  s.command (.setPkgnum seq n) seq 0xFFFF readyForNames false fun s =>
    let old := s.pkg.number
    if 256 ≤ n then s.rejected seq
    else if n = old then s.done seq
    else
      let s := s.dropPage (old * 2 ^ 39) (2 ^ 39)
      ({ s with
        mem := (s.mem.clear (old * 2 ^ 39) (2 ^ 39)).blit (n * 2 ^ 39) s.mem (old * 2 ^ 39) (2 ^ 39)
        stamps := s.stamps.map fun e => (renumber 64 old n e.1, e.2)
        poison := s.poison.map (renumber 64 old n)
        parts := s.parts.map fun e => (renumber 1 old n e.1, e.2)
        pkg := { s.pkg with number := n } } : State).done seq

/-- SET_ROUTE (R493): a link for each plinth. -/
def execSetRoute (seq : Nat) (f : RouteSpec) (s : State) : Host.Outcome State Fault Refusal :=
  s.command (.setRoute seq f) seq 0xFFFF readyForNames false fun s =>
    if 256 ≤ f.pkg || f.links.length != 4 || f.links.any (fun l => decide (12 ≤ l)) then s.rejected seq
    else ({ s with pkg := { s.pkg with routes := s.pkg.routes.put f.pkg f.links } } : State).done seq

/-- SET_GM (R277 to R279): no die's clock moves; the servos slew toward the new reference from the next exchanges on. In sync, the new reference has
no bound of its own and the old one that of a die in sync, and the package's bound on system time goes with the reference. -/
def execSetGm (seq die : Nat) (sysref : Bool) (s : State) : Host.Outcome State Fault Refusal :=
  s.command (.setGm seq die sysref) seq 0xFFFF readyForNames false fun s =>
    if 8 ≤ die then s.rejected seq
    else
      let old := s.pkg.gmDie
      let x := s.die old
      let s := if old = die then s else (s.modDie old fun y => { y with bound := if y.loss then y.bound else 3, lastSync := y.tclk, missed := 0, exch := none }).modDie die fun y =>
        { y with bound := if y.loss then y.bound else 0, missed := 0, exch := none, xbound := x.xbound, xloss := x.xloss }
      ({ s with pkg := { s.pkg with gmDie := die, sysref := sysref } } : State).done seq

/-! ### Bring-up and attestation (R524 to R527) -/

/-- The rollback counter: the fused one, or the level of an image that has raised it (R525). -/
def State.rollbackCounter (s : State) : Nat := max Config.fusedRollback s.pkg.rollback

/-- The ROM accepts an image (R525): its signature and digest are good, and its level is not behind the counter. -/
def State.acceptsImage (s : State) (i : Nat) : Bool := Config.imageGenuine i && decide (s.rollbackCounter ≤ Config.imageLevel i)

/-- FIRMWARE_VERIFY (R525): the image, or its backup. -/
def State.chooseImage (s : State) : Option Nat := if s.acceptsImage 0 then some 0 else if s.acceptsImage 1 then some 1 else none

/-- MEASUREMENT_EXTEND (R526). -/
def State.extend (s : State) (n : Nat) (digest : BitVec 256) : State :=
  { s with pkg := { s.pkg with meas := s.pkg.meas.put n (sha256 (Tab.get 0 s.pkg.meas n ++ digest)) } }

/-- A step of the bring-up ends. -/
def State.stepEnds (s : State) : State := { s with pkg := { s.pkg with bringup := s.pkg.bringup + 1 } }

/-- BRING_UP (R524): the next step. A package whose images both fail stays in step 1, and step 4 waits for every die's exchange. -/
def execBringUp (s : State) : Host.Outcome State Fault Refusal :=
  match s.pkg.bringup with
  | 0 => match s.chooseImage with
    | none => .next s
    | some i =>
      let s := { s with pkg := { s.pkg with image := some i, rollback := max s.rollbackCounter (Config.imageLevel i) } }
      .next (((s.extend 0 Config.romDigest).extend 1 (Config.imageDigest i)).extend 2 (Config.queueDigest i)).stepEnds
  | 1 => .next ((List.range 8).foldl State.wipe s).stepEnds
  | 2 => .next (((List.range 8).foldl State.dieUp s).extend 3 Config.configDigest).stepEnds
  | 3 =>
    let late := (List.range 8).filter fun d => (s.die d).loss
    if late.isEmpty then .next s.stepEnds else .next (((late.filter fun d => (s.die d).exch.isNone).foldl (fun s d => s.post (.treutExchange d)) s).post .bringUp)
  | 4 => .next ({ s with pkg := { s.pkg with oldPeers := (List.range 12).filter Config.oldPeer } } : State).stepEnds
  | 5 => .next (s.stepEnds.post .queueBind)
  | _ => .next s

/-- The bytes of a digest, its first byte lowest. -/
def digestBytes (x : BitVec 256) : Nat := (List.range 32).foldl (fun n i => n * 256 + x.toNat / 256 ^ i % 256) 0

/-- Bytes 0 to 191 of a report (R527). -/
def State.reportBody (s : State) (image nonce : Nat) : Nat :=
  1 + s.rollbackCounter % 2 ^ 32 * 2 ^ 32 + Config.imageVersion image % 2 ^ 64 * 2 ^ 64 + nonce % 2 ^ 256 * 2 ^ 128 +
    (List.range 4).foldl (fun n i => n + digestBytes (Tab.get 0 s.pkg.meas i) * 2 ^ (8 * (48 + 32 * i))) 0 +
    s.now 0 % 2 ^ 64 * 2 ^ (8 * 176) + s.pkg.number * 2 ^ (8 * 184)

/-- ATTESTATION_REPORT (R527): a report of one nonce, signed. A package without firmware gives none. -/
def execAttestationReport (nonce : Nat) (s : State) : Host.Outcome State Fault Refusal :=
  match s.pkg.image with
  | none => .next s
  | some i =>
    let body := s.reportBody i nonce
    let report := body + (Config.signature body).toNat * 2 ^ (8 * 192)
    .next { s with pkg := { s.pkg with nonce := some (nonce % 2 ^ 256), report := some report } }

/-! ### The CXL port (R318, R479) -/

/-- HOST_CXL_ACCESS (R318): a read or a write of a line of a device-bias page, performed at its home like an access of the home die. It waits
while the page is being flipped or its home sleeps; a home that is gone performs nothing. -/
def execHostCxlAccess (store : Bool) (pa data : Nat) (s : State) : Host.Outcome State Fault Refusal :=
  let l := pa / 64
  if !s.local_ pa || decide (Config.hbmBytes ≤ bits pa 35 0) then .next s
  else if s.flips.any fun f => inPage f.base f.size l then .next (s.post (.hostCxlAccess store pa data))
  else match s.homeState pa with
    | .stall => .next (s.post (.hostCxlAccess store pa data))
    | .ok _ _ =>
      let s := s.recall l
      let h := (s.die (homeDie pa)).home
      if store then
        let s := (s.stampWrite l h).1
        .next ({ s with mem := s.mem.writeN (l * 64) 64 (data % 2 ^ 512) }.dropL1 l fun _ y => y.outside)
      else
        let s := if s.poisoned pa then s.tellPoison 0xFFFF (l * 64) else s
        .next (s.stampRead l h).1
    | _ => .next s

/-- The host command BIASFLIP (R319, R491): `page` is the address of the page's leaf. A page that has the bias already is done at once; a flip
that an instruction waits for comes first. -/
def execBiasflip (seq page : Nat) (host : Bool) (s : State) : Host.Outcome State Fault Refusal :=
  s.command (.biasflip seq page host) seq 0xFFFF readyForCommands false fun s =>
    let pte := s.mem.readN page 8
    let (base, size) := pageOf pte 3
    if !pteV pte || !pteLeaf pte then s.rejected seq
    else if s.flips.any fun f => f.pteAt == page then s.post (.biasflip seq page host)
    else if pteBias pte = host then s.done seq
    else if host then ((s.dropPage base size).flipDone page true).done seq
    else s.flipAsk page base size seq none

end Sys2Proof.Machine
end

