-- ==== Sys2Proof/Machine/Agenda.lean ====
section
/-! DEFINITION. The events that the agenda of a state holds (log 1): what each does, which die each needs, and those that time brings about
(R264, R274, R277, R300, R303, R349, R485, R486). -/

namespace Sys2Proof

namespace Machine

/-- Performs an event of the schedule by its meaning. -/
def runEvent (v : Event) (s : State) : Host.Outcome State Fault Refusal :=
  match v with
  | .resultArrival k i => Sys2Proof.Machine.execResultArrival k i s
  | .trapEntry k => Sys2Proof.Machine.execTrapEntry k s
  | .translatedAccess r => Sys2Proof.Machine.execTranslatedAccess r s
  | .pageWalk die asid va => Sys2Proof.Machine.execPageWalk die asid va s
  | .pageFaultAnswer k => Sys2Proof.Machine.execPageFaultAnswer k s
  | .replyResume k => Sys2Proof.Machine.execReplyResume k s
  | .replySignal k => Sys2Proof.Machine.execReplySignal k s
  | .replyKill k => Sys2Proof.Machine.execReplyKill k s
  | .unitFaultReply handle code => Sys2Proof.Machine.execUnitFaultReply handle code s
  | .rangeLockGrant die => Sys2Proof.Machine.execRangeLockGrant die s
  | .renewal k pa => Sys2Proof.Machine.execRenewal k pa s
  | .writeBack die line => Sys2Proof.Machine.execWriteBack die line s
  | .recallLine line => Sys2Proof.Machine.execRecallLine line s
  | .ownedLineTimeout die line => Sys2Proof.Machine.execOwnedLineTimeout die line s
  | .tokenReturn home src => Sys2Proof.Machine.execTokenReturn home src s
  | .tokenArrival home src => Sys2Proof.Machine.execTokenArrival home src s
  | .ltimeTick die => Sys2Proof.Machine.execLtimeTick die s
  | .lineTimestampVisit line => Sys2Proof.Machine.execLineTimestampVisit line s
  | .scWindowClose die => Sys2Proof.Machine.execScWindowClose die s
  | .scCompletion k => Sys2Proof.Machine.execScCompletion k s
  | .messageArrival core => Sys2Proof.Machine.execMessageArrival core s
  | .bounce core => Sys2Proof.Machine.execBounce core s
  | .handlerStart core => Sys2Proof.Machine.execHandlerStart core s
  | .distributorOffer die => Sys2Proof.Machine.execDistributorOffer die s
  | .hostMessage evq => Sys2Proof.Machine.execHostMessage evq s
  | .followerExecute k => Sys2Proof.Machine.execFollowerExecute k s
  | .stealProbe core => Sys2Proof.Machine.execStealProbe core s
  | .stealClaim core => Sys2Proof.Machine.execStealClaim core s
  | .claimIncrementDone core => Sys2Proof.Machine.execClaimIncrementDone core s
  | .stealDispatch core => Sys2Proof.Machine.execStealDispatch core s
  | .stealBackoff core => Sys2Proof.Machine.execStealBackoff core s
  | .rootDispatch slot => Sys2Proof.Machine.execRootDispatch slot s
  | .donationEntry q => Sys2Proof.Machine.execDonationEntry q s
  | .syncWake k => Sys2Proof.Machine.execSyncWake k s
  | .syncPoll k => Sys2Proof.Machine.execSyncPoll k s
  | .overflowSpill core kind => Sys2Proof.Machine.execOverflowSpill core kind s
  | .overflowRefill core kind => Sys2Proof.Machine.execOverflowRefill core kind s
  | .teamTimeout core => Sys2Proof.Machine.execTeamTimeout core s
  | .barxRelease cluster team b => Sys2Proof.Machine.execBarxRelease cluster team b s
  | .mbxwTimeout k => Sys2Proof.Machine.execMbxwTimeout k s
  | .ctrwTimeout k => Sys2Proof.Machine.execCtrwTimeout k s
  | .wfiTimeout k => Sys2Proof.Machine.execWfiTimeout k s
  | .copySegment die unit => Sys2Proof.Machine.execCopySegment die unit s
  | .copymUnit die unit => Sys2Proof.Machine.execCopymUnit die unit s
  | .getChunk die unit => Sys2Proof.Machine.execGetChunk die unit s
  | .putChunk die unit => Sys2Proof.Machine.execPutChunk die unit s
  | .denseShard die => Sys2Proof.Machine.execDenseShard die s
  | .byteAcknowledgement core => Sys2Proof.Machine.execByteAcknowledgement core s
  | .engineResume die unit => Sys2Proof.Machine.execEngineResume die unit s
  | .completionInterrupt k => Sys2Proof.Machine.execCompletionInterrupt k s
  | .residualHoldSend cluster => Sys2Proof.Machine.execResidualHoldSend cluster s
  | .leaseGrant cluster => Sys2Proof.Machine.execLeaseGrant cluster s
  | .leaseSpent core => Sys2Proof.Machine.execLeaseSpent core s
  | .leasedCommandStart cluster => Sys2Proof.Machine.execLeasedCommandStart cluster s
  | .leasedCommandComplete core => Sys2Proof.Machine.execLeasedCommandComplete core s
  | .slotFillComplete cluster slot => Sys2Proof.Machine.execSlotFillComplete cluster slot s
  | .indexEngineEvent k => Sys2Proof.Machine.execIndexEngineEvent k s
  | .accumulatorSpill cluster i => Sys2Proof.Machine.execAccumulatorSpill cluster i s
  | .partHomeEvent k => Sys2Proof.Machine.execPartHomeEvent k s
  | .haloPush die => Sys2Proof.Machine.execHaloPush die s
  | .gridLoadTimeout k => Sys2Proof.Machine.execGridLoadTimeout k s
  | .gwaitTimeout k => Sys2Proof.Machine.execGwaitTimeout k s
  | .ltsetWrite k x => Sys2Proof.Machine.execLtsetWrite k x s
  | .ltperiodWrite die x => Sys2Proof.Machine.execLtperiodWrite die x s
  | .tepcWrite k x => Sys2Proof.Machine.execTepcWrite k x s
  | .tailWrite q tail size => Sys2Proof.Machine.execTailWrite q tail size s
  | .queueEntryRead q => Sys2Proof.Machine.execQueueEntryRead q s
  | .phaseReread q => Sys2Proof.Machine.execPhaseReread q s
  | .queueBind => Sys2Proof.Machine.execQueueBind s
  | .ageingQuantum q => Sys2Proof.Machine.execAgeingQuantum q s
  | .notbeforePassed q => Sys2Proof.Machine.execNotbeforePassed q s
  | .limitExpiry slot => Sys2Proof.Machine.execLimitExpiry slot s
  | .eventVectorSignal evq => Sys2Proof.Machine.execEventVectorSignal evq s
  | .eventHeadAdvance evq head => Sys2Proof.Machine.execEventHeadAdvance evq head s
  | .createQueue seq q f => Sys2Proof.Machine.execCreateQueue seq q f s
  | .destroyQueue seq q => Sys2Proof.Machine.execDestroyQueue seq q s
  | .createEvq seq evq base entries header vector => Sys2Proof.Machine.execCreateEvq seq evq base entries header vector s
  | .setQuantum seq ns => Sys2Proof.Machine.execSetQuantum seq ns s
  | .setReserve seq die map => Sys2Proof.Machine.execSetReserve seq die map s
  | .endLaunch seq slot => Sys2Proof.Machine.execEndLaunch seq slot s
  | .preempt seq slot area len => Sys2Proof.Machine.execPreempt seq slot area len s
  | .restore seq slot => Sys2Proof.Machine.execRestore seq slot s
  | .biasflip seq page host => Sys2Proof.Machine.execBiasflip seq page host s
  | .scrub seq page => Sys2Proof.Machine.execScrub seq page s
  | .dieLost seq die => Sys2Proof.Machine.execDieLost seq die s
  | .setClock seq die mhz => Sys2Proof.Machine.execSetClock seq die mhz s
  | .setPower seq die state => Sys2Proof.Machine.execSetPower seq die state s
  | .warmReset seq die => Sys2Proof.Machine.execWarmReset seq die s
  | .clusterGate seq cluster gate => Sys2Proof.Machine.execClusterGate seq cluster gate s
  | .setEnvelope seq watts => Sys2Proof.Machine.execSetEnvelope seq watts s
  | .setPkgnum seq n => Sys2Proof.Machine.execSetPkgnum seq n s
  | .setRoute seq f => Sys2Proof.Machine.execSetRoute seq f s
  | .setGm seq die sysref => Sys2Proof.Machine.execSetGm seq die sysref s
  | .hostcmd seq core payload => Sys2Proof.Machine.execHostcmd seq core payload s
  | .thermalTrip sensor => Sys2Proof.Machine.execThermalTrip sensor s
  | .coolantFlowTrip => Sys2Proof.Machine.execCoolantFlowTrip s
  | .bringUp => Sys2Proof.Machine.execBringUp s
  | .attestationReport nonce => Sys2Proof.Machine.execAttestationReport nonce s
  | .monitorControlWrite die unit x => Sys2Proof.Machine.execMonitorControlWrite die unit x s
  | .monitorClear die unit => Sys2Proof.Machine.execMonitorClear die unit s
  | .monitorLevelSample die unit => Sys2Proof.Machine.execMonitorLevelSample die unit s
  | .treutExchange die => Sys2Proof.Machine.execTreutExchange die s
  | .treutSyncReceive die => Sys2Proof.Machine.execTreutSyncReceive die s
  | .followUpReceive die => Sys2Proof.Machine.execFollowUpReceive die s
  | .delayReqReceive die => Sys2Proof.Machine.execDelayReqReceive die s
  | .delayRespReceive die => Sys2Proof.Machine.execDelayRespReceive die s
  | .exchangeMissed die => Sys2Proof.Machine.execExchangeMissed die s
  | .linkRetry link => Sys2Proof.Machine.execLinkRetry link s
  | .hostCxlAccess store pa data => Sys2Proof.Machine.execHostCxlAccess store pa data s
  | .hostWritebackCompletion page => Sys2Proof.Machine.execHostWritebackCompletion page s

/-- The die whose cores, slices or units perform an event; none for what the management complex, the clocks or the links do. -/
def eventDie : Event → Option Nat
  | .resultArrival k _ | .trapEntry k | .pageFaultAnswer k | .replyResume k | .replySignal k | .replyKill k | .scCompletion k
  | .followerExecute k | .syncWake k | .syncPoll k | .mbxwTimeout k | .ctrwTimeout k | .wfiTimeout k | .completionInterrupt k
  | .indexEngineEvent k | .partHomeEvent k | .gridLoadTimeout k | .gwaitTimeout k => some (dieOf (coreOf k))
  | .translatedAccess r => some (dieOf (coreOf r.k))
  | .renewal k _ => some (dieOf (coreOf k))
  | .messageArrival c | .bounce c | .handlerStart c | .stealProbe c | .stealClaim c | .claimIncrementDone c | .stealDispatch c
  | .stealBackoff c | .overflowSpill c _ | .overflowRefill c _ | .teamTimeout c | .byteAcknowledgement c | .leaseSpent c
  | .leasedCommandComplete c => some (dieOf c)
  | .barxRelease n _ _ | .residualHoldSend n | .leaseGrant n | .leasedCommandStart n | .slotFillComplete n _ => some (n / 32)
  | .accumulatorSpill n _ => some (n / 32)
  | .pageWalk d _ _ | .rangeLockGrant d | .scWindowClose d | .distributorOffer d | .copySegment d _ | .copymUnit d _ | .getChunk d _
  | .putChunk d _ | .denseShard d | .engineResume d _ | .haloPush d | .writeBack d _ => some d
  | .unitFaultReply h _ => some (bits h 43 41)
  | _ => none

/-- Performs an event of the agenda. What needs a die that sleeps waits for it, and what needs one that is off or lost does not happen
(R517). -/
def State.event (s : State) (v : Event) : Host.Outcome State Fault Refusal :=
  match eventDie v with
  | none => runEvent v s
  | some d =>
    if (s.die d).lost then .next s
    else match (s.die d).power with
      | .d0 => runEvent v s
      | .d1 | .d2 => .next (s.post v)
      | .d3 => .next s

/-! ### What time brings about -/

/-- The event by which a waiting instruction's deadline passes. -/
def timeoutEvent (k : Nat) : Instr → Option Event
  | .mbxw .. => some (.mbxwTimeout k)
  | .ctrw .. => some (.ctrwTimeout k)
  | .wfi => some (.wfiTimeout k)
  | .ldg .. => some (.gridLoadTimeout k)
  | .gwait .. => some (.gwaitTimeout k)
  | .team .. => some (.teamTimeout (coreOf k))
  | .sync => some (.syncPoll k)
  | _ => none

/-- The deadlines of a context's waiting instructions. -/
def State.waitTimers (s : State) (k : Nat) (c : Ctx) : List (Nat × Event) :=
  c.win.outst.filterMap fun o => match o.res with
    | .pend i _ w => (w.deadline.bind fun t => (timeoutEvent k i).map fun v => (s.left (dieOf (coreOf k)) t, v))
    | _ => none

/-- The tokens that homes owe die d, each within 256 ns of the write (R281). -/
def State.tokenTimers (s : State) (d : Nat) : List (Nat × Event) :=
  ((s.die d).owing.filter fun e => !(decide (e.1 < 8) && ((s.die e.1).power != .d0 || (s.die e.1).lost))).map fun e =>
    (s.left (if e.1 < 8 then e.1 else d) (e.2 + 256 * 65536), .tokenReturn e.1 d)

/-- An event would change something. -/
def State.moves (s : State) (v : Event) : Bool := match runEvent v s with
  | .next t => decide (t ≠ s)
  | _ => false

/-- Requests that the units of die d can serve now (R335), registrations that are ready (R340), and pushes that can be stamped (R454). -/
def State.unitTimers (s : State) (d : Nat) : List (Nat × Event) :=
  ((s.die d).inbox.flatMap fun e => ((e.2.take inboxServed).filter fun r => r.fault.isNone).map fun r => (0, r.event d e.1)).filter (fun t => s.moves t.2) ++
    (if s.letsIn d then [(0, .rangeLockGrant d)] else []) ++
    if (s.pushes.any fun x => x.to_ == d && x.error.isNone) && s.moves (.haloPush d) then [(0, .haloPush d)] else []

/-- A cluster's leased command that can start, and its fills that can go on (R387, R396). -/
def State.arrayTimers (s : State) (cl : Nat) (x : Cluster) : List (Nat × Event) :=
  ((if (s.holder cl).isSome then [(0, Event.leasedCommandStart cl)] else []) ++
    (x.slots.filter fun (e : Nat × Slot) => e.2.state == SlotState.filling).map fun (e : Nat × Slot) => (0, Event.slotFillComplete cl e.1)).filter fun t => s.moves t.2

/-- The ticks, exchanges, owned lines, tokens, distributor and units of die d. -/
def State.dieTimers (s : State) (d : Nat) : List (Nat × Event) :=
  let x := s.die d
  if !x.up || x.lost || x.power == .d3 then []
  else
    (s.left d (x.nextTick * 65536), Event.ltimeTick d) ::
      (if s.exchanges d then [(s.left d (s.exchangeAt d), .treutExchange d)] else []) ++
      (x.owned.filter fun e => e.2.dirty).map (fun e => (s.left d (e.2.since + microsecond), Event.ownedLineTimeout d e.1)) ++ s.tokenTimers d ++
      (if (s.offered d).isSome then [(0, .distributorOffer d)] else []) ++ s.unitTimers d

/-- What a core's steal engine, selector and deque can do now (R213, R240, R247, R248, R254), and the pauses of the engine. -/
def State.coreTimers (s : State) (c : Nat) (x : Core) : List (Nat × Event) :=
  (match x.steal.resumeAt with
  | some t => [(s.left (dieOf c) t, Event.stealBackoff c)]
  | none => []) ++
    (if (s.choice c).isSome then [(0, .handlerStart c)] else []) ++ (if s.probing c then [(0, .stealProbe c)] else []) ++
    (if (s.nextIncrement c).isSome then [(0, .claimIncrementDone c)] else []) ++ (if (s.nextLanding c).isSome then [(0, .stealDispatch c)] else []) ++
    if s.refillsNow c then [(0, .overflowRefill c 0)] else []

/-- The ports that deliver (R229), and the watches that wake (R252). -/
def State.portTimers (s : State) (k : Nat) (c : Ctx) : List (Nat × Event) :=
  (if s.portMoves c then [(0, Event.followerExecute k)] else []) ++ if s.wakes k c then [(0, .syncWake k)] else []

/-- The ages and start times of the queues, the LIMITs of the launches, and root frames that can be dispatched. -/
def State.hostTimers (s : State) : List (Nat × Event) :=
  (s.queues.filterMap fun e =>
    if s.isPending e.1 e.2 then some (s.left 0 (e.2.since + ((s.now 0 - e.2.since) / s.quantum + 1) * s.quantum), Event.ageingQuantum e.1)
    else if e.2.ready.isSome && !e.2.failed && decide (s.now 0 < e.2.notBefore) then some (s.left 0 e.2.notBefore, .notbeforePassed e.1) else none) ++
  (s.launches.filterMap fun e => e.2.limitAt.map fun t => (s.left 0 t, Event.limitExpiry e.1)) ++
  (s.launches.filter fun e => (s.dispatchRoot e.1).isSome).map fun e => (0, Event.rootDispatch e.1)

/-- Everything that time will bring about: how long until then, and the event. -/
def State.timers (s : State) : List (Nat × Event) :=
  (List.range 8).flatMap s.dieTimers ++ s.ctxs.flatMap (fun e => s.waitTimers e.1 e.2 ++ s.portTimers e.1 e.2) ++ s.cores.flatMap (fun e => s.coreTimers e.1 e.2) ++
    s.clusters.flatMap (fun e => s.arrayTimers e.1 e.2) ++ s.hostTimers

/-- The leases that have run out (R373). -/
def State.spentLeases (s : State) : List Event :=
  (s.cores.filter fun e => e.2.lease.state == .held && e.2.lease.out (s.arrayCycle e.1)).map fun e => .leaseSpent e.1

/-- The accumulator entry of each slice that has not been touched for 4,096 cycles of its die, if there is one (R424). -/
def State.agedEntries (s : State) : List Event :=
  s.acc.filterMap fun (e : Nat × List AccEntry) =>
    (e.2.findIdx? fun a => decide (a.touch + 4096 ≤ (s.die (e.1 / 32)).cyc)).map fun i => .accumulatorSpill e.1 i

/-- What is due is put on the agenda, each event once. -/
def State.postDue (s : State) : State :=
  let due := (s.timers.filter fun t => t.1 == 0).map (·.2) ++ s.spentLeases ++ s.agedEntries
  due.foldl (fun s v => if s.agenda.contains v then s else s.post v) s

/-- The nearest of what time will bring about. -/
def nearest : List (Nat × Event) → Option (Nat × Event)
  | [] => none
  | t :: ts => match nearest ts with
    | some u => if u.1 < t.1 then some u else some t
    | none => some t

/-- Nothing can go on: the nearest of what time brings about is put on the agenda. -/
def State.postNearest (s : State) : State := match nearest s.timers with
  | some t => s.post t.2
  | none => s

/-- Time passes at a step, on every die by its own clock: how much, and how each clock strays, is free (R30, R33, R274, log 3). The grandmaster's
`TCLK` is the reference that the others stray from. -/
def State.elapse (s : State) : State :=
  { s with dies := s.dies.map fun e =>
             (e.1, e.2.ran (Config.elapsedClock s.ticks)
               (if e.1 = s.pkg.gmDie then Config.stray e.1 s.ticks % cycleUnit else Config.stray e.1 s.ticks)),
           ticks := s.ticks + 1 }

end Machine

end Sys2Proof
end

