-- ==== Sys2Proof/Machine/Branch.lean ====
section
/-! DEFINITION. Branches, jumps, `NOP` and `HINT` (R50, R147 to R153). -/

namespace Sys2Proof.Machine

/-- The context goes on at an address. -/
def State.jump (s : State) (k : Nat) (t : Word) : State := s.modCtx k fun c => { c with pc := t }

/-- A conditional branch: taken to its target, or on to the next instruction (R147). -/
def branchOp (s : State) (i : Instr) (taken : Env → Bool) (target : Env → Word) : Host.Outcome State Fault Refusal :=
  s.issue i 0 fun e s' => .done [] (if taken e then s'.jump e.k (target e) else s')

/-- BEQ (R147). -/
def execBeq (a b : Reg) (p : BitVec 12) (s : State) : Host.Outcome State Fault Refusal :=
  branchOp s (.beq a b p) (fun e => e.s a == e.s b) (·.target p)

/-- BNE (R147). -/
def execBne (a b : Reg) (p : BitVec 12) (s : State) : Host.Outcome State Fault Refusal :=
  branchOp s (.bne a b p) (fun e => e.s a != e.s b) (·.target p)

/-- BLT (R147). -/
def execBlt (a b : Reg) (p : BitVec 12) (s : State) : Host.Outcome State Fault Refusal :=
  branchOp s (.blt a b p) (fun e => (e.s a).slt (e.s b)) (·.target p)

/-- BGE (R147). -/
def execBge (a b : Reg) (p : BitVec 12) (s : State) : Host.Outcome State Fault Refusal :=
  branchOp s (.bge a b p) (fun e => !(e.s a).slt (e.s b)) (·.target p)

/-- BLTU (R147). -/
def execBltu (a b : Reg) (p : BitVec 12) (s : State) : Host.Outcome State Fault Refusal :=
  branchOp s (.bltu a b p) (fun e => (e.s a).ult (e.s b)) (·.target p)

/-- BGEU (R147). -/
def execBgeu (a b : Reg) (p : BitVec 12) (s : State) : Host.Outcome State Fault Refusal :=
  branchOp s (.bgeu a b p) (fun e => !(e.s a).ult (e.s b)) (·.target p)

/-- BKANY (R147, R148): all 64 bits of the mask register are tested. -/
def execBkany (k : KReg) (p : BitVec 12) (s : State) : Host.Outcome State Fault Refusal :=
  branchOp s (.bkany k p) (fun e => e.m k != 0) (·.target p)

/-- BKNONE (R147, R148). -/
def execBknone (k : KReg) (p : BitVec 12) (s : State) : Host.Outcome State Fault Refusal :=
  branchOp s (.bknone k p) (fun e => e.m k == 0) (·.target p)

/-- BEQZ.N (R50). -/
def execBeqzN (a : BitVec 3) (p : BitVec 8) (s : State) : Host.Outcome State Fault Refusal :=
  branchOp s (.beqzN a p) (fun e => e.s (regN a) == 0) (·.target p)

/-- BNEZ.N (R50). -/
def execBnezN (a : BitVec 3) (p : BitVec 8) (s : State) : Host.Outcome State Fault Refusal :=
  branchOp s (.bnezN a p) (fun e => e.s (regN a) != 0) (·.target p)

/-- JL (R149): the link is the address after the instruction. -/
def execJl (d : Reg) (i : BitVec 20) (s : State) : Host.Outcome State Fault Refusal :=
  s.issue (.jl d i) 0 fun e s' => .done [.s d e.next] (s'.jump e.k (e.target i))

/-- J.N (R50): `JL s0`. -/
def execJN (p : BitVec 11) (s : State) : Host.Outcome State Fault Refusal :=
  s.issue (.jN p) 0 fun e s' => .done [] (s'.jump e.k (e.target p))

/-- The indirect jump of R150: an odd target traps with 0x03, and nothing is written. -/
def jumpReg (d a : Reg) (e : Env) (s : State) : Att :=
  if (e.s a).toNat % 2 = 1 then .trap false 0x03 (e.n a) s else .done [.s d e.next] (s.jump e.k (e.s a))

/-- JLR (R150). -/
def execJlr (d a : Reg) (s : State) : Host.Outcome State Fault Refusal := s.issue (.jlr d a) 0 (jumpReg d a)

/-- JR.N (R50): `JLR s0`. -/
def execJrN (a : Reg) (s : State) : Host.Outcome State Fault Refusal := s.issue (.jrN a) 0 (jumpReg 0 a)

/-- NOP (R153). -/
def execNop (s : State) : Host.Outcome State Fault Refusal := s.issue .nop 0 fun _ s' => .done [] s'

/-- HINT (R153): executes as `NOP`. -/
def execHint (s : State) : Host.Outcome State Fault Refusal := s.issue .hint 0 fun _ s' => .done [] s'

/-- YIELD (R152): until every other ready context of the core has issued, the core issues no further instruction of this one; they are
noted, and `step` passes this context over meanwhile. -/
def execYield (s : State) : Host.Outcome State Fault Refusal :=
  s.issue .yield 0 fun e s' =>
    let others := ((List.range 8).map fun i => e.core * 8 + i).filter fun j => j != e.k && (s'.ctx j).issues
    .done [] (s'.modCtx e.k fun c => { c with yielded := others })

end Sys2Proof.Machine
end

