-- ==== Sys2Proof/Machine/IntAlu.lean ====
section
/-! DEFINITION. The 32 integer register-register instructions of major 0x00 (R136 to R139): one function F for each, and the mould they
share. -/

namespace Sys2Proof.Machine

/-- The mould of R136: the result of F on the values at issue goes to sD. -/
def aluOp (s : State) (i : Instr) (l : La) (d : Reg) (f : Env → Word) : Host.Outcome State Fault Refusal :=
  s.compute i l fun e => [.s d (f e)]

/-- A division: a zero divisor traps with 0x05 and the dividend (R138). -/
def divOp (s : State) (i : Instr) (l : La) (d a b : Reg) (f : Word → Word → Word) : Host.Outcome State Fault Refusal :=
  s.issue i l.toNat fun e s' => if e.s b = 0 then .trap true 0x05 (e.n a) s' else .done [.s d (f (e.s a) (e.s b))] s'

/-- High half of the signed product (R137). -/
def mulHigh (a b : Word) : Word := ((a.signExtend 128 * b.signExtend 128) >>> 64).setWidth 64

/-- High half of the unsigned product (R137). -/
def mulHighU (a b : Word) : Word := ((a.setWidth 128 * b.setWidth 128) >>> 64).setWidth 64

/-- The shift amount b[5:0] (R137). -/
def amount (b : Word) : Nat := b.toNat % 64

/-- One if a condition holds, else zero. -/
def word (b : Bool) : Word := if b then 1 else 0

/-- The width that a width code names: 8, 16 or 32 bits (R139). -/
def widthOf (w : BitVec 5) : Nat := match w.toNat with
  | 0 => 8
  | 1 => 16
  | _ => 32

/-- A field of a (R139): from bit P of the control word's position, of its length. -/
def bitField (a b : Word) : Word :=
  BitVec.ofNat 64 (a.toNat / 2 ^ (b.toNat % 64) % 2 ^ min (bits b.toNat 14 8) 64)

/-- The value d with a field replaced by the low bits of a (R139). -/
def bitInsert (a b d : Word) : Word :=
  let p := b.toNat % 64
  let m : Word := BitVec.ofNat 64 ((2 ^ min (bits b.toNat 14 8) 64 - 1) * 2 ^ p)
  (d &&& ~~~m) ||| ((a <<< p) &&& m)

/-- The signed sum clamped to 64 bits (R137, R75). -/
def addSat (a b : Word) : Word :=
  let x := a.toInt + b.toInt
  if x < -(2 ^ 63) then BitVec.ofInt 64 (-(2 ^ 63)) else if 2 ^ 63 - 1 < x then BitVec.ofInt 64 (2 ^ 63 - 1) else BitVec.ofInt 64 x

/-- ADD (R137). -/
def execAdd (l : La) (d a b : Reg) (s : State) : Host.Outcome State Fault Refusal :=
  aluOp s (.add l d a b) l d fun e => e.s a + e.s b

/-- SUB (R137). -/
def execSub (l : La) (d a b : Reg) (s : State) : Host.Outcome State Fault Refusal :=
  aluOp s (.sub l d a b) l d fun e => e.s a - e.s b

/-- MUL (R137). -/
def execMul (l : La) (d a b : Reg) (s : State) : Host.Outcome State Fault Refusal :=
  aluOp s (.mul l d a b) l d fun e => e.s a * e.s b

/-- MULH (R137). -/
def execMulh (l : La) (d a b : Reg) (s : State) : Host.Outcome State Fault Refusal :=
  aluOp s (.mulh l d a b) l d fun e => mulHigh (e.s a) (e.s b)

/-- MULHU (R137). -/
def execMulhu (l : La) (d a b : Reg) (s : State) : Host.Outcome State Fault Refusal :=
  aluOp s (.mulhu l d a b) l d fun e => mulHighU (e.s a) (e.s b)

/-- DIV (R137, R138): truncated toward zero; −2^63 / −1 gives −2^63. -/
def execDiv (l : La) (d a b : Reg) (s : State) : Host.Outcome State Fault Refusal :=
  divOp s (.div l d a b) l d a b fun x y => x.sdiv y

/-- DIVU (R137, R138). -/
def execDivu (l : La) (d a b : Reg) (s : State) : Host.Outcome State Fault Refusal :=
  divOp s (.divu l d a b) l d a b fun x y => x / y

/-- REM (R137, R138): the sign of the dividend; −2^63 rem −1 gives 0. -/
def execRem (l : La) (d a b : Reg) (s : State) : Host.Outcome State Fault Refusal :=
  divOp s (.rem l d a b) l d a b fun x y => x.srem y

/-- REMU (R137, R138). -/
def execRemu (l : La) (d a b : Reg) (s : State) : Host.Outcome State Fault Refusal :=
  divOp s (.remu l d a b) l d a b fun x y => x % y

/-- AND (R137). -/
def execAnd (l : La) (d a b : Reg) (s : State) : Host.Outcome State Fault Refusal :=
  aluOp s (.and l d a b) l d fun e => e.s a &&& e.s b

/-- OR (R137). -/
def execOr (l : La) (d a b : Reg) (s : State) : Host.Outcome State Fault Refusal :=
  aluOp s (.or l d a b) l d fun e => e.s a ||| e.s b

/-- XOR (R137). -/
def execXor (l : La) (d a b : Reg) (s : State) : Host.Outcome State Fault Refusal :=
  aluOp s (.xor l d a b) l d fun e => e.s a ^^^ e.s b

/-- ANDN (R137). -/
def execAndn (l : La) (d a b : Reg) (s : State) : Host.Outcome State Fault Refusal :=
  aluOp s (.andn l d a b) l d fun e => e.s a &&& ~~~e.s b

/-- SHL (R137). -/
def execShl (l : La) (d a b : Reg) (s : State) : Host.Outcome State Fault Refusal :=
  aluOp s (.shl l d a b) l d fun e => e.s a <<< amount (e.s b)

/-- SHR (R137). -/
def execShr (l : La) (d a b : Reg) (s : State) : Host.Outcome State Fault Refusal :=
  aluOp s (.shr l d a b) l d fun e => e.s a >>> amount (e.s b)

/-- SAR (R137). -/
def execSar (l : La) (d a b : Reg) (s : State) : Host.Outcome State Fault Refusal :=
  aluOp s (.sar l d a b) l d fun e => (e.s a).sshiftRight (amount (e.s b))

/-- ROTR (R137). -/
def execRotr (l : La) (d a b : Reg) (s : State) : Host.Outcome State Fault Refusal :=
  aluOp s (.rotr l d a b) l d fun e => (e.s a).rotateRight (amount (e.s b))

/-- MIN (R137). -/
def execMin (l : La) (d a b : Reg) (s : State) : Host.Outcome State Fault Refusal :=
  aluOp s (.min l d a b) l d fun e => if (e.s a).slt (e.s b) then e.s a else e.s b

/-- MAX (R137). -/
def execMax (l : La) (d a b : Reg) (s : State) : Host.Outcome State Fault Refusal :=
  aluOp s (.max l d a b) l d fun e => if (e.s a).slt (e.s b) then e.s b else e.s a

/-- MINU (R137). -/
def execMinu (l : La) (d a b : Reg) (s : State) : Host.Outcome State Fault Refusal :=
  aluOp s (.minu l d a b) l d fun e => if (e.s a).ult (e.s b) then e.s a else e.s b

/-- MAXU (R137). -/
def execMaxu (l : La) (d a b : Reg) (s : State) : Host.Outcome State Fault Refusal :=
  aluOp s (.maxu l d a b) l d fun e => if (e.s a).ult (e.s b) then e.s b else e.s a

/-- SLT (R137). -/
def execSlt (l : La) (d a b : Reg) (s : State) : Host.Outcome State Fault Refusal :=
  aluOp s (.slt l d a b) l d fun e => word ((e.s a).slt (e.s b))

/-- SLTU (R137). -/
def execSltu (l : La) (d a b : Reg) (s : State) : Host.Outcome State Fault Refusal :=
  aluOp s (.sltu l d a b) l d fun e => word ((e.s a).ult (e.s b))

/-- SEQ (R137). -/
def execSeq (l : La) (d a b : Reg) (s : State) : Host.Outcome State Fault Refusal :=
  aluOp s (.seq l d a b) l d fun e => word (e.s a == e.s b)

/-- CLZ (R137): 64 for zero. -/
def execClz (l : La) (d a : Reg) (s : State) : Host.Outcome State Fault Refusal :=
  aluOp s (.clz l d a) l d fun e => BitVec.ofNat 64 (64 - bitLen (e.n a))

/-- CTZ (R137): 64 for zero. -/
def execCtz (l : La) (d a : Reg) (s : State) : Host.Outcome State Fault Refusal :=
  aluOp s (.ctz l d a) l d fun e => BitVec.ofNat 64 (ctz 64 (e.n a))

/-- POPC (R137). -/
def execPopc (l : La) (d a : Reg) (s : State) : Host.Outcome State Fault Refusal :=
  aluOp s (.popc l d a) l d fun e => BitVec.ofNat 64 (popcount 64 (e.n a))

/-- SEXT (R137, R139). -/
def execSext (l : La) (d a : Reg) (w : BitVec 5) (s : State) : Host.Outcome State Fault Refusal :=
  aluOp s (.sext l d a w) l d fun e => BitVec.ofInt 64 (sext (e.n a) (widthOf w))

/-- ZEXT (R137, R139). -/
def execZext (l : La) (d a : Reg) (w : BitVec 5) (s : State) : Host.Outcome State Fault Refusal :=
  aluOp s (.zext l d a w) l d fun e => BitVec.ofNat 64 (e.n a % 2 ^ widthOf w)

/-- BFX (R139). -/
def execBfx (l : La) (d a b : Reg) (s : State) : Host.Outcome State Fault Refusal :=
  aluOp s (.bfx l d a b) l d fun e => bitField (e.s a) (e.s b)

/-- BFI (R139): reads the old sD. -/
def execBfi (l : La) (d a b : Reg) (s : State) : Host.Outcome State Fault Refusal :=
  aluOp s (.bfi l d a b) l d fun e => bitInsert (e.s a) (e.s b) (e.s d)

/-- ADDSAT (R137): no flag (R75). -/
def execAddsat (l : La) (d a b : Reg) (s : State) : Host.Outcome State Fault Refusal :=
  aluOp s (.addsat l d a b) l d fun e => addSat (e.s a) (e.s b)

end Sys2Proof.Machine
end

