-- ==== Sys2Proof/Machine/Imm.lean ====
section
/-! DEFINITION. The immediate instructions of majors 0x01 to 0x03 (R140 to R142). None has a lookahead count. -/

namespace Sys2Proof.Machine

/-- A shift or rotation of R141 by its kind: 0 SHL, 1 SHR, 2 SAR, 3 ROTR. -/
def shiftKind (k : BitVec 2) (a : Word) (n : Nat) : Word := match k.toNat with
  | 0 => a <<< n
  | 1 => a >>> n
  | 2 => a.sshiftRight n
  | _ => a.rotateRight n

/-- ADDI (R140). -/
def execAddi (d a : Reg) (i : BitVec 12) (s : State) : Host.Outcome State Fault Refusal :=
  aluOp s (.addi d a i) 0 d fun e => e.s a + imm i

/-- ANDI (R140). -/
def execAndi (d a : Reg) (i : BitVec 12) (s : State) : Host.Outcome State Fault Refusal :=
  aluOp s (.andi d a i) 0 d fun e => e.s a &&& imm i

/-- ORI (R140). -/
def execOri (d a : Reg) (i : BitVec 12) (s : State) : Host.Outcome State Fault Refusal :=
  aluOp s (.ori d a i) 0 d fun e => e.s a ||| imm i

/-- XORI (R140). -/
def execXori (d a : Reg) (i : BitVec 12) (s : State) : Host.Outcome State Fault Refusal :=
  aluOp s (.xori d a i) 0 d fun e => e.s a ^^^ imm i

/-- SLTI (R140). -/
def execSlti (d a : Reg) (i : BitVec 12) (s : State) : Host.Outcome State Fault Refusal :=
  aluOp s (.slti d a i) 0 d fun e => word ((e.s a).slt (imm i))

/-- SLTIU (R140): the immediate sign-extended, then read unsigned. -/
def execSltiu (d a : Reg) (i : BitVec 12) (s : State) : Host.Outcome State Fault Refusal :=
  aluOp s (.sltiu d a i) 0 d fun e => word ((e.s a).ult (imm i))

/-- SHIFTI (R141). -/
def execShifti (k : BitVec 2) (d a : Reg) (n : BitVec 6) (s : State) : Host.Outcome State Fault Refusal :=
  aluOp s (.shifti k d a n) 0 d fun e => shiftKind k (e.s a) n.toNat

/-- MULI (R140). -/
def execMuli (d a : Reg) (i : BitVec 12) (s : State) : Host.Outcome State Fault Refusal :=
  aluOp s (.muli d a i) 0 d fun e => e.s a * imm i

/-- LUI (R142). -/
def execLui (d : Reg) (i : BitVec 20) (s : State) : Host.Outcome State Fault Refusal :=
  aluOp s (.lui d i) 0 d fun _ => upper i

/-- AUIPC (R142): from the address of the instruction. -/
def execAuipc (d : Reg) (i : BitVec 20) (s : State) : Host.Outcome State Fault Refusal :=
  aluOp s (.auipc d i) 0 d fun e => e.pc + upper i

/-- ADDI.N (R50). -/
def execAddiN (d : Reg) (i : BitVec 6) (s : State) : Host.Outcome State Fault Refusal :=
  aluOp s (.addiN d i) 0 d fun e => e.s d + imm i

/-- LI.N (R50). -/
def execLiN (d : Reg) (i : BitVec 6) (s : State) : Host.Outcome State Fault Refusal :=
  aluOp s (.liN d i) 0 d fun _ => imm i

/-- SHLI.N (R50): an unsigned amount. -/
def execShliN (d : Reg) (i : BitVec 6) (s : State) : Host.Outcome State Fault Refusal :=
  aluOp s (.shliN d i) 0 d fun e => e.s d <<< i.toNat

/-- ADD.N (R50). -/
def execAddN (d a : Reg) (s : State) : Host.Outcome State Fault Refusal :=
  aluOp s (.addN d a) 0 d fun e => e.s d + e.s a

/-- SUB.N (R50). -/
def execSubN (d a : Reg) (s : State) : Host.Outcome State Fault Refusal :=
  aluOp s (.subN d a) 0 d fun e => e.s d - e.s a

/-- MV.N (R50). -/
def execMvN (d a : Reg) (s : State) : Host.Outcome State Fault Refusal :=
  aluOp s (.mvN d a) 0 d fun e => e.s a

end Sys2Proof.Machine
end

