-- ==== Sys2Proof/Machine/Mask.lean ====
section
/-! DEFINITION. The mask instructions of major 0x14 (R190): all 64 bits of a mask are written (R167). -/

namespace Sys2Proof.Machine

/-- A mask instruction into kD. -/
def maskOp (s : State) (i : Instr) (d : KReg) (f : Env → Word) : Host.Outcome State Fault Refusal := s.compute i 0 fun e => [.k d (f e)]

/-- A mask instruction into a scalar register. -/
def maskTo (s : State) (i : Instr) (d : Reg) (f : Env → Word) : Host.Outcome State Fault Refusal := s.compute i 0 fun e => [.s d (f e)]

/-- KAND (R190). -/
def execKand (d a b : KReg) (s : State) : Host.Outcome State Fault Refusal := maskOp s (.kand d a b) d fun e => e.m a &&& e.m b

/-- KOR (R190). -/
def execKor (d a b : KReg) (s : State) : Host.Outcome State Fault Refusal := maskOp s (.kor d a b) d fun e => e.m a ||| e.m b

/-- KXOR (R190). -/
def execKxor (d a b : KReg) (s : State) : Host.Outcome State Fault Refusal := maskOp s (.kxor d a b) d fun e => e.m a ^^^ e.m b

/-- KANDN (R190). -/
def execKandn (d a b : KReg) (s : State) : Host.Outcome State Fault Refusal := maskOp s (.kandn d a b) d fun e => e.m a &&& ~~~e.m b

/-- KNOT (R190). -/
def execKnot (d a : KReg) (s : State) : Host.Outcome State Fault Refusal := maskOp s (.knot d a) d fun e => ~~~e.m a

/-- KFROM (R190). -/
def execKfrom (d : KReg) (a : Reg) (s : State) : Host.Outcome State Fault Refusal := maskOp s (.kfrom d a) d fun e => e.s a

/-- KTO (R190). -/
def execKto (d : Reg) (a : KReg) (s : State) : Host.Outcome State Fault Refusal := maskTo s (.kto d a) d fun e => e.m a

/-- KPOP (R190). -/
def execKpop (d : Reg) (a : KReg) (s : State) : Host.Outcome State Fault Refusal :=
  maskTo s (.kpop d a) d fun e => BitVec.ofNat 64 (popcount 64 (e.m a).toNat)

/-- KFIRST (R190): 64 if no bit is set. -/
def execKfirst (d : Reg) (a : KReg) (s : State) : Host.Outcome State Fault Refusal :=
  maskTo s (.kfirst d a) d fun e => BitVec.ofNat 64 (ctz 64 (e.m a).toNat)

/-- KFILL (R190): the low min(sA, 64) bits set. -/
def execKfill (d : KReg) (a : Reg) (s : State) : Host.Outcome State Fault Refusal :=
  maskOp s (.kfill d a) d fun e => BitVec.ofNat 64 (2 ^ min (e.n a) 64 - 1)

end Sys2Proof.Machine
end

