-- ==== Sys2Proof/Machine/VCvt.lean ====
section
/-! DEFINITION. Conversion and element movement, major 0x12 (R181 to R186). -/

namespace Sys2Proof.Machine

/-- The control word of `VCVT` (R182). -/
structure Cvt where
  scale : Int
  w48 : Bool
  part : Nat
  sat : Bool
  mode : Nat
  src : ElTy
  deriving DecidableEq, Repr

/-- The fields of a control word. -/
def cvtOf (b : Word) : Cvt :=
  let x := b.toNat
  { scale := sext (bits x 23 16) 8, w48 := bit x 9, part := bits x 8 6, sat := bit x 5, mode := bits x 4 3, src := ElTy.ofCode (BitVec.ofNat 3 x) }

/-- Pairs that are not conversions (R184). -/
def Cvt.refused (c : Cvt) (t : ElTy) : Bool :=
  if c.w48 then !(t == .fp32 || t == .bf16)
  else
    let plain := fun (x : ElTy) => x.isInt || x == .fp64
    (t == .l6 && (plain c.src || c.src == .l6)) || (c.src == .l6 && plain t)

/-- One element converted (R76, R87 to R89, R94, R96, R100, R184). -/
def Cvt.element (c : Cvt) (t : ElTy) (x : Nat) : Flagged :=
  if c.w48 then w48Read (fmtOf t) c.sat c.scale x
  else if t = .l6 then toL6 c.scale ((fmtOf c.src).read x)
  else if c.src = .l6 then l6To (fmtOf t) c.scale x
  else if c.src.isInt then (if t.isInt then narrow c.sat t.width (sext x c.src.width) else (fmtOf t).ofInt c.mode (sext x c.src.width))
  else if t.isInt then (fmtOf c.src).toInt c.mode c.sat t.width x
  else (fmtOf c.src).convert (fmtOf t) c.mode x

/-- The conversion of a register (R183): destination element j takes a source element, or keeps its value. -/
def Cvt.apply (c : Cvt) (t : ElTy) (m : Word) (old a : VReg) : VReg × Nat :=
  let ws := if c.w48 then 64 else c.src.width
  let wd := t.width
  let n := 512 / max ws wd
  let p := c.part % (max ws wd / min ws wd)
  let xs := (List.range t.lanes).map fun j =>
    if !active m j then (elem wd old j, 0)
    else if wd < ws then (if p * n ≤ j ∧ j < p * n + n then c.element t (elem ws a (j - p * n)) else (elem wd old j, 0))
    else c.element t (elem ws a (p * n + j))
  (vecOf wd (xs.map (·.1)), xs.foldl (fun y x => y ||| x.2) 0)

/-- VCVT (R182 to R184): a pair that is no conversion traps with 0x01 and writes nothing. -/
def execVcvt (t : ElTy) (k : KReg) (d a b : Reg) (s : State) : Host.Outcome State Fault Refusal :=
  s.issue (.vcvt t k d a b) 0 fun e s' =>
    let c := cvtOf (e.s b)
    if c.refused t then illegal e s'
    else
      let r := c.apply t (e.m k) (e.v d) (e.v a)
      .done [.v d r.1] (s'.flag e.k r.2)

/-- VBCAST (R181). -/
def execVbcast (t : ElTy) (k : KReg) (d a : Reg) (s : State) : Host.Outcome State Fault Refusal :=
  vecOp s (.vbcast t k d a) t k d fun e _ => (e.n a % 2 ^ t.width, 0)

/-- VEXT (R185): integers sign-extended, the others as bits. -/
def execVext (t : ElTy) (d a b : Reg) (s : State) : Host.Outcome State Fault Refusal :=
  s.issue (.vext t d a b) 0 fun e s' =>
    let x := elem t.width (e.v a) (e.n b % t.lanes)
    .done [.s d (if t.isInt then BitVec.ofInt 64 (sext x t.width) else BitVec.ofNat 64 x)] s'

/-- VINS (R185). -/
def execVins (t : ElTy) (d a b : Reg) (s : State) : Host.Outcome State Fault Refusal :=
  s.issue (.vins t d a b) 0 fun e s' =>
    let j := e.n b % t.lanes
    .done [.v d (vecOf t.width ((List.range t.lanes).map fun i => if i = j then e.n a else elem t.width (e.v d) i))] s'

/-- VIOTA (R181): the number of set mask bits below. -/
def execViota (t : ElTy) (k : KReg) (d : Reg) (s : State) : Host.Outcome State Fault Refusal :=
  vecOp s (.viota t k d) t k d fun e i => (popcount i (e.m k).toNat, 0)

/-- The 64 codes of a register packed into 48 bytes; a byte with bits [7:6] non-zero packs as NaR (R93, R186). -/
def packCodes (a : VReg) : VReg :=
  let c := fun i => l6Code (elem 8 a i)
  vecOf 24 ((List.range 16).map fun g => l6Group (c (4 * g)) (c (4 * g + 1)) (c (4 * g + 2)) (c (4 * g + 3)))

/-- VPACK (R186). -/
def execVpack (t : ElTy) (k : KReg) (d a b : Reg) (s : State) : Host.Outcome State Fault Refusal :=
  if t = .l6 then s.issue (.vpack t k d a b) 0 fun e s' => .done [.v d (packCodes (e.v a))] s'
  else vecOp s (.vpack t k d a b) t k d fun e i =>
    let h := t.lanes / 2
    (elem (2 * t.width) (if i < h then e.v a else e.v b) (i % h) % 2 ^ t.width, 0)

/-- VUNPK (R186). -/
def execVunpk (t : ElTy) (k : KReg) (d a : Reg) (h : BitVec 5) (s : State) : Host.Outcome State Fault Refusal :=
  if t = .l6 then s.issue (.vunpk t k d a h) 0 fun e s' =>
    .done [.v d (vecOf 8 ((List.range 64).map fun i => l6Unpacked (e.v a).toNat i))] s'
  else vecOp s (.vunpk t k d a h) t k d fun e i =>
    (low (sext (elem (t.width / 2) (e.v a) (h.toNat * t.lanes + i)) (t.width / 2)) t.width, 0)

end Sys2Proof.Machine
end

