-- ==== Sys2Proof/Machine/VFp.lean ====
section
/-! DEFINITION. The vector floating-point instructions of major 0x11 (R177 to R180): each result is the exact value rounded once. -/

namespace Sys2Proof.Machine

/-- VFADD (R177). -/
def execVfadd (t : ElTy) (k : KReg) (d a b : Reg) (s : State) : Host.Outcome State Fault Refusal :=
  vecBin s (.vfadd t k d a b) t k d a b (fmtOf t).add

/-- VFSUB (R177). -/
def execVfsub (t : ElTy) (k : KReg) (d a b : Reg) (s : State) : Host.Outcome State Fault Refusal :=
  vecBin s (.vfsub t k d a b) t k d a b (fmtOf t).sub

/-- VFMUL (R177). -/
def execVfmul (t : ElTy) (k : KReg) (d a b : Reg) (s : State) : Host.Outcome State Fault Refusal :=
  vecBin s (.vfmul t k d a b) t k d a b (fmtOf t).mul

/-- VFDIV (R177). -/
def execVfdiv (t : ElTy) (k : KReg) (d a b : Reg) (s : State) : Host.Outcome State Fault Refusal :=
  vecBin s (.vfdiv t k d a b) t k d a b (fmtOf t).div

/-- VFSQRT (R177). -/
def execVfsqrt (t : ElTy) (k : KReg) (d a : Reg) (s : State) : Host.Outcome State Fault Refusal :=
  vecUn s (.vfsqrt t k d a) t k d a (fmtOf t).sqrt

/-- VFMIN (R80). -/
def execVfmin (t : ElTy) (k : KReg) (d a b : Reg) (s : State) : Host.Outcome State Fault Refusal :=
  vecBin s (.vfmin t k d a b) t k d a b ((fmtOf t).minmax false)

/-- VFMAX (R80). -/
def execVfmax (t : ElTy) (k : KReg) (d a b : Reg) (s : State) : Host.Outcome State Fault Refusal :=
  vecBin s (.vfmax t k d a b) t k d a b ((fmtOf t).minmax true)

/-- VFABS (R79): the sign bit cleared. -/
def execVfabs (t : ElTy) (k : KReg) (d a : Reg) (s : State) : Host.Outcome State Fault Refusal :=
  vecUn s (.vfabs t k d a) t k d a fun x => (x % (fmtOf t).sign, 0)

/-- VFNEG (R79): the sign bit inverted. -/
def execVfneg (t : ElTy) (k : KReg) (d a : Reg) (s : State) : Host.Outcome State Fault Refusal :=
  vecUn s (.vfneg t k d a) t k d a fun x => (x ^^^ (fmtOf t).sign, 0)

/-- VFCMP (R178). -/
def execVfcmp (t : ElTy) (k : KReg) (a b : Reg) (c : BitVec 3) (s : State) : Host.Outcome State Fault Refusal :=
  vecCmp s (.vfcmp t k a b c) t k a b ((fmtOf t).compare c.toNat)

/-- VFRSQ (R80). -/
def execVfrsq (t : ElTy) (k : KReg) (d a : Reg) (s : State) : Host.Outcome State Fault Refusal :=
  vecUn s (.vfrsq t k d a) t k d a (fmtOf t).rsq

/-- VFEXP2 (R80). -/
def execVfexp2 (t : ElTy) (k : KReg) (d a : Reg) (s : State) : Host.Outcome State Fault Refusal :=
  vecUn s (.vfexp2 t k d a) t k d a (fmtOf t).exp2

/-- VFLOG2 (R80). -/
def execVflog2 (t : ElTy) (k : KReg) (d a : Reg) (s : State) : Host.Outcome State Fault Refusal :=
  vecUn s (.vflog2 t k d a) t k d a (fmtOf t).log2

/-- VFLSE (R80). -/
def execVflse (t : ElTy) (k : KReg) (d a b : Reg) (s : State) : Host.Outcome State Fault Refusal :=
  vecBin s (.vflse t k d a b) t k d a b (fmtOf t).lse

/-- VFRND (R179). -/
def execVfrnd (t : ElTy) (k : KReg) (d a : Reg) (r : BitVec 2) (s : State) : Host.Outcome State Fault Refusal :=
  vecUn s (.vfrnd t k d a r) t k d a ((fmtOf t).integral r.toNat)

/-- VFCLASS (R180). -/
def execVfclass (t : ElTy) (k : KReg) (d a : Reg) (s : State) : Host.Outcome State Fault Refusal :=
  vecUn s (.vfclass t k d a) t k d a fun x => ((fmtOf t).classify x, 0)

end Sys2Proof.Machine
end

