-- ==== Sys2Proof/Machine/VInt.lean ====
section
/-! DEFINITION. The vector integer instructions of major 0x10 (R175, R176). Results are the low w bits; no flag is set. -/

namespace Sys2Proof.Machine

/-- An integer element function of two operands: the low w bits of its value. -/
def vintBin (s : State) (i : Instr) (t : ElTy) (k : KReg) (d a b : Reg) (f : Nat → Nat → Nat) : Host.Outcome State Fault Refusal :=
  vecBin s i t k d a b fun x y => (f x y % 2 ^ t.width, 0)

/-- The shift amount: the low log2 w bits of b (R175). -/
def laneAmount (t : ElTy) (b : Nat) : Nat := b % t.width

/-- VADD (R175). -/
def execVadd (t : ElTy) (k : KReg) (d a b : Reg) (s : State) : Host.Outcome State Fault Refusal :=
  vintBin s (.vadd t k d a b) t k d a b fun x y => x + y

/-- VSUB (R175). -/
def execVsub (t : ElTy) (k : KReg) (d a b : Reg) (s : State) : Host.Outcome State Fault Refusal :=
  vintBin s (.vsub t k d a b) t k d a b fun x y => x + (2 ^ t.width - y)

/-- VMUL (R175). -/
def execVmul (t : ElTy) (k : KReg) (d a b : Reg) (s : State) : Host.Outcome State Fault Refusal :=
  vintBin s (.vmul t k d a b) t k d a b fun x y => x * y

/-- VMULH (R175): the high half of the signed product. -/
def execVmulh (t : ElTy) (k : KReg) (d a b : Reg) (s : State) : Host.Outcome State Fault Refusal :=
  vintBin s (.vmulh t k d a b) t k d a b fun x y => low (sext x t.width * sext y t.width / 2 ^ t.width) t.width

/-- VMIN (R175). -/
def execVmin (t : ElTy) (k : KReg) (d a b : Reg) (s : State) : Host.Outcome State Fault Refusal :=
  vintBin s (.vmin t k d a b) t k d a b (intMinmax t.width false)

/-- VMAX (R175). -/
def execVmax (t : ElTy) (k : KReg) (d a b : Reg) (s : State) : Host.Outcome State Fault Refusal :=
  vintBin s (.vmax t k d a b) t k d a b (intMinmax t.width true)

/-- VMINU (R175). -/
def execVminu (t : ElTy) (k : KReg) (d a b : Reg) (s : State) : Host.Outcome State Fault Refusal :=
  vintBin s (.vminu t k d a b) t k d a b (natMinmax false)

/-- VMAXU (R175). -/
def execVmaxu (t : ElTy) (k : KReg) (d a b : Reg) (s : State) : Host.Outcome State Fault Refusal :=
  vintBin s (.vmaxu t k d a b) t k d a b (natMinmax true)

/-- VABS (R175): −2^(w−1) stays itself. -/
def execVabs (t : ElTy) (k : KReg) (d a : Reg) (s : State) : Host.Outcome State Fault Refusal :=
  vecUn s (.vabs t k d a) t k d a fun x => ((sext x t.width).natAbs % 2 ^ t.width, 0)

/-- VAND (R175). -/
def execVand (t : ElTy) (k : KReg) (d a b : Reg) (s : State) : Host.Outcome State Fault Refusal :=
  vintBin s (.vand t k d a b) t k d a b fun x y => x &&& y

/-- VOR (R175). -/
def execVor (t : ElTy) (k : KReg) (d a b : Reg) (s : State) : Host.Outcome State Fault Refusal :=
  vintBin s (.vor t k d a b) t k d a b fun x y => x ||| y

/-- VXOR (R175). -/
def execVxor (t : ElTy) (k : KReg) (d a b : Reg) (s : State) : Host.Outcome State Fault Refusal :=
  vintBin s (.vxor t k d a b) t k d a b fun x y => x ^^^ y

/-- VSHL (R175). -/
def execVshl (t : ElTy) (k : KReg) (d a b : Reg) (s : State) : Host.Outcome State Fault Refusal :=
  vintBin s (.vshl t k d a b) t k d a b fun x y => x * 2 ^ laneAmount t y

/-- VSHR (R175). -/
def execVshr (t : ElTy) (k : KReg) (d a b : Reg) (s : State) : Host.Outcome State Fault Refusal :=
  vintBin s (.vshr t k d a b) t k d a b fun x y => x / 2 ^ laneAmount t y

/-- VSAR (R175). -/
def execVsar (t : ElTy) (k : KReg) (d a b : Reg) (s : State) : Host.Outcome State Fault Refusal :=
  vintBin s (.vsar t k d a b) t k d a b fun x y => low (sext x t.width / 2 ^ laneAmount t y) t.width

/-- VCMP (R176): takes no mask; the condition is c. -/
def execVcmp (t : ElTy) (k : KReg) (a b : Reg) (c : BitVec 3) (s : State) : Host.Outcome State Fault Refusal :=
  vecCmp s (.vcmp t k a b c) t k a b fun x y => (intCompare t.width c.toNat x y, 0)

end Sys2Proof.Machine
end

