-- ==== Sys2Proof/Machine/VPerm.lean ====
section
/-! DEFINITION. Permutation and reduction, major 0x13 (R187 to R189, R103, R104). -/

namespace Sys2Proof.Machine

/-- VPERM (R187). -/
def execVperm (t : ElTy) (k : KReg) (d a b : Reg) (s : State) : Host.Outcome State Fault Refusal :=
  vecOp s (.vperm t k d a b) t k d fun e i => (elem t.width (e.v a) (elem t.width (e.v b) i % t.lanes), 0)

/-- VSLIDE (R187): elements from outside are zero bits. -/
def execVslide (t : ElTy) (k : KReg) (d a b : Reg) (s : State) : Host.Outcome State Fault Refusal :=
  vecOp s (.vslide t k d a b) t k d fun e i =>
    let j : Int := (i : Int) + (e.s b).toInt
    (if 0 ≤ j ∧ j < (t.lanes : Int) then elem t.width (e.v a) j.toNat else 0, 0)

/-- VSEL (R187): every element is written. -/
def execVsel (t : ElTy) (k : KReg) (d a b : Reg) (s : State) : Host.Outcome State Fault Refusal :=
  s.issue (.vsel t k d a b) 0 fun e s' =>
    .done [.v d (vecOf t.width ((List.range t.lanes).map fun i => elem t.width (if active (e.m k) i then e.v a else e.v b) i))] s'

/-- VREDADD (R188): the identity is 0. -/
def execVredadd (t : ElTy) (k : KReg) (d a : Reg) (s : State) : Host.Outcome State Fault Refusal :=
  reduceOp s (.vredadd t k d a) t k d a fun m x => reduceElems t m x 0 (fun y => (y, 0)) fun y z => ((y + z) % 2 ^ t.width, 0)

/-- A minimum or maximum of the active elements (R103, R188). -/
def minmaxReduce (t : ElTy) (maximum : Bool) (m : Word) (x : VReg) : Flagged :=
  if t.isInt then
    reduceElems t m x (low (if maximum then intMin t.width else intMax t.width) t.width) (fun y => (y, 0)) fun y z =>
      (intMinmax t.width maximum y z, 0)
  else floatReduce t m x (fun f => f.signed maximum f.inf) fun f => f.minmax maximum

/-- VREDMIN (R188). -/
def execVredmin (t : ElTy) (k : KReg) (d a : Reg) (s : State) : Host.Outcome State Fault Refusal :=
  reduceOp s (.vredmin t k d a) t k d a (minmaxReduce t false)

/-- VREDMAX (R188). -/
def execVredmax (t : ElTy) (k : KReg) (d a : Reg) (s : State) : Host.Outcome State Fault Refusal :=
  reduceOp s (.vredmax t k d a) t k d a (minmaxReduce t true)

/-- VFREDADD (R188): the identity is -0. -/
def execVfredadd (t : ElTy) (k : KReg) (d a : Reg) (s : State) : Host.Outcome State Fault Refusal :=
  reduceOp s (.vfredadd t k d a) t k d a fun m x => floatReduce t m x (fun f => f.sign) fun f => f.add

/-- The serial prefix of R104 from a running value: an output for each input, in order. -/
def prefixFrom (f : Nat → Nat → Flagged) : Nat → List Nat → List Flagged
  | _, [] => []
  | acc, x :: xs =>
    let r := f acc x
    r :: prefixFrom f r.1 xs

/-- The addition of R104 at a type, and its identity. -/
def scanAdd (t : ElTy) (x y : Nat) : Flagged := if t.isInt then ((x + y) % 2 ^ t.width, 0) else (fmtOf t).add x y
def scanIdentity (t : ElTy) : Nat := if t.isInt then 0 else (fmtOf t).sign

/-- VSCAN (R104): output 0 is input 0; masked-off elements enter as the identity and keep their old values. -/
def execVscan (t : ElTy) (k : KReg) (d a : Reg) (s : State) : Host.Outcome State Fault Refusal :=
  s.issue (.vscan t k d a) 0 fun e s' =>
    let ins := (List.range t.lanes).map fun i => if active (e.m k) i then elem t.width (e.v a) i else scanIdentity t
    let outs := (ins.headD 0, 0) :: prefixFrom (scanAdd t) (ins.headD 0) ins.tail
    let r := masked t (e.m k) (e.v d) fun i => outs.getD i (0, 0)
    .done [.v d r.1] (s'.flag e.k r.2)

/-- The elements a mask selects, in order (R189). -/
def selected (t : ElTy) (m : Word) (a : VReg) : List Nat :=
  ((List.range t.lanes).filter (active m)).map (elem t.width a)

/-- VCOMPR (R189). -/
def execVcompr (t : ElTy) (k : KReg) (d a : Reg) (s : State) : Host.Outcome State Fault Refusal :=
  s.issue (.vcompr t k d a) 0 fun e s' =>
    let xs := selected t (e.m k) (e.v a)
    .done [.v d (vecOf t.width ((List.range t.lanes).map fun i => xs.getD i (elem t.width (e.v d) i)))] s'

/-- VEXPND (R189). -/
def execVexpnd (t : ElTy) (k : KReg) (d a : Reg) (s : State) : Host.Outcome State Fault Refusal :=
  vecOp s (.vexpnd t k d a) t k d fun e i => (elem t.width (e.v a) (popcount i (e.m k).toNat), 0)

end Sys2Proof.Machine
end

