-- ==== Sys2Proof/Machine/Dispatch.lean ====
section
/-! DEFINITION. One arm for each constructor of `Instr`, each a direct call of the instruction's own meaning. -/

namespace Sys2Proof.Machine

/-- The effect of an instruction, or of an event, on the machine. -/
def exec (i : Instr) (s : State) : Host.Outcome State Fault Refusal :=
  match i with
  | .add l d a b => Sys2Proof.Machine.execAdd l d a b s
  | .sub l d a b => Sys2Proof.Machine.execSub l d a b s
  | .mul l d a b => Sys2Proof.Machine.execMul l d a b s
  | .mulh l d a b => Sys2Proof.Machine.execMulh l d a b s
  | .mulhu l d a b => Sys2Proof.Machine.execMulhu l d a b s
  | .div l d a b => Sys2Proof.Machine.execDiv l d a b s
  | .divu l d a b => Sys2Proof.Machine.execDivu l d a b s
  | .rem l d a b => Sys2Proof.Machine.execRem l d a b s
  | .remu l d a b => Sys2Proof.Machine.execRemu l d a b s
  | .and l d a b => Sys2Proof.Machine.execAnd l d a b s
  | .or l d a b => Sys2Proof.Machine.execOr l d a b s
  | .xor l d a b => Sys2Proof.Machine.execXor l d a b s
  | .andn l d a b => Sys2Proof.Machine.execAndn l d a b s
  | .shl l d a b => Sys2Proof.Machine.execShl l d a b s
  | .shr l d a b => Sys2Proof.Machine.execShr l d a b s
  | .sar l d a b => Sys2Proof.Machine.execSar l d a b s
  | .rotr l d a b => Sys2Proof.Machine.execRotr l d a b s
  | .min l d a b => Sys2Proof.Machine.execMin l d a b s
  | .max l d a b => Sys2Proof.Machine.execMax l d a b s
  | .minu l d a b => Sys2Proof.Machine.execMinu l d a b s
  | .maxu l d a b => Sys2Proof.Machine.execMaxu l d a b s
  | .slt l d a b => Sys2Proof.Machine.execSlt l d a b s
  | .sltu l d a b => Sys2Proof.Machine.execSltu l d a b s
  | .seq l d a b => Sys2Proof.Machine.execSeq l d a b s
  | .clz l d a => Sys2Proof.Machine.execClz l d a s
  | .ctz l d a => Sys2Proof.Machine.execCtz l d a s
  | .popc l d a => Sys2Proof.Machine.execPopc l d a s
  | .sext l d a w => Sys2Proof.Machine.execSext l d a w s
  | .zext l d a w => Sys2Proof.Machine.execZext l d a w s
  | .bfx l d a b => Sys2Proof.Machine.execBfx l d a b s
  | .bfi l d a b => Sys2Proof.Machine.execBfi l d a b s
  | .addsat l d a b => Sys2Proof.Machine.execAddsat l d a b s
  | .addi d a im => Sys2Proof.Machine.execAddi d a im s
  | .andi d a im => Sys2Proof.Machine.execAndi d a im s
  | .ori d a im => Sys2Proof.Machine.execOri d a im s
  | .xori d a im => Sys2Proof.Machine.execXori d a im s
  | .slti d a im => Sys2Proof.Machine.execSlti d a im s
  | .sltiu d a im => Sys2Proof.Machine.execSltiu d a im s
  | .shifti k d a n => Sys2Proof.Machine.execShifti k d a n s
  | .muli d a im => Sys2Proof.Machine.execMuli d a im s
  | .lui d im => Sys2Proof.Machine.execLui d im s
  | .auipc d im => Sys2Proof.Machine.execAuipc d im s
  | .ldB l d a p => Sys2Proof.Machine.execLdB l d a p s
  | .ldBu l d a p => Sys2Proof.Machine.execLdBu l d a p s
  | .ldH l d a p => Sys2Proof.Machine.execLdH l d a p s
  | .ldHu l d a p => Sys2Proof.Machine.execLdHu l d a p s
  | .ldW l d a p => Sys2Proof.Machine.execLdW l d a p s
  | .ldWu l d a p => Sys2Proof.Machine.execLdWu l d a p s
  | .ldD l d a p => Sys2Proof.Machine.execLdD l d a p s
  | .stB a src p => Sys2Proof.Machine.execStB a src p s
  | .stH a src p => Sys2Proof.Machine.execStH a src p s
  | .stW a src p => Sys2Proof.Machine.execStW a src p s
  | .stD a src p => Sys2Proof.Machine.execStD a src p s
  | .beq a b p => Sys2Proof.Machine.execBeq a b p s
  | .bne a b p => Sys2Proof.Machine.execBne a b p s
  | .blt a b p => Sys2Proof.Machine.execBlt a b p s
  | .bge a b p => Sys2Proof.Machine.execBge a b p s
  | .bltu a b p => Sys2Proof.Machine.execBltu a b p s
  | .bgeu a b p => Sys2Proof.Machine.execBgeu a b p s
  | .bkany k p => Sys2Proof.Machine.execBkany k p s
  | .bknone k p => Sys2Proof.Machine.execBknone k p s
  | .jl d im => Sys2Proof.Machine.execJl d im s
  | .jlr d a => Sys2Proof.Machine.execJlr d a s
  | .follow d a => Sys2Proof.Machine.execFollow d a s
  | .rejoin d p => Sys2Proof.Machine.execRejoin d p s
  | .amoAdd l d a b => Sys2Proof.Machine.execAmoAdd l d a b s
  | .amoAnd l d a b => Sys2Proof.Machine.execAmoAnd l d a b s
  | .amoOr l d a b => Sys2Proof.Machine.execAmoOr l d a b s
  | .amoXor l d a b => Sys2Proof.Machine.execAmoXor l d a b s
  | .amoMin l d a b => Sys2Proof.Machine.execAmoMin l d a b s
  | .amoMax l d a b => Sys2Proof.Machine.execAmoMax l d a b s
  | .amoMinu l d a b => Sys2Proof.Machine.execAmoMinu l d a b s
  | .amoMaxu l d a b => Sys2Proof.Machine.execAmoMaxu l d a b s
  | .amoSwap l d a b => Sys2Proof.Machine.execAmoSwap l d a b s
  | .amoCas l d a b => Sys2Proof.Machine.execAmoCas l d a b s
  | .amoAddn l d a b => Sys2Proof.Machine.execAmoAddn l d a b s
  | .ldAcq l d a => Sys2Proof.Machine.execLdAcq l d a s
  | .stRel a b => Sys2Proof.Machine.execStRel a b s
  | .ldSc l d a => Sys2Proof.Machine.execLdSc l d a s
  | .stSc a b => Sys2Proof.Machine.execStSc a b s
  | .fence src => Sys2Proof.Machine.execFence src s
  | .csrr d c => Sys2Proof.Machine.execCsrr d c s
  | .csrw d a c => Sys2Proof.Machine.execCsrw d a c s
  | .csrset d a c => Sys2Proof.Machine.execCsrset d a c s
  | .csrclr d a c => Sys2Proof.Machine.execCsrclr d a c s
  | .trap a => Sys2Proof.Machine.execTrap a s
  | .sreplyResume a => Sys2Proof.Machine.execSreplyResume a s
  | .sreplySignal a => Sys2Proof.Machine.execSreplySignal a s
  | .sreplyKill a => Sys2Proof.Machine.execSreplyKill a s
  | .biasflipHost a => Sys2Proof.Machine.execBiasflipHost a s
  | .biasflipDevice a => Sys2Proof.Machine.execBiasflipDevice a s
  | .spawn a => Sys2Proof.Machine.execSpawn a s
  | .pubf a => Sys2Proof.Machine.execPubf a s
  | .donate d a b => Sys2Proof.Machine.execDonate d a b s
  | .jinit a b => Sys2Proof.Machine.execJinit a b s
  | .jdec d a => Sys2Proof.Machine.execJdec d a s
  | .send a b v => Sys2Proof.Machine.execSend a b v s
  | .sendm a b v => Sys2Proof.Machine.execSendm a b v s
  | .hset d a b => Sys2Proof.Machine.execHset d a b s
  | .hclr a => Sys2Proof.Machine.execHclr a s
  | .hold d a => Sys2Proof.Machine.execHold d a s
  | .rels d a => Sys2Proof.Machine.execRels d a s
  | .hmask d a b => Sys2Proof.Machine.execHmask d a b s
  | .mbxw d a b => Sys2Proof.Machine.execMbxw d a b s
  | .bara d n m => Sys2Proof.Machine.execBara d n m s
  | .barw d n m => Sys2Proof.Machine.execBarw d n m s
  | .barx d n m => Sys2Proof.Machine.execBarx d n m s
  | .team d a b => Sys2Proof.Machine.execTeam d a b s
  | .geosub d a b => Sys2Proof.Machine.execGeosub d a b s
  | .vld t k d a => Sys2Proof.Machine.execVld t k d a s
  | .vst t k d a => Sys2Proof.Machine.execVst t k d a s
  | .vlds t k d a b => Sys2Proof.Machine.execVlds t k d a b s
  | .vsts t k d a b => Sys2Proof.Machine.execVsts t k d a b s
  | .vldb t k d a => Sys2Proof.Machine.execVldb t k d a s
  | .vldi t k d a b => Sys2Proof.Machine.execVldi t k d a b s
  | .vsti t k d a b => Sys2Proof.Machine.execVsti t k d a b s
  | .vadd t k d a b => Sys2Proof.Machine.execVadd t k d a b s
  | .vsub t k d a b => Sys2Proof.Machine.execVsub t k d a b s
  | .vmul t k d a b => Sys2Proof.Machine.execVmul t k d a b s
  | .vmulh t k d a b => Sys2Proof.Machine.execVmulh t k d a b s
  | .vmin t k d a b => Sys2Proof.Machine.execVmin t k d a b s
  | .vmax t k d a b => Sys2Proof.Machine.execVmax t k d a b s
  | .vminu t k d a b => Sys2Proof.Machine.execVminu t k d a b s
  | .vmaxu t k d a b => Sys2Proof.Machine.execVmaxu t k d a b s
  | .vabs t k d a => Sys2Proof.Machine.execVabs t k d a s
  | .vand t k d a b => Sys2Proof.Machine.execVand t k d a b s
  | .vor t k d a b => Sys2Proof.Machine.execVor t k d a b s
  | .vxor t k d a b => Sys2Proof.Machine.execVxor t k d a b s
  | .vshl t k d a b => Sys2Proof.Machine.execVshl t k d a b s
  | .vshr t k d a b => Sys2Proof.Machine.execVshr t k d a b s
  | .vsar t k d a b => Sys2Proof.Machine.execVsar t k d a b s
  | .vcmp t k a b c => Sys2Proof.Machine.execVcmp t k a b c s
  | .vfadd t k d a b => Sys2Proof.Machine.execVfadd t k d a b s
  | .vfsub t k d a b => Sys2Proof.Machine.execVfsub t k d a b s
  | .vfmul t k d a b => Sys2Proof.Machine.execVfmul t k d a b s
  | .vfdiv t k d a b => Sys2Proof.Machine.execVfdiv t k d a b s
  | .vfsqrt t k d a => Sys2Proof.Machine.execVfsqrt t k d a s
  | .vfmin t k d a b => Sys2Proof.Machine.execVfmin t k d a b s
  | .vfmax t k d a b => Sys2Proof.Machine.execVfmax t k d a b s
  | .vfabs t k d a => Sys2Proof.Machine.execVfabs t k d a s
  | .vfneg t k d a => Sys2Proof.Machine.execVfneg t k d a s
  | .vfcmp t k a b c => Sys2Proof.Machine.execVfcmp t k a b c s
  | .vfrsq t k d a => Sys2Proof.Machine.execVfrsq t k d a s
  | .vfexp2 t k d a => Sys2Proof.Machine.execVfexp2 t k d a s
  | .vflog2 t k d a => Sys2Proof.Machine.execVflog2 t k d a s
  | .vflse t k d a b => Sys2Proof.Machine.execVflse t k d a b s
  | .vfrnd t k d a r => Sys2Proof.Machine.execVfrnd t k d a r s
  | .vfclass t k d a => Sys2Proof.Machine.execVfclass t k d a s
  | .vcvt t k d a b => Sys2Proof.Machine.execVcvt t k d a b s
  | .vbcast t k d a => Sys2Proof.Machine.execVbcast t k d a s
  | .vext t d a b => Sys2Proof.Machine.execVext t d a b s
  | .vins t d a b => Sys2Proof.Machine.execVins t d a b s
  | .viota t k d => Sys2Proof.Machine.execViota t k d s
  | .vpack t k d a b => Sys2Proof.Machine.execVpack t k d a b s
  | .vunpk t k d a h => Sys2Proof.Machine.execVunpk t k d a h s
  | .vperm t k d a b => Sys2Proof.Machine.execVperm t k d a b s
  | .vslide t k d a b => Sys2Proof.Machine.execVslide t k d a b s
  | .vsel t k d a b => Sys2Proof.Machine.execVsel t k d a b s
  | .vredadd t k d a => Sys2Proof.Machine.execVredadd t k d a s
  | .vredmin t k d a => Sys2Proof.Machine.execVredmin t k d a s
  | .vredmax t k d a => Sys2Proof.Machine.execVredmax t k d a s
  | .vfredadd t k d a => Sys2Proof.Machine.execVfredadd t k d a s
  | .vscan t k d a => Sys2Proof.Machine.execVscan t k d a s
  | .vcompr t k d a => Sys2Proof.Machine.execVcompr t k d a s
  | .vexpnd t k d a => Sys2Proof.Machine.execVexpnd t k d a s
  | .kand d a b => Sys2Proof.Machine.execKand d a b s
  | .kor d a b => Sys2Proof.Machine.execKor d a b s
  | .kxor d a b => Sys2Proof.Machine.execKxor d a b s
  | .kandn d a b => Sys2Proof.Machine.execKandn d a b s
  | .knot d a => Sys2Proof.Machine.execKnot d a s
  | .kfrom d a => Sys2Proof.Machine.execKfrom d a s
  | .kto d a => Sys2Proof.Machine.execKto d a s
  | .kpop d a => Sys2Proof.Machine.execKpop d a s
  | .kfirst d a => Sys2Proof.Machine.execKfirst d a s
  | .kfill d a => Sys2Proof.Machine.execKfill d a s
  | .mlease l d a => Sys2Proof.Machine.execMlease l d a s
  | .mclaim l d a => Sys2Proof.Machine.execMclaim l d a s
  | .mfree a => Sys2Proof.Machine.execMfree a s
  | .mzero l d => Sys2Proof.Machine.execMzero l d s
  | .mstat l d a => Sys2Proof.Machine.execMstat l d a s
  | .mwait l d a => Sys2Proof.Machine.execMwait l d a s
  | .sld l d a b => Sys2Proof.Machine.execSld l d a b s
  | .sst d a b => Sys2Proof.Machine.execSst d a b s
  | .sadd d a b => Sys2Proof.Machine.execSadd d a b s
  | .sclose a => Sys2Proof.Machine.execSclose a s
  | .sstat l d a b => Sys2Proof.Machine.execSstat l d a b s
  | .ldg l d a b => Sys2Proof.Machine.execLdg l d a b s
  | .stg d a b => Sys2Proof.Machine.execStg d a b s
  | .gstep l d a b => Sys2Proof.Machine.execGstep l d a b s
  | .gwait l d a b => Sys2Proof.Machine.execGwait l d a b s
  | .gstat l d a b => Sys2Proof.Machine.execGstat l d a b s
  | .pref a b => Sys2Proof.Machine.execPref a b s
  | .res a b => Sys2Proof.Machine.execRes a b s
  | .unres a b => Sys2Proof.Machine.execUnres a b s
  | .flush a b => Sys2Proof.Machine.execFlush a b s
  | .inv a b => Sys2Proof.Machine.execInv a b s
  | .dinv a => Sys2Proof.Machine.execDinv a s
  | .copy l d a n => Sys2Proof.Machine.execCopy l d a n s
  | .copym l d a n => Sys2Proof.Machine.execCopym l d a n s
  | .get l d a n => Sys2Proof.Machine.execGet l d a n s
  | .put l d a n => Sys2Proof.Machine.execPut l d a n s
  | .dense l d a n => Sys2Proof.Machine.execDense l d a n s
  | .ctrx l d a n => Sys2Proof.Machine.execCtrx l d a n s
  | .ctrw l d a n => Sys2Proof.Machine.execCtrw l d a n s
  | .ctrr l d n => Sys2Proof.Machine.execCtrr l d n s
  | .ctrrClear l d n => Sys2Proof.Machine.execCtrrClear l d n s
  | .mfmt a => Sys2Proof.Machine.execMfmt a s
  | .mlda a b c n => Sys2Proof.Machine.execMlda a b c n s
  | .mldb a b c n => Sys2Proof.Machine.execMldb a b c n s
  | .mldc l d a b => Sys2Proof.Machine.execMldc l d a b s
  | .mma l d a b => Sys2Proof.Machine.execMma l d a b s
  | .mstc d a b c r => Sys2Proof.Machine.execMstc d a b c r s
  | .mprog a => Sys2Proof.Machine.execMprog a s
  | .mrun l d a b => Sys2Proof.Machine.execMrun l d a b s
  | .vfma l t k d a b c => Sys2Proof.Machine.execVfma l t k d a b c s
  | .vfms l t k d a b c => Sys2Proof.Machine.execVfms l t k d a b c s
  | .vmad l t k d a b c r => Sys2Proof.Machine.execVmad l t k d a b c r s
  | .vtopk l t k d a c n => Sys2Proof.Machine.execVtopk l t k d a c n s
  | .vgather l t k d a b => Sys2Proof.Machine.execVgather l t k d a b s
  | .vscatter t k d a b => Sys2Proof.Machine.execVscatter t k d a b s
  | .vdotl l k d a b c => Sys2Proof.Machine.execVdotl l k d a b c s
  | .vdotb l k d a b c => Sys2Proof.Machine.execVdotb l k d a b c s
  | .sdecl l d a => Sys2Proof.Machine.execSdecl l d a s
  | .sdeclFree a => Sys2Proof.Machine.execSdeclFree a s
  | .siter l d a b => Sys2Proof.Machine.execSiter l d a b s
  | .snext l d a b c => Sys2Proof.Machine.execSnext l d a b c s
  | .gdecl l d a => Sys2Proof.Machine.execGdecl l d a s
  | .gdeclFree a => Sys2Proof.Machine.execGdeclFree a s
  | .addiN d im => Sys2Proof.Machine.execAddiN d im s
  | .liN d im => Sys2Proof.Machine.execLiN d im s
  | .shliN d im => Sys2Proof.Machine.execShliN d im s
  | .addN d a => Sys2Proof.Machine.execAddN d a s
  | .subN d a => Sys2Proof.Machine.execSubN d a s
  | .mvN d a => Sys2Proof.Machine.execMvN d a s
  | .lddN d a im => Sys2Proof.Machine.execLddN d a im s
  | .stdN d a im => Sys2Proof.Machine.execStdN d a im s
  | .ldwN d a im => Sys2Proof.Machine.execLdwN d a im s
  | .stwN d a im => Sys2Proof.Machine.execStwN d a im s
  | .beqzN a p => Sys2Proof.Machine.execBeqzN a p s
  | .bnezN a p => Sys2Proof.Machine.execBnezN a p s
  | .jN p => Sys2Proof.Machine.execJN p s
  | .jrN a => Sys2Proof.Machine.execJrN a s
  | .ldspN d im => Sys2Proof.Machine.execLdspN d im s
  | .stspN d im => Sys2Proof.Machine.execStspN d im s
  | .leave => Sys2Proof.Machine.execLeave s
  | .yield => Sys2Proof.Machine.execYield s
  | .nop => Sys2Proof.Machine.execNop s
  | .hint => Sys2Proof.Machine.execHint s
  | .fenceSc => Sys2Proof.Machine.execFenceSc s
  | .eret => Sys2Proof.Machine.execEret s
  | .uiret => Sys2Proof.Machine.execUiret s
  | .wfi => Sys2Proof.Machine.execWfi s
  | .sync => Sys2Proof.Machine.execSync s
  | .taskend => Sys2Proof.Machine.execTaskend s
  | .hret => Sys2Proof.Machine.execHret s
  | .mrel => Sys2Proof.Machine.execMrel s
  | .resultArrival k im => Sys2Proof.Machine.execResultArrival k im s
  | .trapEntry k => Sys2Proof.Machine.execTrapEntry k s
  | .translatedAccess r => Sys2Proof.Machine.execTranslatedAccess r s
  | .pageWalk die asid va => Sys2Proof.Machine.execPageWalk die asid va s
  | .pageFaultAnswer k => Sys2Proof.Machine.execPageFaultAnswer k s
  | .replyResume k => Sys2Proof.Machine.execReplyResume k s
  | .replySignal k => Sys2Proof.Machine.execReplySignal k s
  | .replyKill k => Sys2Proof.Machine.execReplyKill k s
  | .unitFaultReply handle code => Sys2Proof.Machine.execUnitFaultReply handle code s
  | .rangeLockGrant die => Sys2Proof.Machine.execRangeLockGrant die s
  | .renewal k pa => Sys2Proof.Machine.execRenewal k pa s
  | .writeBack die line => Sys2Proof.Machine.execWriteBack die line s
  | .recallLine line => Sys2Proof.Machine.execRecallLine line s
  | .ownedLineTimeout die line => Sys2Proof.Machine.execOwnedLineTimeout die line s
  | .tokenReturn home src => Sys2Proof.Machine.execTokenReturn home src s
  | .tokenArrival home src => Sys2Proof.Machine.execTokenArrival home src s
  | .ltimeTick die => Sys2Proof.Machine.execLtimeTick die s
  | .lineTimestampVisit line => Sys2Proof.Machine.execLineTimestampVisit line s
  | .scWindowClose die => Sys2Proof.Machine.execScWindowClose die s
  | .scCompletion k => Sys2Proof.Machine.execScCompletion k s
  | .messageArrival core => Sys2Proof.Machine.execMessageArrival core s
  | .bounce core => Sys2Proof.Machine.execBounce core s
  | .handlerStart core => Sys2Proof.Machine.execHandlerStart core s
  | .distributorOffer die => Sys2Proof.Machine.execDistributorOffer die s
  | .hostMessage evq => Sys2Proof.Machine.execHostMessage evq s
  | .followerExecute k => Sys2Proof.Machine.execFollowerExecute k s
  | .stealProbe core => Sys2Proof.Machine.execStealProbe core s
  | .stealClaim core => Sys2Proof.Machine.execStealClaim core s
  | .claimIncrementDone core => Sys2Proof.Machine.execClaimIncrementDone core s
  | .stealDispatch core => Sys2Proof.Machine.execStealDispatch core s
  | .stealBackoff core => Sys2Proof.Machine.execStealBackoff core s
  | .rootDispatch slot => Sys2Proof.Machine.execRootDispatch slot s
  | .donationEntry q => Sys2Proof.Machine.execDonationEntry q s
  | .syncWake k => Sys2Proof.Machine.execSyncWake k s
  | .syncPoll k => Sys2Proof.Machine.execSyncPoll k s
  | .overflowSpill core kind => Sys2Proof.Machine.execOverflowSpill core kind s
  | .overflowRefill core kind => Sys2Proof.Machine.execOverflowRefill core kind s
  | .teamTimeout core => Sys2Proof.Machine.execTeamTimeout core s
  | .barxRelease cluster team b => Sys2Proof.Machine.execBarxRelease cluster team b s
  | .mbxwTimeout k => Sys2Proof.Machine.execMbxwTimeout k s
  | .ctrwTimeout k => Sys2Proof.Machine.execCtrwTimeout k s
  | .wfiTimeout k => Sys2Proof.Machine.execWfiTimeout k s
  | .copySegment die unit => Sys2Proof.Machine.execCopySegment die unit s
  | .copymUnit die unit => Sys2Proof.Machine.execCopymUnit die unit s
  | .getChunk die unit => Sys2Proof.Machine.execGetChunk die unit s
  | .putChunk die unit => Sys2Proof.Machine.execPutChunk die unit s
  | .denseShard die => Sys2Proof.Machine.execDenseShard die s
  | .byteAcknowledgement core => Sys2Proof.Machine.execByteAcknowledgement core s
  | .engineResume die unit => Sys2Proof.Machine.execEngineResume die unit s
  | .completionInterrupt k => Sys2Proof.Machine.execCompletionInterrupt k s
  | .residualHoldSend cluster => Sys2Proof.Machine.execResidualHoldSend cluster s
  | .leaseGrant cluster => Sys2Proof.Machine.execLeaseGrant cluster s
  | .leaseSpent core => Sys2Proof.Machine.execLeaseSpent core s
  | .leasedCommandStart cluster => Sys2Proof.Machine.execLeasedCommandStart cluster s
  | .leasedCommandComplete core => Sys2Proof.Machine.execLeasedCommandComplete core s
  | .slotFillComplete cluster slot => Sys2Proof.Machine.execSlotFillComplete cluster slot s
  | .indexEngineEvent k => Sys2Proof.Machine.execIndexEngineEvent k s
  | .accumulatorSpill cluster im => Sys2Proof.Machine.execAccumulatorSpill cluster im s
  | .partHomeEvent k => Sys2Proof.Machine.execPartHomeEvent k s
  | .haloPush die => Sys2Proof.Machine.execHaloPush die s
  | .gridLoadTimeout k => Sys2Proof.Machine.execGridLoadTimeout k s
  | .gwaitTimeout k => Sys2Proof.Machine.execGwaitTimeout k s
  | .ltsetWrite k x => Sys2Proof.Machine.execLtsetWrite k x s
  | .ltperiodWrite die x => Sys2Proof.Machine.execLtperiodWrite die x s
  | .tepcWrite k x => Sys2Proof.Machine.execTepcWrite k x s
  | .tailWrite q tail size => Sys2Proof.Machine.execTailWrite q tail size s
  | .queueEntryRead q => Sys2Proof.Machine.execQueueEntryRead q s
  | .phaseReread q => Sys2Proof.Machine.execPhaseReread q s
  | .queueBind => Sys2Proof.Machine.execQueueBind s
  | .ageingQuantum q => Sys2Proof.Machine.execAgeingQuantum q s
  | .notbeforePassed q => Sys2Proof.Machine.execNotbeforePassed q s
  | .limitExpiry slot => Sys2Proof.Machine.execLimitExpiry slot s
  | .eventVectorSignal evq => Sys2Proof.Machine.execEventVectorSignal evq s
  | .eventHeadAdvance evq head => Sys2Proof.Machine.execEventHeadAdvance evq head s
  | .createQueue seq q f => Sys2Proof.Machine.execCreateQueue seq q f s
  | .destroyQueue seq q => Sys2Proof.Machine.execDestroyQueue seq q s
  | .createEvq seq evq base entries header vector => Sys2Proof.Machine.execCreateEvq seq evq base entries header vector s
  | .setQuantum seq ns => Sys2Proof.Machine.execSetQuantum seq ns s
  | .setReserve seq die map => Sys2Proof.Machine.execSetReserve seq die map s
  | .endLaunch seq slot => Sys2Proof.Machine.execEndLaunch seq slot s
  | .preempt seq slot area len => Sys2Proof.Machine.execPreempt seq slot area len s
  | .restore seq slot => Sys2Proof.Machine.execRestore seq slot s
  | .biasflip seq page host => Sys2Proof.Machine.execBiasflip seq page host s
  | .scrub seq page => Sys2Proof.Machine.execScrub seq page s
  | .dieLost seq die => Sys2Proof.Machine.execDieLost seq die s
  | .setClock seq die mhz => Sys2Proof.Machine.execSetClock seq die mhz s
  | .setPower seq die state => Sys2Proof.Machine.execSetPower seq die state s
  | .warmReset seq die => Sys2Proof.Machine.execWarmReset seq die s
  | .clusterGate seq cluster gate => Sys2Proof.Machine.execClusterGate seq cluster gate s
  | .setEnvelope seq watts => Sys2Proof.Machine.execSetEnvelope seq watts s
  | .setPkgnum seq n => Sys2Proof.Machine.execSetPkgnum seq n s
  | .setRoute seq f => Sys2Proof.Machine.execSetRoute seq f s
  | .setGm seq die sysref => Sys2Proof.Machine.execSetGm seq die sysref s
  | .hostcmd seq core payload => Sys2Proof.Machine.execHostcmd seq core payload s
  | .thermalTrip sensor => Sys2Proof.Machine.execThermalTrip sensor s
  | .coolantFlowTrip => Sys2Proof.Machine.execCoolantFlowTrip s
  | .bringUp => Sys2Proof.Machine.execBringUp s
  | .attestationReport nonce => Sys2Proof.Machine.execAttestationReport nonce s
  | .monitorControlWrite die unit x => Sys2Proof.Machine.execMonitorControlWrite die unit x s
  | .monitorClear die unit => Sys2Proof.Machine.execMonitorClear die unit s
  | .monitorLevelSample die unit => Sys2Proof.Machine.execMonitorLevelSample die unit s
  | .treutExchange die => Sys2Proof.Machine.execTreutExchange die s
  | .treutSyncReceive die => Sys2Proof.Machine.execTreutSyncReceive die s
  | .followUpReceive die => Sys2Proof.Machine.execFollowUpReceive die s
  | .delayReqReceive die => Sys2Proof.Machine.execDelayReqReceive die s
  | .delayRespReceive die => Sys2Proof.Machine.execDelayRespReceive die s
  | .exchangeMissed die => Sys2Proof.Machine.execExchangeMissed die s
  | .linkRetry link => Sys2Proof.Machine.execLinkRetry link s
  | .hostCxlAccess store pa data => Sys2Proof.Machine.execHostCxlAccess store pa data s
  | .hostWritebackCompletion page => Sys2Proof.Machine.execHostWritebackCompletion page s

end Sys2Proof.Machine
end

