-- ==== Sys2Proof/Machine/Turn.lean ====
section
/-! DEFINITION. A context's turn (R54 to R61, R203, R229, R230, R354): whether it may issue, fetching and decoding its instruction, and running
it. `step` chooses whose turn it is. -/

namespace Sys2Proof

namespace Machine

/-! ### Fetching (R34, R35, R52, R289) -/

/-- What a fetch comes to: an instruction's length and bits, or what stops it. -/
inductive Fetched where
  | bits (len w : Nat) (s : State)
  | stop (r : MemRes)
  deriving DecidableEq, Repr

/-- A fetch fault on any parcel is one of the whole instruction, at its first address (R36). -/
def MemRes.atFirst (pc : Nat) : MemRes → MemRes
  | .trap late code _ s => .trap late code pc s
  | .fault _ cause level pte => .fault pc cause level pte
  | r => r

/-- Fetches the instruction at context k's PC: its first parcel, then the rest of its length. -/
def State.fetch (s : State) (k : Nat) : Fetched :=
  let w := s.who k
  let pc := (s.ctx k).pc.toNat
  match s.plainRead w .fetch pc 2 with
  | .ok p s =>
    let n := instrLen p
    if n = 2 then .bits 2 p s
    else match s.plainRead w .fetch (pc + 2) (n - 2) with
      | .ok q s => .bits n (p + q * 65536) s
      | r => .stop (r.atFirst pc)
  | r => .stop (r.atFirst pc)

/-- The next place of context k traps before anything of it is done (R60). -/
def State.trapHere (s : State) (k code val : Nat) : State :=
  let c := s.ctx k
  s.enter k c.win.seq 0 c.pc c.pc [] (.trap code (BitVec.ofNat 64 val))

/-- A fetch that does not pass: it traps, or its fault is posted and the context blocks until the reply (R292, R293, R297). -/
def State.fetchStop (s : State) (k : Nat) : MemRes → State
  | .ok _ s => s
  | .trap _ code val s => s.trapHere k code val
  | .stall => s
  | .fault va cause level pte =>
    if (s.ctx k).sup then s.trapHere k 0x13 va
    else
      let s := if (s.ctx k).member then s.leave k (s.ctx k).pc else s
      (s.pageFault k .fetch va cause level pte).modCtx k fun c => { c with retry := true, state := .blocked }

/-! ### Whether a context may issue -/

/-- The core of context k does not run: its die sleeps, is off, lost or not yet up, its cluster is gated, or it has stopped (R499, R517,
R519). -/
def State.dark (s : State) (k : Nat) : Bool :=
  let c := coreOf k
  let d := s.die (dieOf c)
  d.power != .d0 || d.lost || !d.up || (s.cluster (clusterOf c)).gated || (s.core c).stopped

/-- The launch of context k is being saved and has stopped its contexts (R512). -/
def State.frozenLaunch (s : State) (k : Nat) : Bool := match (s.core (coreOf k)).slot with
  | some n => match (s.launch n).save with
    | some m => decide (2 ≤ m)
    | none => false
  | none => false

/-- Context k has had its turn: contexts of its core that yielded to it wait for it no longer. -/
def State.unyield (s : State) (k : Nat) : State :=
  { s with ctxs := s.ctxs.map fun (e : Nat × Ctx) =>
      if coreOf e.1 = coreOf k && e.2.yielded.contains k then (e.1, { e.2 with yielded := e.2.yielded.filter fun j => j != k }) else e }

/-- A context that has yielded waits while one of those it yielded to could run. -/
def State.yields (s : State) (k : Nat) : Bool :=
  (s.ctx k).yielded.any fun j => (s.ctx j).issues

/-- A completion interrupt of context k is taken, if one is pending and may be (R354). -/
def State.interrupted (s : State) (k : Nat) : State :=
  if (s.core (coreOf k)).counters.any fun e => e.2.uip then s.interrupt k else s

/-! ### Running an instruction -/

/-- A place that was done before a trap is passed over (R60): the PC goes on as it went then, and the place counts in every open window with
what it wrote (R56). -/
def State.passOver (s : State) (k : Nat) (next : Word) : State :=
  (s.modCtx k fun c => { c with pc := next, win :=
    { c.win.count ((c.win.wrote.find c.win.seq).getD []) with done := c.win.done.filter fun q => q != c.win.seq } }).advance k

/-- A serialising instruction does not issue while a result is outstanding (R58). -/
def State.holds (s : State) (k : Nat) (i : Instr) : Bool := i.serial && (s.ctx k).win.waiting

/-- The instruction that context k has fetched or latched runs, in the state in which it is the current context. -/
def State.run (s : State) (k : Nat) (i : Instr) : Host.Outcome State Fault Refusal := exec i { s with cur := k }

/-- What follows a leader's instruction: it goes to the ports of its hoist (R229). Nothing is carried while a handler of the leader runs, nor the
instruction that a trap is taken at before it has been issued again (R506). -/
def State.carried (s : State) (k len w : Nat) (i : Instr) (o : Host.Outcome State Fault Refusal) : Host.Outcome State Fault Refusal :=
  let c := s.ctx k
  let q := c.win.seq
  match o with
  | .next t =>
    if (s.listeners k).isEmpty || c.handling || decide (q < c.carried) || !(t.ctx k).hasDone q then .next t
    else .next (t.carry k q { pc := c.pc, next := (t.ctx k).afterPlace q, taken := i.taken c.regs, len := len, bits := w })
  | r => r

/-- The fetched instruction runs. -/
def State.runFetched (s : State) (k len w : Nat) : Host.Outcome State Fault Refusal :=
  match decodeBits len w with
  | none => .next (s.trapHere k 0x01 w)
  | some i =>
    if s.holds k i then .next ((s.settle k).serialStall k)
    else s.carried k len w i (s.run k i)

/-- Context k issues the instruction at its PC, or passes over a place that is done. -/
def State.issueAt (s : State) (k : Nat) : Host.Outcome State Fault Refusal :=
  let c := s.ctx k
  if c.win.done.contains c.win.seq then
    match c.win.path.find (c.win.seq + 1) with
    | some pc => .next (s.passOver k pc)
    | none => match s.fetch k with
      | .bits len _ s => .next (s.passOver k (c.pc + BitVec.ofNat 64 len))
      | .stop r => .next (s.fetchStop k r)
  else if s.portFull k then .next s
  else match s.fetch k with
    | .bits len w s => s.runFetched k len w
    | .stop r => .next (s.fetchStop k r)

/-- After a follower's instruction (R230): it has left if its own outcome of a conditional branch, or its own way of any other instruction, is not the
leader's, and what has been delivered beyond is discarded; it stays otherwise. -/
def State.followed (s : State) (k : Nat) (d : Decoded) (own : Option Bool) : State :=
  let s := s.modCtx k fun c => { c with latch := none }
  let c := s.ctx k
  let parts := match own, d.taken with
    | some x, some y => x != y
    | _, _ => c.pc != d.next
  if c.member && parts then (s.leave k c.pc).modCtx k fun c => { c with port := [] } else s

/-- A follower runs the instruction that it has latched (R229). -/
def State.follow (s : State) (k : Nat) (d : Decoded) : Host.Outcome State Fault Refusal :=
  match decodeBits d.len d.bits with
  | none => .next s
  | some i =>
    if s.holds k i then .next ((s.settle k).serialStall k)
    else match s.run k i with
      | .next t => .next ((t.followed k d (i.taken (s.ctx k).regs)).post (.followerExecute k))
      | r => r

/-- The turn of a context whose core runs. -/
def State.live (s : State) (k : Nat) : Host.Outcome State Fault Refusal :=
  let s := s.unyield k
  let s := if s.frozenLaunch k then s else s.interrupted k
  let c := s.ctx k
  if c.retry then
    if bit c.mbx.toNat 63 then .next s else .next (s.setCtx k { c with retry := false, state := .running })
  else if c.win.stuck || c.state == .parked || c.state == .blocked || s.frozenLaunch k then .next (s.settle k)
  else if s.interruptWaits k then .next (s.settle k)
  else if s.yields k then .next s
  else if c.member then match c.latch with
    | some d => s.follow k d
    | none => .next s
  else s.issueAt k

/-- The turn of context k: a number beyond the package's contexts is no context, and one that is free or whose core does not run does
nothing. -/
def State.turn (s : State) (k : Nat) : Host.Outcome State Fault Refusal :=
  if contextCount ≤ k then .fault .noSuchContext
  else if (s.ctx k).state == .free || s.dark k then .next s
  else s.live k

/-! ### Whose turn it is (log 1) -/

/-- The lowest number of a list above a bound, or the lowest of all. -/
def nextAfter (n : Nat) (l : List Nat) : Option Nat :=
  let up := l.filter fun k => decide (n < k)
  let low := fun (m : List Nat) => m.foldl (fun (x : Option Nat) k => match x with
    | some y => some (min y k)
    | none => some k) none
  if up.isEmpty then low l else low up

/-- Contexts that are not free. -/
def State.busy (s : State) : List Nat := (s.ctxs.filter fun e => e.2.state != .free).map (·.1)

/-- Context k could issue: it is awake and waits for nothing. -/
def State.canIssue (s : State) (k : Nat) : Bool :=
  let c := s.ctx k
  !s.dark k && !c.retry && c.issues

/-- What acts at a step: an event of the agenda with the rest of it, what is due, a context, or nothing but time. -/
inductive Agent where
  | event (v : Event) (rest : List Event)
  | due
  | context (k : Nat)
  | idle
  deriving DecidableEq, Repr

/-- How often the agenda looks for what is due. -/
def duePeriod : Nat := 64

/-- The agenda goes before the contexts: as the pace says, else at every other step. -/
def State.eventFirst (s : State) : Bool := match s.pace with
  | b :: _ => b
  | [] => s.ticks % 2 == 0

/-- Every context has had its turn since time last moved on, none of them could issue, and the agenda is empty. -/
def State.tired (s : State) : Bool :=
  s.agenda.isEmpty && decide (s.cur < contextCount) && !(s.busy.any fun k => decide (s.cur < k)) && !s.busy.any s.canIssue

/-- The context whose turn it is: the one that the schedule names, else the next in a round of those that are not free. -/
def State.nextTurn (s : State) : Option Nat := match s.turns with
  | k :: _ => some k
  | [] => if s.tired then none else nextAfter s.cur s.busy

/-- What acts at this step. -/
def State.agent (s : State) : Agent :=
  if s.ticks % duePeriod = duePeriod - 1 then .due
  else
    match s.agenda, s.nextTurn with
    | [], some k => .context k
    | [], none => .idle
    | v :: rest, none => .event v rest
    | v :: rest, some k => if s.eventFirst then .event v rest else .context k

/-- The schedule moves on by what has acted. -/
def State.scheduled (s : State) : Agent → State
  | .event _ rest => { s with agenda := rest, pace := s.pace.tail }
  | .context k => { s with cur := k, pace := s.pace.tail, turns := s.turns.tail }
  | .due => { s with pace := s.pace.tail }
  | .idle => { s with cur := contextCount, pace := s.pace.tail }

/-- What an agent does. -/
def State.act (s : State) : Agent → Host.Outcome State Fault Refusal
  | .event v _ => s.event v
  | .due => .next s.postDue
  | .context k => s.turn k
  | .idle => .next s.postNearest

end Machine

end Sys2Proof
end

