-- ==== Sys2Proof/Machine/Step.lean ====
section
/-! DEFINITION. One step of the machine: what the schedule chooses acts, and time passes. `withFetchWord` stands for the launch of a program
whose first instruction is given (log 13). -/

namespace Sys2Proof.Machine

/-- One step. -/
def step (s : State) : Host.Outcome State Fault Refusal :=
  match (s.scheduled s.agent).act s.agent with
  | .next t => .next t.elapse
  | r => r

/-- A state whose next step runs the given instruction: a step at which the agenda looks for what is due is not the next one. -/
def State.withFetchWord (s : State) (nbits w : Nat) : State :=
  { s.launched (toBytes 8 (w % 2 ^ nbits)) with ticks := if s.ticks % duePeriod = duePeriod - 1 then s.ticks + 1 else s.ticks }

end Sys2Proof.Machine
end

