-- ==== Sys2Proof/Safety.lean ====
section
/-! DEFINITION. What counts as a safe run: one in which no step faults or is refused. The machine itself goes on whatever a program does
(a trap that cannot be taken ends the launch, R499), so a run can only be unsafe through its schedule. Also the two conditions that the
claims about states use: the canonical form of the memories, and a context that is ready to issue. -/

namespace Sys2Proof

namespace Machine

/-- The schedule names contexts that the package has (R28). -/
def State.Schedulable (s : State) : Prop := ∀ k ∈ s.turns, k < contextCount

/-- The memory is in its canonical form. -/
def State.MemOk (s : State) : Prop := s.mem.wf = true

/-- The context whose turn it is runs, and no result of it is outstanding (R54, R203). -/
def State.Ready (s : State) : Prop := (s.ctx s.cur).state = .running ∧ (s.ctx s.cur).win.outst = []

/-- Registers after a list of register writes; a tile is no register of the context. -/
def Regs.after (g : Regs) : List Wr → Regs
  | [] => g
  | .s r x :: ws => (g.ws r x).after ws
  | .v r x :: ws => (g.wv r x).after ws
  | .k r x :: ws => (g.wk r x).after ws
  | .tile .. :: ws => g.after ws

/-- A write of an accumulator tile. -/
def Wr.isTile : Wr → Bool
  | .tile .. => true
  | _ => false

/-- Context c has become t: the instruction at its place has completed with these writes, made at once where its lookahead count is 0 and
held for its window otherwise (R56), and nothing else of the context has changed but the record of its windows. -/
structure Ctx.Done (c t : Ctx) (la : Nat) (pc next : Word) (ws : List Wr) : Prop where
  same : t = { c with regs := if la = 0 then c.regs.after ws else c.regs, win := t.win }
  seq : t.win.seq = c.win.seq + 1
  done : t.win.done = c.win.done
  held : t.win.outst = if la = 0 then [] else [{ pos := c.win.seq, la := la, pc := pc, next := next, dropped := [], res := .ok ws }]

/-- State s has become t by the completion of context k's instruction: the whole state but the context is as it was. -/
def State.Completes (s t : State) (k la : Nat) (pc next : Word) (ws : List Wr) : Prop :=
  t = s.setCtx k (t.ctx k) ∧ (s.ctx k).Done (t.ctx k) la pc next ws

/-- `exec` completes instruction i in state s: it answers a next state, which is s2 (s with what the instruction does besides writing registers)
with the current context's instruction completed, its register writes being ws under lookahead count la. -/
def State.Gives (s : State) (i : Instr) (s2 : State) (la : Nat) (ws : List Wr) : Prop :=
  ∃ t, exec i s = .next t ∧ s2.Completes t s.cur la (s.ctx s.cur).pc ((s.ctx s.cur).pc + BitVec.ofNat 64 i.length) ws

/-- The instruction does nothing but write registers. -/
def State.Sets (s : State) (i : Instr) (la : Nat) (ws : List Wr) : Prop := s.Gives i (s.started i) la ws

/-- Context c has become t by the issue of an instruction that has faulted within its lookahead window: the fault is kept for the window's end,
and nothing else of the context has changed (R60). -/
structure Ctx.Deferred (c t : Ctx) (la : Nat) (next : Word) (code : Nat) (val : Word) : Prop where
  same : t = { c with pc := next, win := t.win }
  seq : t.win.seq = c.win.seq + 1
  held : t.win.outst = [{ pos := c.win.seq, la := la, pc := c.pc, next := next, dropped := [], res := .trap code val }]

/-- `exec` of instruction i in state s keeps its fault for the end of its window, and nothing of the state but the current context changes. -/
def State.Defers (s : State) (i : Instr) (la code : Nat) (val : Word) : Prop :=
  ∃ t, exec i s = .next t ∧ t = s.setCtx s.cur (t.ctx s.cur) ∧
    (s.ctx s.cur).Deferred (t.ctx s.cur) la ((s.ctx s.cur).pc + BitVec.ofNat 64 i.length) code val

/-- `exec` completes a masked vector instruction in state s (R165): element j of vD takes the value of f where the mask has its bit and keeps
its old value elsewhere; `FFLAGS` takes the flags of the elements written (R85), and nothing else changes. -/
def State.Lanes (s : State) (i : Instr) (la : Nat) (t : ElTy) (k : KReg) (d : Reg) (f : Nat → Flagged) : Prop :=
  ∃ x fl, s.Gives i ((s.started i).flag s.cur fl) la [.v d x] ∧
    (∀ j, j < t.lanes → elem t.width x j = if ((s.ctx s.cur).regs.rk k).getLsbD j then (f j).1 % 2 ^ t.width else elem t.width ((s.ctx s.cur).regs.rv d) j) ∧
    ∀ b, fl.testBit b = (List.range t.lanes).any fun j => ((s.ctx s.cur).regs.rk k).getLsbD j && (f j).2.testBit b

/-- `exec` completes a vector comparison in state s (R167): bit j of kD is the result for element j, the bits from the element count on are 0. -/
def State.Compares (s : State) (i : Instr) (t : ElTy) (d : KReg) (f : Nat → Bool × Nat) : Prop :=
  ∃ x fl, s.Gives i ((s.started i).flag s.cur fl) 0 [.k d x] ∧
    (∀ j, x.getLsbD j = (decide (j < t.lanes) && (f j).1)) ∧
    ∀ b, fl.testBit b = (List.range t.lanes).any fun j => (f j).2.testBit b

/-! ### Accesses -/

/-- What the current context's instruction loads: its lookahead count, destination, bytes, whether they are sign-extended, and the address (R50,
R143). -/
def State.loadOf (s : State) (i : Instr) : Option (Nat × Reg × Nat × Bool × Nat) :=
  let g := (s.ctx s.cur).regs
  let at_ := fun (a : Reg) (p : BitVec 8) (n : Nat) => (g.rs a + BitVec.ofInt 64 (p.toInt * n)).toNat
  let near := fun (a : BitVec 3) (p n : Nat) => (g.rs (regN a) + BitVec.ofNat 64 (p * n)).toNat
  match i with
  | .ldB l d a p => some (l.toNat, d, 1, true, at_ a p 1)
  | .ldBu l d a p => some (l.toNat, d, 1, false, at_ a p 1)
  | .ldH l d a p => some (l.toNat, d, 2, true, at_ a p 2)
  | .ldHu l d a p => some (l.toNat, d, 2, false, at_ a p 2)
  | .ldW l d a p => some (l.toNat, d, 4, true, at_ a p 4)
  | .ldWu l d a p => some (l.toNat, d, 4, false, at_ a p 4)
  | .ldD l d a p => some (l.toNat, d, 8, false, at_ a p 8)
  | .lddN d a i => some (0, regN d, 8, false, near a i.toNat 8)
  | .ldwN d a i => some (0, regN d, 4, true, near a i.toNat 4)
  | .ldspN d i => some (0, d, 8, false, (g.rs 30 + BitVec.ofNat 64 (i.toNat * 8)).toNat)
  | _ => none

/-- What the current context's instruction stores: the register, the bytes and the address (R50, R144). -/
def State.storeOf (s : State) (i : Instr) : Option (Reg × Nat × Nat) :=
  let g := (s.ctx s.cur).regs
  let at_ := fun (a : Reg) (p : BitVec 8) (n : Nat) => (g.rs a + BitVec.ofInt 64 (p.toInt * n)).toNat
  let near := fun (a : BitVec 3) (p n : Nat) => (g.rs (regN a) + BitVec.ofNat 64 (p * n)).toNat
  match i with
  | .stB a r p => some (r, 1, at_ a p 1)
  | .stH a r p => some (r, 2, at_ a p 2)
  | .stW a r p => some (r, 4, at_ a p 4)
  | .stD a r p => some (r, 8, at_ a p 8)
  | .stdN d a i => some (regN d, 8, near a i.toNat 8)
  | .stwN d a i => some (regN d, 4, near a i.toNat 4)
  | .stspN d i => some (d, 8, (g.rs 30 + BitVec.ofNat 64 (i.toNat * 8)).toNat)
  | _ => none

/-- What the current context's VMEM instruction or scatter moves (R172, R194): element type, mask, vector register, whether it stores, and the
address of each element. -/
def State.vmemOf (s : State) (i : Instr) : Option (ElTy × KReg × Reg × Bool × (Nat → Nat)) :=
  let g := (s.ctx s.cur).regs
  let unit_ := fun (t : ElTy) (a : Reg) (j : Nat) => (g.rs a + BitVec.ofNat 64 (j * (t.width / 8))).toNat
  let stride := fun (a b : Reg) (j : Nat) => (g.rs a + BitVec.ofNat 64 j * g.rs b).toNat
  let index := fun (t : ElTy) (a b : Reg) (j : Nat) => (g.rs a + BitVec.ofNat 64 (elem t.width (g.rv b) j * (t.width / 8))).toNat
  match i with
  | .vld t k d a => some (t, k, d, false, unit_ t a)
  | .vst t k d a => some (t, k, d, true, unit_ t a)
  | .vlds t k d a b => some (t, k, d, false, stride a b)
  | .vsts t k d a b => some (t, k, d, true, stride a b)
  | .vldb t k d a => some (t, k, d, false, fun _ => (g.rs a).toNat)
  | .vldi t k d a b => some (t, k, d, false, index t a b)
  | .vsti t k d a b => some (t, k, d, true, index t a b)
  | .vgather _ t k d a b => some (t, k, d, false, index t a b)
  | .vscatter t k d a b => some (t, k, d, true, index t a b)
  | _ => none

/-- n bytes at va lie in a scratch window of core c, within the carve-outs (R123, R125). -/
def State.InScratch (s : State) (c va n : Nat) : Prop :=
  (winTag va = 0xF0 ∧ winOff va + n ≤ s.scratchBytes c) ∨
  (winTag va = 0xF1 ∧ winOff va + n ≤ 2 ^ 56 ∧ ∀ j, j < n → s.shareHas c (winOff va + j) = true)

/-- The byte of scratch that core c finds at va: of its own pool in window 0xF0, of the core that holds it in window 0xF1 (R123, R124). -/
def State.scratchByte (s : State) (c va : Nat) : Byte :=
  let o := winOff va
  if winTag va = 0xF0 then (s.core c).scratch.read o
  else (s.core (c / 16 * 16 + o / 128 % 16)).share.read (o / 128 / 16 * 128 + o % 128)

/-- t is s but for the contents of scratch. -/
def State.ButScratch (s t : State) : Prop :=
  t = { s with cores := t.cores } ∧ ∀ c, t.core c = { s.core c with scratch := (t.core c).scratch, share := (t.core c).share }

/-- Byte pa % 64 of a line. -/
def byteOf (line pa : Nat) : Byte := BitVec.ofNat 8 (line / 2 ^ (8 * (pa % 64)))

/-- The byte of memory at a physical address as its home has it once the dirty bytes of core c's cluster have reached their slice and the line's
owner has been recalled (R298, R300). -/
def State.homeByte (s : State) (c pa : Nat) : Byte := ((s.spillCluster c (pa / 64) none).recall (pa / 64)).mem.read pa

/-- The byte of memory at a physical address as core c's die has it once the dirty bytes of core c's cluster have reached their slice: its owned copy,
or the home's (R298, R300). -/
def State.ownByte (s : State) (c pa : Nat) : Byte :=
  match ((s.spillCluster c (pa / 64) none).die (dieOf c)).owned.find (pa / 64) with
  | some o => byteOf o.data pa
  | none => s.homeByte c pa

/-- The cluster of core c holds no dirty byte in its L1s. -/
def State.CleanCluster (s : State) (c : Nat) : Prop := ∀ i, i < 16 → ∀ e ∈ (s.core (c / 16 * 16 + i)).l1, e.2.dirty = 0

/-- What memory holds in lines other than l is the same in t as in s: at the homes and in the copies that dies own. -/
def State.OtherLines (s t : State) (l : Nat) : Prop :=
  (∀ a, a / 64 ≠ l → t.mem.read a = s.mem.read a) ∧ ∀ d m, m ≠ l → (t.die d).owned.find m = (s.die d).owned.find m

/-- The n bytes at va are one piece of translated memory, no check of their access stops it, and they are at pa, by the leaf pte (R145, R289). -/
def State.Passes (s : State) (k : Nat) (a : Acc) (va n pa pte : Nat) : Prop :=
  winTag va = 0 ∧ winTag (va + n - 1) = 0 ∧ piecesOf va n = [(va, n)] ∧ s.firstStop (s.who k) a va n true [(va, n)] = none ∧
    s.xlate (s.who k) a va n = .ok pa pte

/-- The line that a read finds at pa (R298 to R301): for a plain one a copy under a good lease in its own L1; or what its slice has with the dirty bytes
of the cluster: the home's line where the home is the reader's own die, another package, or the only place that may serve it, the copy that
the reader's die owns, its guest copy under a good lease, and the home's line otherwise. -/
def State.lineSeen (s : State) (w : Who) (plain : Bool) (pa pte : Nat) : Nat :=
  let l := pa / 64
  let x := s.die (dieOf w.core)
  let p := (s.ctx w.k).ltime
  let mine := if !plain || uncached pte then none else ((s.core w.core).l1.find l).filter fun y => !y.guest || serialGe 24 y.rts p
  let guest := (x.guest.find l).filter fun g => serialGe 24 g.rts p
  if !s.local_ pa then (mine.map (·.data)).getD (s.homeLine l)
  else match mine with
    | some y => y.data
    | none => s.snooped w.core l <|
      if homeDie pa = dieOf w.core ∨ unleased pte = true then s.homeLine l
      else match x.owned.find l, guest with
        | some o, _ => o.data
        | none, some g => g.data
        | none, none => s.homeLine l

/-- t is s but for what reading memory leaves: stamps, leases and guest copies, the copies of L1s and their prefetch counters, monitor samples; the
reader's ltime may have risen. -/
structure State.ButReading (s t : State) (k : Nat) : Prop where
  rest : t = { s with ctxs := t.ctxs, cores := t.cores, dies := t.dies, stamps := t.stamps, draws := t.draws }
  contexts : ∀ j, t.ctx j = { s.ctx j with ltime := if j = k then (t.ctx j).ltime else (s.ctx j).ltime }
  cores : ∀ c, t.core c = { s.core c with
    l1 := (t.core c).l1, coming := (t.core c).coming, brought := (t.core c).brought, pfuse := (t.core c).pfuse, pflate := (t.core c).pflate }
  dies : ∀ d, t.die d = { s.die d with home := (t.die d).home, guest := (t.die d).guest, monitors := (t.die d).monitors }

/-- A release of context k has nothing to wait for: its core's L1 holds no dirty byte, no owned line of its die and no dirty byte held there holds
a write of it, and no token is due (R281, R298, R309, R360). -/
def State.Flushed (s : State) (k : Nat) : Prop :=
  (∀ e ∈ (s.core (coreOf k)).l1, e.2.dirty = 0) ∧ (∀ e ∈ (s.die (dieOf (coreOf k))).owned, e.2.dirty = true → k ∉ e.2.writers) ∧
    (∀ b ∈ (s.die (dieOf (coreOf k))).held, k ∉ b.copy.writers) ∧ s.tokensDue k = []

/-- What the current context's indivisible access does (R246, R321, R323): its lookahead count, its kind of check, its address, the new doubleword by
the old one, the register it writes with the value by the old doubleword, and whether it is an acquire. -/
def State.atomOf (s : State) (i : Instr) : Option (Nat × Acc × Word × (Word → Option Word) × Option (Reg × (Word → Word)) × Bool) :=
  let g := (s.ctx s.cur).regs
  let amo := fun (l : La) (d a : Reg) (f : Word → Option Word) => some (l.toNat, Acc.atomic, g.rs a, f, some (d, fun (m : Word) => m), true)
  match i with
  | .amoAdd l d a b => amo l d a fun m => some (m + g.rs b)
  | .amoAnd l d a b => amo l d a fun m => some (m &&& g.rs b)
  | .amoOr l d a b => amo l d a fun m => some (m ||| g.rs b)
  | .amoXor l d a b => amo l d a fun m => some (m ^^^ g.rs b)
  | .amoMin l d a b => amo l d a fun m => some (if m.toInt ≤ (g.rs b).toInt then m else g.rs b)
  | .amoMax l d a b => amo l d a fun m => some (if m.toInt ≤ (g.rs b).toInt then g.rs b else m)
  | .amoMinu l d a b => amo l d a fun m => some (if m.toNat ≤ (g.rs b).toNat then m else g.rs b)
  | .amoMaxu l d a b => amo l d a fun m => some (if m.toNat ≤ (g.rs b).toNat then g.rs b else m)
  | .amoSwap l d a b => amo l d a fun _ => some (g.rs b)
  | .amoCas l d a b => amo l d a fun m => if m = g.rs d then some (g.rs b) else none
  | .jdec d a => some (0, Acc.atomic, g.rs a, fun m => some (m - 1), some (d, fun m => m - 1), true)
  | .jinit a b => some (0, Acc.atomic, g.rs a, fun _ => some (g.rs b), none, false)
  | .stRel a b => some (0, Acc.rel, g.rs a, fun _ => some (g.rs b), none, false)
  | _ => none

/-- The register write of such an access, if it has one. -/
def atomWrites (m : Word) : Option (Reg × (Word → Word)) → List Wr
  | some (d, f) => [.s d (f m)]
  | none => []

/-- A trap of the context's mode is enabled: its vector's EN is set, its cause's INH is clear (R498, R499). -/
def Ctx.Enabled (c : Ctx) : Prop := c.vec.toNat % 2 = 1 ∧ bit c.cause.toNat 63 = false

/-- The cause word of a trap at the next place of context c: INH, the places further on that are done already (SKIP, R60), and the code. -/
def Ctx.causeWord (c : Ctx) (code : Nat) : Word :=
  BitVec.ofNat 64 (2 ^ 63 + skipMask (c.win.done.filter fun q => decide (c.win.seq + 1 ≤ q)) c.win.seq * 2 ^ 32 + code)

/-- Context c has become t by the trap of its next instruction (R498): cause, value and address are in the trap registers of its mode, the
PC is at the vector, its windows are frozen at the instruction's place, and everything else of it is as it was. -/
structure Ctx.Trapped (c t : Ctx) (code : Nat) (val : Word) : Prop where
  same : t = { c.setTrap (c.causeWord code) val (c.pc &&& ~~~1) with
    pc := c.vec &&& ~~~1, state := .running, member := false, latch := none, frozenT := t.frozenT, win := Win.reset }
  frozen : ∃ w, t.frozenT = some w ∧ w.outst = [] ∧ w.seq = c.win.seq

/-- `exec` of instruction i in state s takes a trap, and nothing of the state but the current context changes. -/
def State.Traps (s : State) (i : Instr) (code : Nat) (val : Word) : Prop :=
  ∃ t, exec i s = .next t ∧ t = s.setCtx s.cur (t.ctx s.cur) ∧ (s.ctx s.cur).Trapped (t.ctx s.cur) code val

/-- Context c has become t by the issue of an instruction that waits: the instruction is outstanding with the registers of its issue, and
where its window is empty the context counts as its wait says (R57, R203). -/
structure Ctx.Waiting (c t : Ctx) (la : Nat) (pc next : Word) (i : Instr) (w : Wait) : Prop where
  same : t = { (if la = 0 then c.waits w.how else c) with win := t.win }
  seq : t.win.seq = c.win.seq + 1
  held : t.win.outst = [{ pos := c.win.seq, la := la, pc := pc, next := next, dropped := [], res := .pend i c.regs w }]

/-- `exec` of instruction i in state s answers a next state in which the instruction has begun and waits: s2 (s with what it does at its
issue), with the instruction outstanding. -/
def State.Begins (s : State) (i : Instr) (s2 : State) (la : Nat) (w : Wait) : Prop :=
  ∃ t, exec i s = .next t ∧ t = s2.setCtx s.cur (t.ctx s.cur) ∧
    (s2.ctx s.cur).Waiting (t.ctx s.cur) la (s.ctx s.cur).pc ((s.ctx s.cur).pc + BitVec.ofNat 64 i.length) i w

/-- `exec` of instruction i in state s faults with this code and value: at once where its lookahead count is 0, at its window's end otherwise, for
faults met beyond the core (R60, R138). -/
def State.Faults (s : State) (i : Instr) (la code : Nat) (val : Word) : Prop :=
  (la ≠ 0 → s.Defers i la code val) ∧ (la = 0 → (s.ctx s.cur).Enabled → s.Traps i code val)

/-! ### What the current instruction of a unit's family works on -/

/-- The operation of an engine instruction, with its lookahead count, its destination, the register of its block and its counter (R336). -/
def engOf : Instr → Option (XferOp × La × Reg × Reg × Nat)
  | .copy l d a n => some (.copy, l, d, a, n.toNat)
  | .copym l d a n => some (.copym, l, d, a, n.toNat)
  | .get l d a n => some (.get, l, d, a, n.toNat)
  | .put l d a n => some (.put, l, d, a, n.toNat)
  | _ => none

/-- The transfer that context k of a core starts at place `pos` of its program order leaves s as this (R340): its record stands under number id, and its
die has it among those that are to register, with its ranges and its requests. -/
def State.toRegister (s : State) (k pos id : Nat) (x : Xfer) (ranges : List (Nat × Nat × Nat × Bool)) (reqs : List (Nat × Req)) : State :=
  let core := coreOf k
  ((s.modCore core fun y => { y with xfers := y.xfers.put id x }).modDie (dieOf core) fun y => { y with issuing := y.issuing ++
    [{ ctx := k, gen := (s.ctx k).gen, pos := pos,
       req := { core := core, xfer := id, ranges := ranges, reqs := reqs.map fun r => (r.1, { r.2 with xfer := id }) } }] }).post (.rangeLockGrant (dieOf core))

/-- Handle h names region n of context k's launch, with its fields as they stand once a `DINV` of its descriptor has been followed; s' is s
after that (R405, R417). -/
def State.RegionAt (s : State) (k h n : Nat) (r : Region) (s' : State) : Prop :=
  ∃ r0, s.regionOf (s.slotOf (coreOf k)) h = some (n, r0) ∧
    ((r0.stale = false ∧ r = r0 ∧ s' = s) ∨
     (r0.stale = true ∧ ∃ b s1, s.plainRead (s.who k) .load r0.at_ 64 = .ok b s1 ∧ r = { r0 with quota := spQuota b, ext := spExt b, stale := false } ∧
       s' = s1.setRegion n r))

/-- No earlier event of the shard waits for a fault's reply (R436). -/
def State.ShardFree (s : State) (x : Shard) : Prop := s.shardHeld x = none ∧ s.denseHolds (x.cl / 32) x = false

/-- A cursor's reads of the shards given, in order: the keys with their values, whether a shard has more, and the state after them; none where
one stops (R430). -/
def State.batches (k n : Nat) (r : Region) (c : Cursor) : List Nat → State → Option (List (Nat × Nat) × Bool × State)
  | [], s => some ([], false, s)
  | i :: is, s =>
    let x := s.shardAt k n r i
    if (s.shardHeld x).isSome || s.denseHolds (x.cl / 32) x then none
    else match x.run s (x.batch c.lo c.hi (if c.last then c.key + 1 else c.lo)) with
      | .ok (v, s') => (State.batches k n r c is (x.stamp s' k false)).map fun y => (v.1 ++ y.1, v.2 || y.2.1, y.2.2)
      | .error _ => none

/-- Present coordinates of the shards given, each read in its own event (R434); none where one stops. -/
def State.counts (k n : Nat) (r : Region) : List Nat → State → Option (Nat × State)
  | [], s => some (0, s)
  | i :: is, s =>
    let x := s.shardAt k n r i
    if (s.shardHeld x).isSome || s.denseHolds (x.cl / 32) x then none
    else match x.run s (x.stat false) with
      | .ok (v, s') => (State.counts k n r is (x.stamp s' k false)).map fun y => (v.2 + y.1, y.2)
      | .error _ => none

/-- Handle h names grid n of context k's launch, with its fields as they stand once a `DINV` of its descriptor has been followed (R438, R461). -/
def State.GridAt (s : State) (k h n : Nat) (g : Grid) (s' : State) : Prop :=
  ∃ g0, s.gridOf (s.slotOf (coreOf k)) h = some (n, g0) ∧
    ((g0.stale = false ∧ g = g0 ∧ s' = s) ∨
     (g0.stale = true ∧ ∃ b s1, s.plainRead (s.who k) .load g0.at_ 64 = .ok b s1 ∧
       g = { g0 with fast := gdFast b, timeout := gdTimeout b, const := gdConst b, stale := false } ∧ s' = s1.setGrid n g))

/-- An event of context k at part p of grid n can be performed: the part's block is at pa, and no earlier event of it waits for a fault's reply
(R443, R450). -/
def State.PartOpen (s : State) (k n : Nat) (g : Grid) (p : Nat) (write : Bool) (pa : Nat) : Prop :=
  (s.die (g.die p)).faults.find? (fun x => x.2.place == placePart n p) = none ∧
  s.blockStop (haloWho k (g.die p) g.asid) write (blockVA g.desc p) = none ∧
  (s.pieceAt (haloWho k (g.die p) g.asid) .engRead (blockVA g.desc p) 64).1 = pa

/-- The part word names a part of the grid that this package's die owns (R448, R449). -/
def State.Owns (s : State) (k : Nat) (g : Grid) (w : Nat) : Prop :=
  badPart g w = false ∧ g.pkg (wordPart w) = s.pkg.number ∧ g.die (wordPart w) = dieOf (coreOf k)

/-! ### What events do to contexts and launches -/

/-- The one outstanding instruction of context k is o: i with the registers g of its issue, waiting as w says. Its window has run out, and no fault
of its own waits for a reply. -/
structure State.Waits (s : State) (k : Nat) (o : Outst) (i : Instr) (g : Regs) (w : Wait) : Prop where
  only : (s.ctx k).win.outst = [o]
  res : o.res = .pend i g w
  due : o.pos + o.la < (s.ctx k).win.seq
  calm : w.how = .blocked → bit (s.ctx k).mbx.toNat 63 = false

/-- t is s with the wait of context k's instruction o ended: the writes that still stand are made, its window has closed, and the context goes on
(R56, R57, R203). -/
def State.Woke (s t : State) (k : Nat) (o : Outst) (ws : List Wr) : Prop :=
  let c := s.ctx k
  t = s.setCtx k { c with
    regs := c.regs.after (ws.filter fun x => !o.dropped.any fun y => x.same y)
    state := if c.state = .parked ∨ c.state = .blocked then (if c.member then .following else .running) else c.state
    serialWait := if c.state = .parked ∨ c.state = .blocked then false else c.serialWait
    win := { c.win with outst := [], wrote := c.win.wrote.put o.pos ws } }

/-- t is s with a trap of context k taken (R498): the cause, the value and the address of the instruction are in the trap registers of its mode, the
PC is at the vector, the registers and the rest of the state are as they were. -/
structure State.TrapTaken (s t : State) (k code : Nat) (val epc : Word) : Prop where
  rest : t = s.setCtx k (t.ctx k)
  pc : (t.ctx k).pc = (s.ctx k).vec &&& ~~~1
  mode : (t.ctx k).state = .running ∧ (t.ctx k).sup = (s.ctx k).sup ∧ (t.ctx k).regs = (s.ctx k).regs
  cause : (t.ctx k).cause.toNat % 2 ^ 32 = code ∧ bit (t.ctx k).cause.toNat 63 = true
  value : (if (s.ctx k).sup then (t.ctx k).sval else (t.ctx k).tval) = val
  back : (t.ctx k).epc = epc &&& ~~~1

/-- t is s with launch slot n ended (R255): its slot is free, its cores have let go of it and their contexts are free, no region or grid of it is left, and
its last event, of this type and with this cause, has been given to its event queue (R489). -/
def State.LaunchOver (s t : State) (n type cause : Nat) : Prop :=
  ∃ s1 : State, (s1.launch n).state = .free ∧
    ((s.launch n).state = .running → ∀ c ∈ s.coresOf (s.launch n), (s1.core c).slot = none ∧ ∀ j, j < 8 → (s1.ctx (c * 8 + j)).state = .free) ∧
    (∀ e ∈ s1.regions, e.1 / 64 ≠ n) ∧ (∀ e ∈ s1.grids, e.1 / 32 ≠ n) ∧
    t = s1.hostEvent (s.evqOf n) { type := type, slot := n, tag := s.tagOf n, info := cause, payload := 0 }

/-- Context t is at the start of an occupancy (R204, R214, R248): running at an address, its scalar registers as g gives them, v0 as given, and everything
else that the tables of those rules name at zero. -/
structure Ctx.Fresh (t : Ctx) (pc : Word) (g : Reg → Word) (v0 : VReg) : Prop where
  runs : t.state = .running ∧ t.pc = pc ∧ t.win = Win.reset ∧ t.frozenT = none ∧ t.frozenU = none
  scalars : ∀ r, t.regs.rs r = g r
  vectors : ∀ r, t.regs.rv r = if r = 0 then v0 else 0
  masks : ∀ r, t.regs.rk r = if r = 0 then BitVec.allOnes 64 else 0
  flags : t.fflags = 0 ∧ t.vstat = 0 ∧ t.mbx = 0 ∧ t.hold = 0
  traps : t.tvec = 0 ∧ t.tcause = 0 ∧ t.tval = 0 ∧ t.tepc = 0 ∧ t.xid = 0 ∧ t.uiepc = 0 ∧ t.uien = 0
  depth : t.depth = 0

/-- Message m may arrive at core c: the core serves every launch or runs that of the sender, whose launch is not saved there, and a thread that it names is
there (R206, R208). -/
structure State.Takes (s : State) (c : Nat) (m : Msg) : Prop where
  launch : s.isService c = true ∨ s.savedHere m.slot c = false ∧ (s.core c).slot = some m.slot
  thread : dstKind m.dst = 1 → s.threadHere m.dst = true

/-- t is s with message m among those that core c has yet to handle, bound to handler entry h, in the store or in the ring (R208, R209). -/
def State.Pends (s t : State) (c : Nat) (m : Msg) (h : HEntry) (spilled : Bool) : Prop :=
  t = (s.modCore c fun x => { x with recv := x.recv ++ [{ m with bound := some h, spilled := spilled }] }).post (.handlerStart c)

/-- t is s with message m on its way back to its sender's core as class 0, with a reason (R220). -/
def State.Bounces (s t : State) (m : Msg) (reason : Nat) : Prop :=
  t = ({ s with bounces := s.bounces ++ [{ m with dst := m.sender % 4096, cls := 0, reason := reason, sender := m.dst % 2 ^ 23, bound := none }] } : State).post
    (.bounce (m.sender % 4096))

/-- Host commands are accepted, none is under way, and no trip is on (R491, R521, R524). -/
structure State.TakesCommands (s : State) : Prop where
  ready : 6 ≤ s.pkg.bringup
  idle : s.commandBusy = false
  untripped : s.pkg.trip = none

end Machine

/-- A run of n steps that neither faults nor is refused. -/
def SafeFor (n : Nat) (s : Machine.State) : Prop := ∃ t, core.run n s = .next t

/-- A run that is safe however long it goes on. -/
def Safe (s : Machine.State) : Prop := ∀ n, SafeFor n s

end Sys2Proof
end

