-- ==== Sys2Proof/Certificates/Slice0/Obligations.lean ====
section
/-! DEFINITION. The claims about the model, stated for the provers. Each docstring names the rules that it formalises. A claim of several parts is
the conjunction of propositions that stand under `Parts`. -/

open Sys2Proof Sys2Proof.Machine



/-! ### Encoding and decoding -/

/-- R34 to R50: the decoder reads every well-formed instruction back from the bytes that the encoder writes for it, with its length. -/
def Obligations.EncodedInstructionsDecode : Prop :=
  ∀ i : Instr, i.wellFormed = true → decode (encode i) = .ok (i, i.length)

/-- R46, R52: what the decoder accepts is well-formed, and but for `HINT` its bytes are the ones the encoder writes: no reserved bit, no
unused field and no second encoding is let through. -/
def Obligations.AcceptedBytesAreEncodings : Prop :=
  ∀ (bs : List Byte) (i : Instr) (n : Nat), decode bs = .ok (i, n) →
    i.wellFormed = true ∧ n = i.length ∧ (i ≠ .hint → encode i = bs.take n)

/-- R35: the first parcel decides the length: the decoder refuses a shorter stream, and an instruction it answers has that length. -/
def Obligations.FirstParcelDecidesLength : Prop :=
  ∀ (bs : List Byte), 2 ≤ bs.length →
    let p := ofBytes (bs.take 2)
    let n := if p % 4 = 3 then (if p / 4 % 32 ≤ 0x1B then 4 else 8) else 2
    (bs.length < n → decode bs = .error .truncated) ∧ (∀ i m, decode bs = .ok (i, m) → m = n)

/-- Words that 02_encoding, 05_scalar and 06_vector write out decode to the instructions that they stand for (the worked window and function
of 02_encoding, R47, R50, R52, R190, R191, the worked top-k and dot product). -/
def Obligations.ManualWordsDecode : Prop :=
  decodeTableWord 32 0x20164293 = some (.ldD 2 5 4 1) ∧
  decodeTableWord 32 0x000E5303 = some (.add 0 6 5 7) ∧
  decodeTableWord 16 0x0500 = some (.addiN 8 1) ∧
  decodeTableWord 32 0x10061B13 = some (.ldD 1 22 1 0) ∧
  decodeTableWord 16 0x02A4 = some (.liN 21 0) ∧
  decodeTableWord 16 0x0731 = some (.beqzN 1 7) ∧
  decodeTableWord 16 0xFC40 = some (.addiN 2 0x3F) ∧
  decodeTableWord 16 0xB2AC = some (.addN 21 22) ∧
  decodeTableWord 16 0xFB35 = some (.bnezN 1 0xFB) ∧
  decodeTableWord 16 0xA830 = some (.mvN 1 21) ∧
  decodeTableWord 16 0xF806 = some (.jrN 31) ∧
  decodeTableWord 32 0x01400023 = some .nop ∧
  decodeTableWord 32 0x000411D3 = some (.kand 3 1 2) ∧
  decodeTableWord 32 0x0A2A42CB = some (.vcvt .fp32 0 5 4 21) ∧
  decodeTableWord 64 0x00000512010620FB = some (.vfma 2 .fp32 1 1 2 3 4) ∧
  decodeTableWord 64 0x00000A00110620FB = some (.vmad 0 .i32 0 1 2 3 4 1) ∧
  decodeTableWord 64 0x0000251018C0917B = some (.vtopk 0 .fp32 1 2 9 3 4) ∧
  decodeTableWord 64 0x0000070030C4127B = some (.vdotl 0 0 4 1 2 3) ∧
  decodeTableWord 16 0x0000 = none ∧
  decodeTableWord 32 0x0000003F = none

/-! ### The step -/

/-- A step that the schedule gives to context k, which runs, is not held up by its core, its launch, its windows, a yield or its hoist, and at
whose PC an instruction is fetched: the step is `exec` of the decoded instruction with k current, handed on to the context's followers
(R229), and then time passes.
Whose turn it is follows the schedule of the model (log 1). -/
def Obligations.StepRunsTheDecodedInstruction : Prop :=
  ∀ (s : State) (k len w : Nat) (i : Instr) (f : State), s.agent = .context k → k < contextCount →
    let s1 := (s.scheduled (.context k)).unyield k
    let c := s1.ctx k
    ((s.scheduled (.context k)).ctx k).state ≠ .free → (s.scheduled (.context k)).dark k = false → s1.frozenLaunch k = false →
    ((s1.core (coreOf k)).counters.any fun e => e.2.uip) = false →
    c.retry = false → c.win.stuck = false → c.state = .running → s1.yields k = false → c.member = false →
    c.win.done.contains c.win.seq = false → s1.portFull k = false → s1.fetch k = .bits len w f → decodeBits len w = some i →
    f.holds k i = false →
    step s = match f.carried k len w i (exec i { f with cur := k }) with
      | .next t => .next t.elapse
      | r => r

/-- R52, R53: bits that are no instruction trap with 0x01, the bits in the trap value, and nothing of them is executed. -/
def Obligations.IllegalBitsTrap : Prop :=
  ∀ (s : State) (k len w : Nat), decodeBits len w = none → (s.ctx k).win.outst = [] → (s.ctx k).Enabled →
    ∃ t, s.runFetched k len w = .next t ∧ t = s.setCtx k (t.ctx k) ∧ (s.ctx k).Trapped (t.ctx k) 0x01 (BitVec.ofNat 64 w)

/-! ### Reset and invariants -/

/-- What the manual states of the machine after reset: no context is in use, no launch runs, every core has the partition word 1 and forms a team of one
(R109, R262), HMASK is 1 (R210), STEALCFG holds 16, 32 and 2 (R237), BOUNCES and the prefetch counts are 0 (R212, R331), worker core n's
pager is core 16 - S + (n mod S) (R22), LTPERIOD is 1000 and LEASE 16 and H is 0 (R304, R305), the trap registers, XID, UIEPC, UIEN,
FFLAGS, VSTAT, FRAME and MBX are 0 (R84, R168, R236, R294, R352, R496), and CYC is 0 (R160). -/
def Obligations.ResetValues : Prop :=
  (∀ k, let c := State.reset.ctx k
    c.state = .free ∧ c.fflags = 0 ∧ c.vstat = 0 ∧ c.tvec = 0 ∧ c.tcause = 0 ∧ c.tval = 0 ∧ c.tepc = 0 ∧ c.svec = 0 ∧ c.scause = 0 ∧ c.sval = 0 ∧
      c.sepc = 0 ∧ c.xid = 0 ∧ c.uiepc = 0 ∧ c.uien = 0 ∧ c.frame = 0 ∧ c.mbx = 0 ∧ c.win = Win.reset ∧ c.frozenT = none ∧ c.frozenU = none) ∧
  (∀ c, let x := State.reset.core c
    x.pword = 1 ∧ geomMask x.geom = 2 ^ (c % 16) ∧ geomRows x.geom = 1 ∧ geomCols x.geom = 1 ∧ geomPer x.geom = 0 ∧ geomRow x.geom = 0 ∧ geomCol x.geom = 0 ∧
      x.hmask = 1 ∧ x.stealcfg = 16 * 2 ^ 16 + 32 * 2 ^ 8 + 2 ∧ x.bounces = 0 ∧ x.pfiss = 0 ∧ x.pfuse = 0 ∧ x.pflate = 0 ∧ x.pfdrop = 0 ∧
      x.handlers = [] ∧ x.deque = [] ∧ x.lease.state = .none ∧ x.slot = none ∧ x.dirty = 0 ∧
      x.pagermap = 16 - Config.serviceDefault + c % 16 % Config.serviceDefault) ∧
  (∀ d, let x := State.reset.die d
    x.ltperiod = 1000 ∧ x.lease = 16 ∧ x.home = 0 ∧ x.cyc = 0 ∧ x.locks = [] ∧ x.up = false) ∧
  (∀ n, (State.reset.launch n).state = .free) ∧ State.reset.evqs = [] ∧ State.reset.queues = []

/-- The memory of the machine after reset is in its canonical form: addresses strictly rising, no listed byte equal to what an unlisted one
reads as (that value is the model's own choice, log 7). -/
def Obligations.ResetMemoryCanonical : Prop := State.reset.MemOk

/-- Every step keeps the canonical form of memory: from any state whose memory is in it, a step that answers a next state answers one whose memory
is. -/
def Obligations.StepsKeepMemoryCanonical : Prop :=
  ∀ s t : State, s.MemOk → step s = .next t → t.MemOk

/-! ### Registers, issue and lookahead -/

/-- R133, R161, R164: s0 reads zero and k0 all ones, writes to them are discarded, every other register reads as the last write to it left it, and a
write of a register of one file changes no other register. -/
def Obligations.RegisterFiles : Prop :=
  ∀ (g : Regs) (r q : Reg) (m n : KReg) (x : Word) (y : VReg),
    g.rs 0 = 0 ∧ (g.ws r x).rs q = (if q = r ∧ r ≠ 0 then x else g.rs q) ∧ (g.ws r x).rv q = g.rv q ∧ (g.ws r x).rk n = g.rk n ∧
    (g.wv r y).rv q = (if q = r then y else g.rv q) ∧ (g.wv r y).rs q = g.rs q ∧ (g.wv r y).rk n = g.rk n ∧
    g.rk 0 = BitVec.allOnes 64 ∧ (g.wk m x).rk n = (if n = m ∧ m ≠ 0 then x else g.rk n) ∧ (g.wk m x).rs q = g.rs q ∧ (g.wk m x).rv q = g.rv q

/-- R57, R58: an instruction does not issue past a result whose window has run out and that is not there, and a serialising one not while any
result of its context is outstanding: the state stays as it is. -/
def Obligations.NothingIssuesPastAResultDue : Prop :=
  ∀ (s : State) (i : Instr), i.wellFormed = true →
    ((s.ctx s.cur).win.stuck = true ∨ (i.serial = true ∧ (s.ctx s.cur).win.waiting = true)) → exec i s = .next s

/-- R56, R57: when the windows of a context that has no fault outstanding are brought up to date, each result that is there and whose window has
run out is written, oldest first, but for the registers that its window has written; every other outstanding result stays outstanding, and
nothing else of the state changes but what the context counts as.
That results are written when their window has run out, and not earlier, is the model's reading (log 8). -/
def Obligations.ResultsAreWrittenAtTheirWindowsEnd : Prop :=
  ∀ (s : State) (k : Nat), let c := s.ctx k
    c.win.outst.any Outst.faulted = false → (∀ o ∈ c.win.outst, ∀ w ∈ o.writes, w.isTile = false) →
    let ripe := c.win.outst.filter fun o => o.due c.win.seq && !o.pending
    let t := s.advance k
    t = s.setCtx k (t.ctx k) ∧ (t.ctx k).regs = c.regs.after (ripe.flatMap Outst.writes) ∧
      (t.ctx k).win = { c.win with outst := c.win.outst.filter fun o => !(o.due c.win.seq && !o.pending) } ∧
      (t.ctx k) = { c with regs := (t.ctx k).regs, win := (t.ctx k).win, state := (t.ctx k).state, member := (t.ctx k).member,
                           latch := (t.ctx k).latch, serialWait := (t.ctx k).serialWait } ∧
      ((∀ o ∈ c.win.outst, o.due c.win.seq = true → o.pending = false) → c.state = .running → (t.ctx k).state = .running)

/-- R60: bit j of the skip mask of a trap at place p is set exactly where j < 15 and the place j + 1 further on is done. -/
def Parts.SkipMaskMarksThePlacesDone : Prop :=
  ∀ (done : List Nat) (p j : Nat), (skipMask done p).testBit j = (decide (j < 15) && done.contains (p + j + 1))

/-! ### Traps -/

/-- R498: an enabled trap puts cause, INH and skip mask, value and address into the registers of the context's mode, freezes its windows, and
goes on at the vector; every other register, the rest of the context and the rest of the state stay as they are. -/
def Parts.TrapEntry : Prop :=
  ∀ (s : State) (k p code : Nat) (val epc : Word) (done : List Nat), (s.ctx k).Enabled → code < 256 →
    let c := s.ctx k
    let t := s.enterTrap k p code val epc done
    let x := t.ctx k
    t = s.setCtx k x ∧ x.pc = c.vec &&& ~~~1 ∧ x.cause.toNat = 2 ^ 63 + skipMask done p * 2 ^ 32 + code ∧
      (c.sup = true → x.sval = val ∧ x.sepc = epc &&& ~~~1 ∧ x.tcause = c.tcause ∧ x.tval = c.tval ∧ x.tepc = c.tepc) ∧
      (c.sup = false → x.tval = val ∧ x.tepc = epc &&& ~~~1 ∧ x.scause = c.scause ∧ x.sval = c.sval ∧ x.sepc = c.sepc) ∧
      x.sup = c.sup ∧ x.regs = c.regs ∧ x.fflags = c.fflags ∧ x.vstat = c.vstat ∧ x.tvec = c.tvec ∧ x.svec = c.svec ∧ x.xid = c.xid ∧ x.uiepc = c.uiepc ∧
      x.uien = c.uien ∧ x.frame = c.frame ∧ x.mbx = c.mbx ∧ x.asid = c.asid ∧ x.ltime = c.ltime ∧ x.win = Win.reset

/-- R499: a trap of a user context that cannot be taken, because its vector is off or its handler still runs, ends the launch of its core with
the cause; in supervisor mode it stops the core and tells event queue 0, and no context changes. -/
def Parts.TrapThatCannotBeTaken : Prop :=
  ∀ (s : State) (k p code : Nat) (val epc : Word) (done : List Nat), ((s.ctx k).vec.toNat % 2 = 0 ∨ (s.ctx k).cause.getLsbD 63 = true) →
    let t := s.enterTrap k p code val epc done
    ((s.ctx k).sup = false → t = s.failLaunch (s.slotOf (coreOf k)) code) ∧
    ((s.ctx k).sup = true → (t.core (coreOf k)).stopped = true ∧ t.ctxs = s.ctxs ∧ t.mem = s.mem ∧
      t = (s.modCore (coreOf k) fun x => { x with stopped := true }).hostEvent 0 { type := 3, slot := 0xFFFF, tag := 0, info := code, payload := 0 })

/-- R60, R498, R499: how a trap is taken, what its skip mask says, and what becomes of one that cannot be taken. -/
def Obligations.TrapEntries : Prop :=
  Parts.TrapEntry ∧ Parts.TrapThatCannotBeTaken ∧ Parts.SkipMaskMarksThePlacesDone

/-- R502: `TRAP` raises 0x14 with s[A] as the value; the resume address is that of the next instruction and SKIP is 0. -/
def Parts.ProgramTrap : Prop :=
  ∀ (s : State) (a : Reg), s.Ready → (s.ctx s.cur).Enabled →
    ∃ t, exec (.trap a) s = .next t ∧ t = s.setCtx s.cur (t.ctx s.cur) ∧
      let c := s.ctx s.cur
      let x := t.ctx s.cur
      x.pc = c.vec &&& ~~~1 ∧ x.cause = 0x8000000000000014 ∧ x.epc = (c.pc + 4) &&& ~~~1 ∧ (if c.sup then x.sval else x.tval) = c.regs.rs a ∧
      x.regs = c.regs ∧ x.fflags = c.fflags ∧ x.vstat = c.vstat ∧ x.win = Win.reset ∧
      ∃ w, x.frozenT = some w ∧ w.outst = [] ∧ w.seq = c.win.seq + 1

/-- R503: with INH set, `ERET` clears INH and SKIP and goes on at the resume address with the frozen windows open again, the places that SKIP marks
passed over; with INH clear it traps with 0x01. -/
def Parts.TrapReturn : Prop :=
  ∀ (s : State), s.Ready →
    ((s.ctx s.cur).cause.getLsbD 63 = true → ∃ t, exec .eret s = .next t ∧ t = s.setCtx s.cur (t.ctx s.cur) ∧
      let c := s.ctx s.cur
      let x := t.ctx s.cur
      let w := c.frozenT.getD Win.reset
      x.pc = c.epc ∧ x.cause = c.cause &&& 0x7FFF8000FFFFFFFF ∧ x.frozenT = none ∧ x.regs = c.regs ∧ x.sup = c.sup ∧ x.fflags = c.fflags ∧
      x.vstat = c.vstat ∧ x.epc = c.epc ∧ x.win.outst = w.outst ∧ x.win.seq = w.seq ∧
      (∀ j, j < 15 → (w.seq + j + 1 ∈ x.win.done ↔ c.cause.getLsbD (32 + j) = true))) ∧
    ((s.ctx s.cur).cause.getLsbD 63 = false → (s.ctx s.cur).Enabled → s.Traps .eret 0x01 0x0048002B)

/-- R355: with ACTIVE set, `UIRET` clears ACTIVE and goes on at `UIEPC` with the windows of the interrupted code; with ACTIVE clear it traps with
0x01. -/
def Parts.InterruptReturn : Prop :=
  ∀ (s : State), s.Ready →
    ((s.ctx s.cur).uien.getLsbD 1 = true → ∃ t, exec .uiret s = .next t ∧ t = (s.setCtx s.cur (t.ctx s.cur)).post (.completionInterrupt s.cur) ∧
      let c := s.ctx s.cur
      let x := t.ctx s.cur
      x.pc = c.uiepc ∧ x.uien = c.uien &&& ~~~2 ∧ x.win = c.frozenU.getD Win.reset ∧ x.frozenU = none ∧ x.uiepc = c.uiepc ∧ x.regs = c.regs ∧
      x.fflags = c.fflags ∧ x.vstat = c.vstat ∧ x.frozenT = c.frozenT) ∧
    ((s.ctx s.cur).uien.getLsbD 1 = false → (s.ctx s.cur).Enabled → s.Traps .uiret 0x01 0x0068002B)

/-- R355, R502, R503: `TRAP`, `ERET` and `UIRET`. -/
def Obligations.TrapInstructions : Prop :=
  Parts.ProgramTrap ∧ Parts.TrapReturn ∧ Parts.InterruptReturn

/-! ### Scalar instructions -/

/-- R136, R137: the two-operand functions of major 0x00 on the values at issue, results modulo 2^64; nothing else changes. -/
def Parts.ScalarArithmetic : Prop :=
  ∀ (s : State) (l : La) (d a b : Reg), s.Ready →
    let x := (s.ctx s.cur).regs.rs a
    let y := (s.ctx s.cur).regs.rs b
    s.Sets (.add l d a b) l.toNat [.s d (x + y)] ∧
    s.Sets (.sub l d a b) l.toNat [.s d (x - y)] ∧
    s.Sets (.mul l d a b) l.toNat [.s d (x * y)] ∧
    s.Sets (.mulh l d a b) l.toNat [.s d (BitVec.ofInt 64 (x.toInt * y.toInt / 2 ^ 64))] ∧
    s.Sets (.mulhu l d a b) l.toNat [.s d (BitVec.ofNat 64 (x.toNat * y.toNat / 2 ^ 64))] ∧
    s.Sets (.and l d a b) l.toNat [.s d (x &&& y)] ∧
    s.Sets (.or l d a b) l.toNat [.s d (x ||| y)] ∧
    s.Sets (.xor l d a b) l.toNat [.s d (x ^^^ y)] ∧
    s.Sets (.andn l d a b) l.toNat [.s d (x &&& ~~~y)] ∧
    s.Sets (.shl l d a b) l.toNat [.s d (BitVec.ofNat 64 (x.toNat * 2 ^ (y.toNat % 64)))] ∧
    s.Sets (.shr l d a b) l.toNat [.s d (BitVec.ofNat 64 (x.toNat / 2 ^ (y.toNat % 64)))] ∧
    s.Sets (.sar l d a b) l.toNat [.s d (BitVec.ofInt 64 (x.toInt / 2 ^ (y.toNat % 64)))] ∧
    s.Sets (.rotr l d a b) l.toNat [.s d (BitVec.ofNat 64 (x.toNat / 2 ^ (y.toNat % 64) + x.toNat * 2 ^ (64 - y.toNat % 64)))] ∧
    s.Sets (.min l d a b) l.toNat [.s d (if x.toInt ≤ y.toInt then x else y)] ∧
    s.Sets (.max l d a b) l.toNat [.s d (if x.toInt ≤ y.toInt then y else x)] ∧
    s.Sets (.minu l d a b) l.toNat [.s d (if x.toNat ≤ y.toNat then x else y)] ∧
    s.Sets (.maxu l d a b) l.toNat [.s d (if x.toNat ≤ y.toNat then y else x)] ∧
    s.Sets (.slt l d a b) l.toNat [.s d (if x.toInt < y.toInt then 1 else 0)] ∧
    s.Sets (.sltu l d a b) l.toNat [.s d (if x.toNat < y.toNat then 1 else 0)] ∧
    s.Sets (.seq l d a b) l.toNat [.s d (if x = y then 1 else 0)] ∧
    s.Sets (.addsat l d a b) l.toNat [.s d (BitVec.ofInt 64 (max (-(2 ^ 63)) (min (2 ^ 63 - 1) (x.toInt + y.toInt))))]

/-- R137, R139: counts, extensions and bit fields. -/
def Parts.ScalarBitFunctions : Prop :=
  ∀ (s : State) (l : La) (d a b : Reg), s.Ready →
    let x := (s.ctx s.cur).regs.rs a
    let y := (s.ctx s.cur).regs.rs b
    let old := (s.ctx s.cur).regs.rs d
    let p := y.toNat % 64
    let n := min (y.toNat / 2 ^ 8 % 2 ^ 7) 64
    (∃ c : Nat, s.Sets (.clz l d a) l.toNat [.s d (BitVec.ofNat 64 c)] ∧ c ≤ 64 ∧ x.toNat < 2 ^ (64 - c) ∧ (c < 64 → 2 ^ (63 - c) ≤ x.toNat)) ∧
    (∃ c : Nat, s.Sets (.ctz l d a) l.toNat [.s d (BitVec.ofNat 64 c)] ∧ c ≤ 64 ∧ (∀ j, j < c → x.getLsbD j = false) ∧ (c < 64 → x.getLsbD c = true)) ∧
    s.Sets (.popc l d a) l.toNat [.s d (BitVec.ofNat 64 ((List.range 64).countP fun j => x.getLsbD j))] ∧
    s.Sets (.sext l d a 0) l.toNat [.s d ((x.setWidth 8).signExtend 64)] ∧
    s.Sets (.sext l d a 1) l.toNat [.s d ((x.setWidth 16).signExtend 64)] ∧
    s.Sets (.sext l d a 2) l.toNat [.s d ((x.setWidth 32).signExtend 64)] ∧
    s.Sets (.zext l d a 0) l.toNat [.s d (BitVec.ofNat 64 (x.toNat % 2 ^ 8))] ∧
    s.Sets (.zext l d a 1) l.toNat [.s d (BitVec.ofNat 64 (x.toNat % 2 ^ 16))] ∧
    s.Sets (.zext l d a 2) l.toNat [.s d (BitVec.ofNat 64 (x.toNat % 2 ^ 32))] ∧
    s.Sets (.bfx l d a b) l.toNat [.s d (BitVec.ofNat 64 (x.toNat / 2 ^ p % 2 ^ n))] ∧
    ∃ z : Word, s.Sets (.bfi l d a b) l.toNat [.s d z] ∧ ∀ j, j < 64 → z.getLsbD j = if p ≤ j ∧ j < p + n then x.getLsbD (j - p) else old.getLsbD j

/-- R137, R138: a division by a divisor other than zero. -/
def Parts.Division : Prop :=
  ∀ (s : State) (l : La) (d a b : Reg), s.Ready →
    let x := (s.ctx s.cur).regs.rs a
    let y := (s.ctx s.cur).regs.rs b
    y ≠ 0 →
    s.Sets (.div l d a b) l.toNat [.s d (BitVec.ofInt 64 (x.toInt.tdiv y.toInt))] ∧
    s.Sets (.divu l d a b) l.toNat [.s d (BitVec.ofNat 64 (x.toNat / y.toNat))] ∧
    s.Sets (.rem l d a b) l.toNat [.s d (BitVec.ofInt 64 (x.toInt.tmod y.toInt))] ∧
    s.Sets (.remu l d a b) l.toNat [.s d (BitVec.ofNat 64 (x.toNat % y.toNat))]

/-- R138, R60: a division by zero traps with 0x05 and the dividend, and its destination keeps its value: at once without lookahead; with lookahead
the fault is kept for the end of its window. -/
def Parts.DivisionByZero : Prop :=
  ∀ (s : State) (i : Instr) (l : La) (d a b : Reg), s.Ready → (s.ctx s.cur).regs.rs b = 0 →
    (i = .div l d a b ∨ i = .divu l d a b ∨ i = .rem l d a b ∨ i = .remu l d a b) →
    (l = 0 → (s.ctx s.cur).Enabled → s.Traps i 0x05 ((s.ctx s.cur).regs.rs a)) ∧
    (l ≠ 0 → s.Defers i l.toNat 0x05 ((s.ctx s.cur).regs.rs a))

/-- R136 to R139: the scalar instructions of major 0x00, and the trap of a division by zero.
That a fault with lookahead is kept for the end of its window is the model's reading (log 8). -/
def Obligations.ScalarFunctions : Prop :=
  Parts.ScalarArithmetic ∧ Parts.ScalarBitFunctions ∧ Parts.Division ∧ Parts.DivisionByZero

/-- R140 to R142: the immediate instructions; a signed immediate of 12 bits, an upper one of 20. -/
def Parts.Immediates : Prop :=
  ∀ (s : State) (d a : Reg) (i : BitVec 12) (u : BitVec 20) (n : BitVec 6), s.Ready →
    let x := (s.ctx s.cur).regs.rs a
    s.Sets (.addi d a i) 0 [.s d (BitVec.ofInt 64 (x.toInt + i.toInt))] ∧
    s.Sets (.andi d a i) 0 [.s d (x &&& BitVec.ofInt 64 i.toInt)] ∧
    s.Sets (.ori d a i) 0 [.s d (x ||| BitVec.ofInt 64 i.toInt)] ∧
    s.Sets (.xori d a i) 0 [.s d (x ^^^ BitVec.ofInt 64 i.toInt)] ∧
    s.Sets (.slti d a i) 0 [.s d (if x.toInt < i.toInt then 1 else 0)] ∧
    s.Sets (.sltiu d a i) 0 [.s d (if x.toNat < (BitVec.ofInt 64 i.toInt).toNat then 1 else 0)] ∧
    s.Sets (.muli d a i) 0 [.s d (BitVec.ofInt 64 (x.toInt * i.toInt))] ∧
    s.Sets (.lui d u) 0 [.s d (BitVec.ofInt 64 (u.toInt * 2 ^ 12))] ∧
    s.Sets (.auipc d u) 0 [.s d ((s.ctx s.cur).pc + BitVec.ofInt 64 (u.toInt * 2 ^ 12))] ∧
    s.Sets (.shifti 0 d a n) 0 [.s d (BitVec.ofNat 64 (x.toNat * 2 ^ n.toNat))] ∧
    s.Sets (.shifti 1 d a n) 0 [.s d (BitVec.ofNat 64 (x.toNat / 2 ^ n.toNat))] ∧
    s.Sets (.shifti 2 d a n) 0 [.s d (BitVec.ofInt 64 (x.toInt / 2 ^ n.toNat))] ∧
    s.Sets (.shifti 3 d a n) 0 [.s d (BitVec.ofNat 64 (x.toNat / 2 ^ n.toNat + x.toNat * 2 ^ (64 - n.toNat)))]

/-- R50: the compact arithmetic forms do what the forms that they stand for do. -/
def Parts.CompactArithmetic : Prop :=
  ∀ (s : State) (d a : Reg) (i : BitVec 6), s.Ready →
    let x := (s.ctx s.cur).regs.rs d
    let y := (s.ctx s.cur).regs.rs a
    s.Sets (.addiN d i) 0 [.s d (BitVec.ofInt 64 (x.toInt + i.toInt))] ∧
    s.Sets (.liN d i) 0 [.s d (BitVec.ofInt 64 i.toInt)] ∧
    s.Sets (.shliN d i) 0 [.s d (BitVec.ofNat 64 (x.toNat * 2 ^ i.toNat))] ∧
    s.Sets (.addN d a) 0 [.s d (x + y)] ∧
    s.Sets (.subN d a) 0 [.s d (x - y)] ∧
    s.Sets (.mvN d a) 0 [.s d y]

/-- R50, R140 to R142: the immediate instructions and the compact arithmetic. -/
def Obligations.ImmediateForms : Prop :=
  Parts.Immediates ∧ Parts.CompactArithmetic

/-- R147, R148: a branch goes to its target where its condition holds, and to the next instruction where it does not; the target counts two-byte
units from the branch itself. It writes nothing. -/
def Parts.Branches : Prop :=
  ∀ (s : State) (a b : Reg) (k : KReg) (n : BitVec 3) (p : BitVec 12) (q : BitVec 8), s.Ready →
    let g := (s.ctx s.cur).regs
    let pc := (s.ctx s.cur).pc
    let to_ := fun (i : Instr) (taken : Prop) (target : Word) =>
      (taken → s.Gives i ((s.started i).modCtx s.cur fun c => { c with pc := target }) 0 []) ∧ (¬taken → s.Sets i 0 [])
    let far := pc + BitVec.ofInt 64 (2 * p.toInt)
    let near := pc + BitVec.ofInt 64 (2 * q.toInt)
    let x := g.rs (BitVec.ofNat 5 (n.toNat + 1))
    to_ (.beq a b p) (g.rs a = g.rs b) far ∧
    to_ (.bne a b p) (g.rs a ≠ g.rs b) far ∧
    to_ (.blt a b p) ((g.rs a).toInt < (g.rs b).toInt) far ∧
    to_ (.bge a b p) ((g.rs b).toInt ≤ (g.rs a).toInt) far ∧
    to_ (.bltu a b p) ((g.rs a).toNat < (g.rs b).toNat) far ∧
    to_ (.bgeu a b p) ((g.rs b).toNat ≤ (g.rs a).toNat) far ∧
    to_ (.bkany k p) (g.rk k ≠ 0) far ∧
    to_ (.bknone k p) (g.rk k = 0) far ∧
    to_ (.beqzN n q) (x = 0) near ∧
    to_ (.bnezN n q) (x ≠ 0) near

/-- R149, R150, R50: the jumps. The link is the address after the jump; a register jump to an odd address traps with 0x03 and writes nothing. -/
def Parts.Jumps : Prop :=
  ∀ (s : State) (d a : Reg) (u : BitVec 20) (v : BitVec 11), s.Ready →
    let pc := (s.ctx s.cur).pc
    let x := (s.ctx s.cur).regs.rs a
    let at_ := fun (i : Instr) (target : Word) => (s.started i).modCtx s.cur fun c => { c with pc := target }
    s.Gives (.jl d u) (at_ (.jl d u) (pc + BitVec.ofInt 64 (2 * u.toInt))) 0 [.s d (pc + 4)] ∧
    s.Gives (.jN v) (at_ (.jN v) (pc + BitVec.ofInt 64 (2 * v.toInt))) 0 [] ∧
    (x.getLsbD 0 = false → s.Gives (.jlr d a) (at_ (.jlr d a) x) 0 [.s d (pc + 4)] ∧ s.Gives (.jrN a) (at_ (.jrN a) x) 0 [.s 0 (pc + 2)]) ∧
    (x.getLsbD 0 = true → (s.ctx s.cur).Enabled → s.Traps (.jlr d a) 0x03 x ∧ s.Traps (.jrN a) 0x03 x)

/-- R152, R153: `NOP` and `HINT` do nothing; `YIELD` notes the other contexts of its core that are ready to issue, changes no register, CSR or byte of
memory, and with no other ready notes none. -/
def Parts.NopHintYield : Prop :=
  ∀ (s : State), s.Ready →
    s.Sets .nop 0 [] ∧ s.Sets .hint 0 [] ∧
    ∃ ys, s.Gives .yield ((s.started .yield).modCtx s.cur fun c => { c with yielded := ys }) 0 [] ∧
      ∀ j, j ∈ ys ↔ (coreOf j = coreOf s.cur ∧ j ≠ s.cur ∧ (s.ctx j).issues = true)

/-- R147 to R153: branches, jumps, `NOP`, `HINT` and `YIELD`. -/
def Obligations.JumpsAndHints : Prop :=
  Parts.Branches ∧ Parts.Jumps ∧ Parts.NopHintYield

/-- R190: the mask instructions write all 64 bits. -/
def Parts.MaskInstructions : Prop :=
  ∀ (s : State) (d a b : KReg) (r q : Reg), s.Ready →
    let x := (s.ctx s.cur).regs.rk a
    let y := (s.ctx s.cur).regs.rk b
    let z := (s.ctx s.cur).regs.rs q
    s.Sets (.kand d a b) 0 [.k d (x &&& y)] ∧
    s.Sets (.kor d a b) 0 [.k d (x ||| y)] ∧
    s.Sets (.kxor d a b) 0 [.k d (x ^^^ y)] ∧
    s.Sets (.kandn d a b) 0 [.k d (x &&& ~~~y)] ∧
    s.Sets (.knot d a) 0 [.k d (~~~x)] ∧
    s.Sets (.kfrom d q) 0 [.k d z] ∧
    s.Sets (.kto r a) 0 [.s r x] ∧
    s.Sets (.kpop r a) 0 [.s r (BitVec.ofNat 64 ((List.range 64).countP fun j => x.getLsbD j))] ∧
    (∃ c : Nat, s.Sets (.kfirst r a) 0 [.s r (BitVec.ofNat 64 c)] ∧ c ≤ 64 ∧ (∀ j, j < c → x.getLsbD j = false) ∧ (c < 64 → x.getLsbD c = true)) ∧
    ∃ m : Word, s.Sets (.kfill d q) 0 [.k d m] ∧ ∀ j, j < 64 → m.getLsbD j = decide (j < z.toNat)

/-! ### Vector instructions -/

/-- R165, R175: the integer vector instructions, element by element: a and b are the elements read unsigned, x and y the same read signed; results
are the low w bits, and no flag is set. -/
def Parts.VectorIntegers : Prop :=
  ∀ (s : State) (t : ElTy) (k : KReg) (d p q : Reg), s.Ready →
    let w := t.width
    let a := fun j => elem w ((s.ctx s.cur).regs.rv p) j
    let b := fun j => elem w ((s.ctx s.cur).regs.rv q) j
    let x := fun j => sext (a j) w
    let y := fun j => sext (b j) w
    let wrap := fun (z : Int) => (z % 2 ^ w).toNat
    s.Lanes (.vadd t k d p q) 0 t k d (fun j => (a j + b j, 0)) ∧
    s.Lanes (.vsub t k d p q) 0 t k d (fun j => (wrap (x j - y j), 0)) ∧
    s.Lanes (.vmul t k d p q) 0 t k d (fun j => (a j * b j, 0)) ∧
    s.Lanes (.vmulh t k d p q) 0 t k d (fun j => (wrap (x j * y j / 2 ^ w), 0)) ∧
    s.Lanes (.vmin t k d p q) 0 t k d (fun j => (if x j ≤ y j then a j else b j, 0)) ∧
    s.Lanes (.vmax t k d p q) 0 t k d (fun j => (if x j ≤ y j then b j else a j, 0)) ∧
    s.Lanes (.vminu t k d p q) 0 t k d (fun j => (min (a j) (b j), 0)) ∧
    s.Lanes (.vmaxu t k d p q) 0 t k d (fun j => (max (a j) (b j), 0)) ∧
    s.Lanes (.vabs t k d p) 0 t k d (fun j => ((x j).natAbs, 0)) ∧
    s.Lanes (.vand t k d p q) 0 t k d (fun j => (a j &&& b j, 0)) ∧
    s.Lanes (.vor t k d p q) 0 t k d (fun j => (a j ||| b j, 0)) ∧
    s.Lanes (.vxor t k d p q) 0 t k d (fun j => (a j ^^^ b j, 0)) ∧
    s.Lanes (.vshl t k d p q) 0 t k d (fun j => (a j * 2 ^ (b j % w), 0)) ∧
    s.Lanes (.vshr t k d p q) 0 t k d (fun j => (a j / 2 ^ (b j % w), 0)) ∧
    s.Lanes (.vsar t k d p q) 0 t k d (fun j => (wrap (x j / 2 ^ (b j % w)), 0))

/-- R167, R176, R178: the comparisons write all 64 bits of their mask; the integer ones by the condition of their K field, the float ones by the
order of the values, with NV for a NaN that the condition signals. -/
def Parts.VectorComparisons : Prop :=
  ∀ (s : State) (t : ElTy) (k : KReg) (p q : Reg) (c : BitVec 3), s.Ready →
    let w := t.width
    let a := fun j => elem w ((s.ctx s.cur).regs.rv p) j
    let b := fun j => elem w ((s.ctx s.cur).regs.rv q) j
    let x := fun j => sext (a j) w
    let y := fun j => sext (b j) w
    let u := fun j => (fmtOf t).read (a j)
    let v := fun j => (fmtOf t).read (b j)
    let un := fun j => (u j).isNan || (v j).isNan
    s.Compares (.vcmp t k p q c) t k (fun j => (decide (
      (c = 0 ∧ a j = b j) ∨ (c = 1 ∧ a j ≠ b j) ∨ (c = 2 ∧ x j < y j) ∨ (c = 3 ∧ y j ≤ x j) ∨ (c = 4 ∧ a j < b j) ∨ (c = 5 ∧ b j ≤ a j) ∨
      (c = 6 ∧ x j ≤ y j) ∨ (c = 7 ∧ y j < x j)), 0)) ∧
    s.Compares (.vfcmp t k p q c) t k (fun j => (
      (c == 0 && !un j && (u j).order (v j) == 0) || (c == 1 && (un j || (u j).order (v j) != 0)) ||
      (c == 2 && !un j && (u j).order (v j) == -1) || (c == 3 && !un j && (u j).order (v j) != 1) ||
      (c == 4 && !un j && (u j).order (v j) == 1) || (c == 5 && !un j && (u j).order (v j) != -1) || (c == 6 && un j) || (c == 7 && !un j),
      if un j && ((u j).isSig || (v j).isSig || (decide (2 ≤ c.toNat) && decide (c.toNat ≤ 5))) then fNV else 0))

/-- R165, R167, R175, R176, R178, R190: the integer vector instructions, the comparisons and the mask instructions. -/
def Obligations.VectorIntegerInstructions : Prop :=
  Parts.MaskInstructions ∧ Parts.VectorIntegers ∧ Parts.VectorComparisons

/-- R165, R177 to R180: the float vector instructions: each element is the format's own function of the source elements, with its flags. `VFABS`
clears the sign bit and `VFNEG` inverts it, and neither sets a flag (R79). -/
def Obligations.VectorFloats : Prop :=
  ∀ (s : State) (t : ElTy) (k : KReg) (d p q : Reg) (r : BitVec 2), s.Ready →
    let f := fmtOf t
    let a := fun j => elem t.width ((s.ctx s.cur).regs.rv p) j
    let b := fun j => elem t.width ((s.ctx s.cur).regs.rv q) j
    s.Lanes (.vfadd t k d p q) 0 t k d (fun j => f.add (a j) (b j)) ∧
    s.Lanes (.vfsub t k d p q) 0 t k d (fun j => f.sub (a j) (b j)) ∧
    s.Lanes (.vfmul t k d p q) 0 t k d (fun j => f.mul (a j) (b j)) ∧
    s.Lanes (.vfdiv t k d p q) 0 t k d (fun j => f.div (a j) (b j)) ∧
    s.Lanes (.vfsqrt t k d p) 0 t k d (fun j => f.sqrt (a j)) ∧
    s.Lanes (.vfmin t k d p q) 0 t k d (fun j => f.minmax false (a j) (b j)) ∧
    s.Lanes (.vfmax t k d p q) 0 t k d (fun j => f.minmax true (a j) (b j)) ∧
    s.Lanes (.vfrsq t k d p) 0 t k d (fun j => f.rsq (a j)) ∧
    s.Lanes (.vfexp2 t k d p) 0 t k d (fun j => f.exp2 (a j)) ∧
    s.Lanes (.vflog2 t k d p) 0 t k d (fun j => f.log2 (a j)) ∧
    s.Lanes (.vflse t k d p q) 0 t k d (fun j => f.lse (a j) (b j)) ∧
    s.Lanes (.vfrnd t k d p r) 0 t k d (fun j => f.integral r.toNat (a j)) ∧
    s.Lanes (.vfclass t k d p) 0 t k d (fun j => (f.classify (a j), 0)) ∧
    (t.isFloat = true →
      s.Lanes (.vfabs t k d p) 0 t k d (fun j => (a j % 2 ^ (t.width - 1), 0)) ∧
      s.Lanes (.vfneg t k d p) 0 t k d (fun j => (a j ^^^ 2 ^ (t.width - 1), 0)))

/-- R78: a finite value that is rounded to nearest and does not overflow becomes the representable value nearest to it: no finite pattern of the
format is nearer. Values are compared as integers over a common power of two. -/
def Parts.RoundingIsNearest : Prop :=
  ∀ (t : ElTy) (neg : Bool) (m : Nat) (e : Int) (x fl : Nat), t.isFloat = true → (fmtOf t).round 0 neg m e = (x, fl) → fl.testBit 2 = false →
    ∃ n' m' e', (fmtOf t).read x = .fin n' m' e' ∧
      ∀ y n m2 e2, (fmtOf t).read y = .fin n m2 e2 →
        let lo := min e (min e' e2)
        (scaled n' m' e' lo - scaled neg m e lo).natAbs ≤ (scaled n m2 e2 lo - scaled neg m e lo).natAbs

/-- R79, R80: special operands of the float operations: division by zero and of zero, the square roots, minimum and maximum with a NaN, and a NaN
that comes from numbers is the canonical one with NV. -/
def Parts.SpecialFloatOperands : Prop :=
  ∀ (t : ElTy), t.isFloat = true →
    let f := fmtOf t
    let neg := f.sign
    (∀ x n m e, f.read x = .fin n m e → m ≠ 0 → x < 2 ^ t.width →
      f.div x 0 = (f.signed n f.inf, fDZ) ∧ f.div x neg = (f.signed (!n) f.inf, fDZ) ∧
      (n = true → f.sqrt x = (f.nan, fNV) ∧ f.rsq x = (f.nan, fNV) ∧ f.log2 x = (f.nan, fNV)) ∧
      f.minmax false x f.nan = (x, 0) ∧ f.minmax true f.nan x = (x, 0)) ∧
    f.div 0 0 = (f.nan, fNV) ∧ f.div f.inf f.inf = (f.nan, fNV) ∧ f.sqrt neg = (neg, 0) ∧ f.sqrt (neg + f.inf) = (f.nan, fNV) ∧
    f.rsq 0 = (f.inf, fDZ) ∧ f.rsq neg = (neg + f.inf, fDZ) ∧ f.rsq f.inf = (0, 0) ∧ f.exp2 f.inf = (f.inf, 0) ∧ f.exp2 (neg + f.inf) = (0, 0) ∧
    f.log2 0 = (neg + f.inf, fDZ) ∧ f.log2 neg = (neg + f.inf, fDZ) ∧ f.log2 f.inf = (f.inf, 0) ∧ f.minmax false 0 neg = (neg, 0) ∧
    f.minmax true 0 neg = (0, 0) ∧ f.minmax false f.nan f.nan = (f.nan, 0) ∧ f.add f.inf (neg + f.inf) = (f.nan, fNV) ∧ f.mul 0 f.inf = (f.nan, fNV)

/-- R78 to R80: rounding to nearest, and the special operands. -/
def Obligations.FloatArithmetic : Prop :=
  Parts.RoundingIsNearest ∧ Parts.SpecialFloatOperands

/-- R181 to R185: conversions place their elements by the widths and PART, or trap with 0x01 for a pair that is no conversion; broadcasts, the
element moves between files and `VIOTA`. -/
def Parts.VectorConversions : Prop :=
  ∀ (s : State) (t : ElTy) (k : KReg) (d p q : Reg), s.Ready →
    let g := (s.ctx s.cur).regs
    let c := cvtOf (g.rs q)
    let ws := if c.w48 then 64 else c.src.width
    let wd := t.width
    let n := 512 / max ws wd
    let part := c.part % (max ws wd / min ws wd)
    (c.refused t = false → ∃ x fl, s.Gives (.vcvt t k d p q) ((s.started (.vcvt t k d p q)).flag s.cur fl) 0 [.v d x] ∧
      ∀ j, j < t.lanes → elem wd x j =
        if (g.rk k).getLsbD j = false ∨ (wd < ws ∧ ¬(part * n ≤ j ∧ j < part * n + n)) then elem wd (g.rv d) j
        else (c.element t (elem ws (g.rv p) (if wd < ws then j - part * n else part * n + j))).1 % 2 ^ wd) ∧
    (c.refused t = true → (s.ctx s.cur).Enabled → s.Traps (.vcvt t k d p q) 0x01 (BitVec.ofNat 64 (Instr.vcvt t k d p q).word)) ∧
    s.Lanes (.vbcast t k d p) 0 t k d (fun _ => ((g.rs p).toNat, 0)) ∧
    s.Lanes (.viota t k d) 0 t k d (fun j => ((List.range j).countP fun i => (g.rk k).getLsbD i, 0)) ∧
    (let e := elem wd (g.rv p) ((g.rs q).toNat % t.lanes)
     s.Sets (.vext t d p q) 0 [.s d (if t.isInt then BitVec.ofInt 64 (sext e wd) else BitVec.ofNat 64 e)]) ∧
    ∃ x, s.Sets (.vins t d p q) 0 [.v d x] ∧
      ∀ j, j < t.lanes → elem wd x j = if j = (g.rs q).toNat % t.lanes then (g.rs p).toNat % 2 ^ wd else elem wd (g.rv d) j

/-- R93, R186: packing and unpacking. An L6 register that is packed fills 48 bytes, and unpacking gives its codes again. -/
def Parts.VectorPacking : Prop :=
  ∀ (s : State) (t : ElTy) (k : KReg) (d p q : Reg) (h : BitVec 5), s.Ready →
    let g := (s.ctx s.cur).regs
    (t ≠ .l6 →
      s.Lanes (.vpack t k d p q) 0 t k d (fun j =>
        (if j < t.lanes / 2 then elem (2 * t.width) (g.rv p) j else elem (2 * t.width) (g.rv q) (j - t.lanes / 2), 0)) ∧
      s.Lanes (.vunpk t k d p h) 0 t k d (fun j =>
        ((sext (elem (t.width / 2) (g.rv p) (h.toNat * t.lanes + j)) (t.width / 2) % 2 ^ t.width).toNat, 0))) ∧
    (∃ x, s.Sets (.vpack .l6 k d p q) 0 [.v d x] ∧ x.toNat < 2 ^ 384 ∧ ∀ j, j < 64 → l6Unpacked x.toNat j = l6Code (elem 8 (g.rv p) j)) ∧
    ∃ x, s.Sets (.vunpk .l6 k d p h) 0 [.v d x] ∧ ∀ j, j < 64 → elem 8 x j = l6Unpacked (g.rv p).toNat j

/-- R181 to R186: conversions, element moves and packing. -/
def Obligations.VectorMoves : Prop :=
  Parts.VectorConversions ∧ Parts.VectorPacking

/-- R187, R189: permutation, sliding, selection, compression and expansion. -/
def Parts.VectorPermutations : Prop :=
  ∀ (s : State) (t : ElTy) (k : KReg) (d p q : Reg), s.Ready →
    let g := (s.ctx s.cur).regs
    let w := t.width
    let n := t.lanes
    let m := g.rk k
    let below := fun j => (List.range j).countP fun i => m.getLsbD i
    s.Lanes (.vperm t k d p q) 0 t k d (fun j => (elem w (g.rv p) (elem w (g.rv q) j % n), 0)) ∧
    s.Lanes (.vslide t k d p q) 0 t k d (fun j =>
      (if 0 ≤ (j : Int) + (g.rs q).toInt ∧ (j : Int) + (g.rs q).toInt < n then elem w (g.rv p) ((j : Int) + (g.rs q).toInt).toNat else 0, 0)) ∧
    s.Lanes (.vexpnd t k d p) 0 t k d (fun j => (elem w (g.rv p) (below j), 0)) ∧
    (∃ x, s.Sets (.vsel t k d p q) 0 [.v d x] ∧ ∀ j, j < n → elem w x j = elem w (if m.getLsbD j then g.rv p else g.rv q) j) ∧
    ∃ x, s.Sets (.vcompr t k d p) 0 [.v d x] ∧ (∀ j, j < n → m.getLsbD j = true → elem w x (below j) = elem w (g.rv p) j) ∧
      ∀ j, below n ≤ j → j < n → elem w x j = elem w (g.rv d) j

/-- R103, R104, R188: reductions write element 0 alone and scans their active elements. The integer sum wraps, an integer minimum is the least
active element, and the float ones run the pairwise tree; a scan goes element by element with the identity for those masked off. -/
def Parts.VectorReductions : Prop :=
  ∀ (s : State) (t : ElTy) (k : KReg) (d p : Reg), s.Ready →
    let g := (s.ctx s.cur).regs
    let w := t.width
    let m := g.rk k
    let a := fun j => elem w (g.rv p) j
    let on := (List.range t.lanes).filter fun j => m.getLsbD j
    let first := fun (i : Instr) (fl : Nat) (ok : Nat → Prop) => ∃ x, s.Gives i ((s.started i).flag s.cur fl) 0 [.v d x] ∧ ok (elem w x 0) ∧
      ∀ j, 0 < j → j < t.lanes → elem w x j = elem w (g.rv d) j
    first (.vredadd t k d p) 0 (fun x => x = (on.map a).sum % 2 ^ w) ∧
    (t.isInt = true →
      first (.vredmin t k d p) 0 (fun x => (∀ j ∈ on, sext x w ≤ sext (a j) w) ∧ ((∃ j ∈ on, x = a j) ∨ x = 2 ^ (w - 1) - 1)) ∧
      first (.vredmax t k d p) 0 (fun x => (∀ j ∈ on, sext (a j) w ≤ sext x w) ∧ ((∃ j ∈ on, x = a j) ∨ x = 2 ^ (w - 1)))) ∧
    (t.isFloat = true →
      (let r := floatReduce t m (g.rv p) (fun f => f.sign) fun f => f.add
       first (.vfredadd t k d p) r.2 (fun x => x = r.1 % 2 ^ w)) ∧
      (let r := floatReduce t m (g.rv p) (fun f => f.inf) fun f => f.minmax false
       first (.vredmin t k d p) r.2 (fun x => x = r.1 % 2 ^ w)) ∧
      (let r := floatReduce t m (g.rv p) (fun f => f.sign + f.inf) fun f => f.minmax true
       first (.vredmax t k d p) r.2 (fun x => x = r.1 % 2 ^ w))) ∧
    ∃ outs : Nat → Flagged, s.Lanes (.vscan t k d p) 0 t k d outs ∧
      (let ins := fun j => if m.getLsbD j then a j else if t.isInt then 0 else (fmtOf t).sign
       outs 0 = (ins 0, 0) ∧ ∀ j, j + 1 < t.lanes → outs (j + 1) =
         if t.isInt then (((outs j).1 + ins (j + 1)) % 2 ^ w, 0) else (fmtOf t).add (outs j).1 (ins (j + 1)))

/-- R103, R104, R187 to R189: permutations, reductions and scans.
Which flags a scan raises is the model's reading (log 26). -/
def Obligations.VectorArrangement : Prop :=
  Parts.VectorPermutations ∧ Parts.VectorReductions

/-- R192, R199, R200: the fused and dot-product instructions. The products that a mask leaves out contribute nothing; `VDOTB` passes lanes 8 to 15. -/
def Parts.VectorProducts : Prop :=
  ∀ (s : State) (l : La) (t : ElTy) (k : KReg) (d p q r : Reg), s.Ready →
    let g := (s.ctx s.cur).regs
    let w := t.width
    let f := fmtOf t
    let a := fun j => elem w (g.rv p) j
    let b := fun j => elem w (g.rv q) j
    let c := fun j => elem w (g.rv r) j
    let exact_ := fun j => sext (a j) w * sext (b j) w + sext (c j) w
    s.Lanes (.vfma l t k d p q r) l.toNat t k d (fun j => f.fma (a j) (b j) (c j)) ∧
    s.Lanes (.vfms l t k d p q r) l.toNat t k d (fun j => f.fms (a j) (b j) (c j)) ∧
    s.Lanes (.vmad l t k d p q r 0) l.toNat t k d (fun j => ((exact_ j % 2 ^ w).toNat, 0)) ∧
    s.Lanes (.vmad l t k d p q r 1) l.toNat t k d (fun j =>
      let z := max (-(2 ^ (w - 1))) (min (2 ^ (w - 1) - 1) (exact_ j))
      ((z % 2 ^ w).toNat, if z = exact_ j then 0 else fSAT)) ∧
    (let lane := fun j => (((List.range 8).map (· + 8 * j)).filter fun i => (g.rk k).getLsbD i).foldl (fun (y : Flagged) i =>
        let z := w48Add y.1 (l6Product (l6Code (elem 8 (g.rv p) i)) (l6Code (elem 8 (g.rv q) i)))
        (z.1, y.2 ||| z.2)) (elem 64 (g.rv r) j % 2 ^ 50, 0)
     ∃ x fl, s.Gives (.vdotl l k d p q r) ((s.started (.vdotl l k d p q r)).flag s.cur fl) l.toNat [.v d x] ∧
      (∀ j, j < 8 → elem 64 x j = (lane j).1 % 2 ^ 64) ∧ ∀ b, fl.testBit b = (List.range 8).any fun j => (lane j).2.testBit b) ∧
    (let lane := fun j => fp32.addGroup (elem 32 (g.rv r) j) ((((List.range 4).map (· + 4 * j)).filter fun i => (g.rk k).getLsbD i).map
        fun i => (bf16.read (elem 16 (g.rv p) i), bf16.read (elem 16 (g.rv q) i)))
     ∃ x fl, s.Gives (.vdotb l k d p q r) ((s.started (.vdotb l k d p q r)).flag s.cur fl) l.toNat [.v d x] ∧
      (∀ j, j < 8 → elem 32 x j = (lane j).1 % 2 ^ 32) ∧ (∀ j, 8 ≤ j → j < 16 → elem 32 x j = elem 32 (g.rv r) j) ∧
      ∀ b, fl.testBit b = (List.range 8).any fun j => (lane j).2.testBit b)

/-- R193: `VTOPK` writes the active elements of rank 0 to n - 1 with their indices and keeps the other elements; KNAN tells of a NaN among them.
The rank of an element is the number of active elements that precede it in the order. One register for both destinations traps with 0x01. -/
def Parts.VectorTopK : Prop :=
  ∀ (s : State) (l : La) (t : ElTy) (k : KReg) (d p r : Reg) (n : BitVec 7), s.Ready →
    let g := (s.ctx s.cur).regs
    let w := t.width
    let m := g.rk k
    let a := fun j => elem w (g.rv p) j
    let on := (List.range t.lanes).filter fun j => m.getLsbD j
    let before := fun i j => rankKey t (a j) < rankKey t (a i) ∨ (rankKey t (a i) = rankKey t (a j) ∧ i < j)
    let rank := fun j => (on.filter fun i => decide (before i j)).length
    let i := Instr.vtopk l t k d p r n
    (d ≠ r → t ≠ .l6 → ∃ x y fl, s.Gives i ((s.started i).vflag s.cur fl) l.toNat [.v d x, .v r y] ∧
      (∀ j ∈ on, rank j < n.toNat → elem w x (rank j) = a j ∧ elem w y (rank j) = j) ∧
      (∀ j, min n.toNat on.length ≤ j → j < t.lanes → elem w x j = elem w (g.rv d) j ∧ elem w y j = elem w (g.rv r) j) ∧
      (fl = vKNAN ∨ fl = 0) ∧ (fl = vKNAN ↔ t.isInt = false ∧ ∃ j ∈ on, rank j < n.toNat ∧ ((fmtOf t).read (a j)).isNan = true)) ∧
    (d = r → (s.ctx s.cur).Enabled → s.Traps i 0x01 (BitVec.ofNat 64 i.word))

/-- R192, R193, R199, R200: the X-form vector instructions.
That a masked-off pair of `VDOTB` adds -0 is the model's reading (log 25). -/
def Obligations.VectorXForms : Prop :=
  Parts.VectorProducts ∧ Parts.VectorTopK

/-! ### Loads and stores -/

/-- R287: in a die whose table of address spaces, and whose page tables from level 0 down to 3, map an address by a 64 KiB leaf, the walk answers that
leaf, and the physical address is the leaf's frame with the low 16 bits of the address; an entry with V clear ends the walk with no mapping. -/
def Obligations.PageWalk : Prop :=
  ∀ (s : State) (d asid va e0 p0 p1 p2 p3 : Nat), let root := (s.die d).ptroot
    let frame := fun (p : Nat) => p / 2 ^ 13 % 2 ^ 39 * 2 ^ 13
    let a0 := frame e0 + va / 2 ^ 46 % 2 ^ 10 * 8
    let a1 := frame p0 + va / 2 ^ 36 % 2 ^ 10 * 8
    let a2 := frame p1 + va / 2 ^ 26 % 2 ^ 10 * 8
    let a3 := frame p2 + va / 2 ^ 16 % 2 ^ 10 * 8
    let at_ := root / 2 ^ 15 % 2 ^ 37 * 2 ^ 15 + 8 * asid
    s.mem.readN at_ 8 = e0 → s.mem.readN a0 8 = p0 → s.mem.readN a1 8 = p1 → s.mem.readN a2 8 = p2 → s.mem.readN a3 8 = p3 →
    (∀ a ∈ [at_, a0, a1, a2, a3], s.poison.contains (a / 64) = false) →
    root % 2 = 1 → e0 % 2 = 1 → p0 % 2 = 1 → p0 / 128 % 2 = 0 → p1 % 2 = 1 → p1 / 128 % 2 = 0 → p2 % 2 = 1 → p2 / 128 % 2 = 0 →
    (p3 % 2 = 1 → p3 / 128 % 2 = 1 → s.walk d asid va = .leaf p3 a3 3 ∧ leafPA p3 3 va = p3 / 2 ^ 16 % 2 ^ 36 * 2 ^ 16 + va % 2 ^ 16) ∧
    (p3 % 2 = 0 ∨ p3 / 128 % 2 = 0 → s.walk d asid va = .none 3)

/-- R123, R125, R143, R144: a load or store in a scratch window within its carve-out: the bytes are those of the pools that hold them; a store
changes them and nothing else. -/
def Obligations.ScratchAccesses : Prop :=
  ∀ (s : State) (i : Instr), s.Ready → let c := coreOf s.cur
    (∀ la d n signed ea, s.loadOf i = some (la, d, n, signed, ea) → s.InScratch c ea n → ∃ x : Nat, x < 256 ^ n ∧
      (∀ j, j < n → BitVec.ofNat 8 (x / 256 ^ j) = s.scratchByte c (ea + j)) ∧
      s.Sets i la [.s d (if signed then BitVec.ofInt 64 (sext x (8 * n)) else BitVec.ofNat 64 x)]) ∧
    ∀ r n ea, s.storeOf i = some (r, n, ea) → s.InScratch c ea n → ∃ s2, s.Gives i s2 0 [] ∧ (s.started i).ButScratch s2 ∧
      ∀ a, a < 2 ^ 64 → winTag a = 0xF0 ∨ winTag a = 0xF1 → ∀ e, e / 16 = c / 16 →
        s2.scratchByte e a = if ea ≤ a ∧ a < ea + n ∧ (winTag ea = 0xF1 ∨ e = c) then BitVec.ofNat 8 (((s.ctx s.cur).regs.rs r).toNat / 256 ^ (a - ea))
          else s.scratchByte e a

/-- R122, R123, R145: a load or store whose window is none of the three, or whose last byte lies in another window, traps with 0x04; one that
leaves its carve-out traps with 0x0C. The value is the address, and no byte is read or written. -/
def Parts.AccessesOutsideTheirWindow : Prop :=
  ∀ (s : State) (i : Instr) (n ea : Nat), s.Ready → (s.ctx s.cur).Enabled →
    ((∃ la d signed, s.loadOf i = some (la, d, n, signed, ea)) ∨ ∃ r, s.storeOf i = some (r, n, ea)) →
    ((winTag ea ≠ 0 ∧ winTag ea ≠ 0xF0 ∧ winTag ea ≠ 0xF1) ∨ winTag (ea + n - 1) ≠ winTag ea → s.Traps i 0x04 (BitVec.ofNat 64 ea)) ∧
    (winTag (ea + n - 1) = winTag ea → winTag ea = 0xF0 → s.scratchBytes (coreOf s.cur) ≤ winOff (ea + n - 1) → s.Traps i 0x0C (BitVec.ofNat 64 ea)) ∧
    (winTag (ea + n - 1) = winTag ea → winTag ea = 0xF1 → (∃ j, j < n ∧ s.shareHas (coreOf s.cur) (winOff ea + j) = false) →
      s.Traps i 0x0C (BitVec.ofNat 64 ea))

/-- R143, R145, R298 to R302: a load completes wherever the read of its bytes does, and changes nothing but stamps, leases and L1 copies. One that is not
split and that no check stops completes, with the bytes of the line that it finds: in its own L1, at its slice, or at the home. -/
def Obligations.TranslatedLoads : Prop :=
  ∀ (s : State) (i : Instr) (la n ea : Nat) (d : Reg) (signed : Bool), s.Ready → s.loadOf i = some (la, d, n, signed, ea) →
    let s1 := s.started i
    let value := fun (x : Nat) => if signed then BitVec.ofInt 64 (sext x (8 * n)) else BitVec.ofNat 64 x
    (∀ x s2, s1.plainRead (s1.who s.cur) .load ea n = .ok x s2 → s1.ButReading s2 s.cur ∧ s.Gives i s2 la [.s d (value x)]) ∧
    ∀ pa pte, s1.Passes s.cur .load ea n pa pte → ∃ s2, s1.ButReading s2 s.cur ∧
      s.Gives i s2 la [.s d (value (s1.lineSeen (s1.who s.cur) true pa pte / 2 ^ (8 * (pa % 64)) % 2 ^ (8 * n)))]

/-- R144, R145, R298, R299: a store completes wherever the write of its bytes does. One that its core's L1 does not hold, to a line of the own die or of an NC,
host-bias or device page, is performed at the home: the bytes stored read back, every other byte of the line is as the cluster's dirty bytes and the
owner left it, and no die owns the line; one to memory beyond the package that no cluster's L1 or die holds changes its own bytes alone. What
memory holds of other lines stays. -/
def Parts.StoresAtHome : Prop :=
  ∀ (s : State) (i : Instr) (r : Reg) (n ea : Nat), s.Ready → s.storeOf i = some (r, n, ea) →
    let s1 := s.started i
    let x := ((s.ctx s.cur).regs.rs r).toNat
    (∀ y s2, s1.plainStore (s1.who s.cur) ea n (x % 2 ^ (8 * n)) = .ok y s2 → s.Gives i s2 0 []) ∧
    ∀ pa pte, s1.Passes s.cur .store ea n pa pte → s1.inL1 (s1.who s.cur) .store pa pte = false →
      let c := coreOf s.cur
      let after := fun (a : Nat) (old : Byte) => if pa ≤ a ∧ a < pa + n then BitVec.ofNat 8 (x / 256 ^ (a - pa)) else old
      (s1.local_ pa = true → homeDie pa = dieOf c ∨ uncached pte = true → ∃ s2, s.Gives i s2 0 [] ∧ s1.OtherLines s2 (pa / 64) ∧
        (∀ a, a / 64 = pa / 64 → s2.mem.read a = after a (s1.homeByte c a)) ∧ ∀ d, d < 8 → (s2.die d).owned.find (pa / 64) = none) ∧
      (s1.local_ pa = false → (∀ j, j < 16 → (s1.core (c / 16 * 16 + j)).l1.find (pa / 64) = none) → ∃ s2, s.Gives i s2 0 [] ∧
        (∀ d, (s2.die d).owned = (s1.die d).owned) ∧ ∀ a, s2.mem.read a = after a (s1.mem.read a))

/-- R298, R300: a plain store to a line homed on another die that its core's L1 does not hold takes ownership of the line: the die's copy has the bytes
stored, every other byte of it is as the cluster's dirty bytes left it, and what memory holds of other lines stays. -/
def Parts.StoresUnderOwnership : Prop :=
  ∀ (s : State) (i : Instr) (r : Reg) (n ea pa pte : Nat), s.Ready → s.storeOf i = some (r, n, ea) →
    let s1 := s.started i
    let x := ((s.ctx s.cur).regs.rs r).toNat
    let d := dieOf (coreOf s.cur)
    s1.Passes s.cur .store ea n pa pte → s1.inL1 (s1.who s.cur) .store pa pte = false → s1.local_ pa = true → homeDie pa ≠ d → uncached pte = false →
      ∃ s2, s.Gives i s2 0 [] ∧ s1.OtherLines s2 (pa / 64) ∧ ∃ o, (s2.die d).owned.find (pa / 64) = some o ∧ o.dirty = true ∧ s.cur ∈ o.writers ∧
        ∀ a, a / 64 = pa / 64 → byteOf o.data a =
          if pa ≤ a ∧ a < pa + n then BitVec.ofNat 8 (x / 256 ^ (a - pa)) else s1.ownByte (coreOf s.cur) a

/-- R298, R300: a plain store to a line that its core's L1 holds, with copy y once the other cores of its cluster have given up their dirty bytes (z). In an
outside line the bytes stored are dirty there; those of a near line are performed at the own slice at once: at the home, or in the copy that
the die owns. What memory holds of other lines stays.
That the bytes of a near line are performed at once is the model's choice (log 4). -/
def Parts.StoresInTheL1 : Prop :=
  ∀ (s : State) (i : Instr) (r : Reg) (n ea pa pte : Nat) (y : L1Line), s.Ready → s.storeOf i = some (r, n, ea) →
    let s1 := s.started i
    let x := ((s.ctx s.cur).regs.rs r).toNat
    let c := coreOf s.cur
    let d := dieOf c
    let l := pa / 64
    let z := s1.spillCluster c l (some c)
    let after := fun (a : Nat) (old : Byte) => if pa ≤ a ∧ a < pa + n then BitVec.ofNat 8 (x / 256 ^ (a - pa)) else old
    let kept := fun (a : Nat) (old : Byte) => if y.dirty.testBit (a % 64) then byteOf y.data a else old
    s1.Passes s.cur .store ea n pa pte → s1.inL1 (s1.who s.cur) .store pa pte = true → (z.core c).l1.find l = some y →
    ∃ s2, s.Gives i s2 0 [] ∧ s1.OtherLines s2 l ∧
      (y.outside = true → ∃ y2, (s2.core c).l1.find l = some y2 ∧ s.cur ∈ y2.writers ∧ (∀ a, a / 64 = l → byteOf y2.data a = after a (byteOf y.data a)) ∧
        ∀ b, b < 64 → y2.dirty.testBit b = (y.dirty.testBit b || decide (pa % 64 ≤ b ∧ b < pa % 64 + n))) ∧
      (y.outside = false → s1.linePinned d y.key y.va = false → homeDie pa = d →
        ∀ a, a / 64 = l → s2.mem.read a = after a (kept a ((z.recall l).mem.read a))) ∧
      (y.outside = false → s1.linePinned d y.key y.va = false → homeDie pa ≠ d → ∃ o, (s2.die d).owned.find l = some o ∧ o.dirty = true ∧ s.cur ∈ o.writers ∧
        ∀ a, a / 64 = l → byteOf o.data a = after a (kept a (match (z.die d).owned.find l with
          | some o => byteOf o.data a
          | none => (z.recall l).mem.read a)))

/-- R144, R145, R298 to R300: stores to translated memory. -/
def Obligations.TranslatedStores : Prop :=
  Parts.StoresAtHome ∧ Parts.StoresUnderOwnership ∧ Parts.StoresInTheL1

/-- R61, R293, R297: a load or store of a user context that meets a page fault waits for the reply with its fault posted, and issue goes on to
the end of its window; on a service core it traps with 0x13 and the address, into the supervisor registers.
That a fault with lookahead is kept for the end of its window is the model's reading (log 8). -/
def Obligations.PageFaultsOfAccesses : Prop :=
  ∀ (s : State) (i : Instr) (la n ea va cause level pte : Nat) (a : Acc), s.Ready →
    let s1 := s.started i
    ((∃ d signed, s.loadOf i = some (la, d, n, signed, ea)) ∧ a = .load ∧ s1.plainRead (s1.who s.cur) .load ea n = .fault va cause level pte) ∨
      ((∃ r, s.storeOf i = some (r, n, ea) ∧ s1.plainStore (s1.who s.cur) ea n (((s.ctx s.cur).regs.rs r).toNat % 2 ^ (8 * n)) = .fault va cause level pte) ∧
        la = 0 ∧ a = .store) →
    ((s.ctx s.cur).sup = false → s.Begins i (s1.pageFault s.cur a va cause level pte) la { how := .blocked, deadline := none, aux := [va] }) ∧
    ((s.ctx s.cur).sup = true → (la = 0 → (s.ctx s.cur).Enabled → s.Traps i 0x13 (BitVec.ofNat 64 va)) ∧ (la ≠ 0 → s.Defers i la 0x13 (BitVec.ofNat 64 va)))

/-- R172, R173, R194: a vector load or gather whose active elements lie in the scratch windows gives each its bytes; elements masked off keep their
value and are not checked. -/
def Parts.VectorLoads : Prop :=
  ∀ (s : State) (i : Instr) (t : ElTy) (k : KReg) (d : Reg) (at_ : Nat → Nat), s.Ready → s.vmemOf i = some (t, k, d, false, at_) →
    let n := t.width / 8
    let g := (s.ctx s.cur).regs
    (∀ j, j < t.lanes → (g.rk k).getLsbD j = true → s.InScratch (coreOf s.cur) (at_ j) n) →
    let la := match i with
      | .vgather l .. => l.toNat
      | _ => 0
    ∃ x, s.Sets i la [.v d x] ∧
      ∀ j, j < t.lanes →
        ((g.rk k).getLsbD j = false → elem t.width x j = elem t.width (g.rv d) j) ∧
        ((g.rk k).getLsbD j = true → ∀ b, b < n → BitVec.ofNat 8 (elem t.width x j / 256 ^ b) = s.scratchByte (coreOf s.cur) (at_ j + b))

/-- R172 to R174, R196: a vector store or scatter whose active elements lie in the scratch windows writes their bytes; where elements overlap the
highest one stands and SDUP is set. Every other byte of scratch, and the rest of the state, is as it was. -/
def Parts.VectorStores : Prop :=
  ∀ (s : State) (i : Instr) (t : ElTy) (k : KReg) (d : Reg) (at_ : Nat → Nat), s.Ready → s.vmemOf i = some (t, k, d, true, at_) →
    let n := t.width / 8
    let g := (s.ctx s.cur).regs
    let c := coreOf s.cur
    let on := (List.range t.lanes).filter fun j => (g.rk k).getLsbD j
    (∀ j ∈ on, s.InScratch c (at_ j) n) →
    ∃ s2 fl, s.Gives i (s2.vflag s.cur fl) 0 [] ∧ (s.started i).ButScratch s2 ∧ (fl = vSDUP ∨ fl = 0) ∧
      (fl = vSDUP ↔ ∃ p ∈ on, ∃ q ∈ on, p < q ∧ at_ p < at_ q + n ∧ at_ q < at_ p + n) ∧
      (∀ j ∈ on, ∀ b, b < n → (∀ q ∈ on, j < q → ¬(at_ q ≤ at_ j + b ∧ at_ j + b < at_ q + n)) →
        s2.scratchByte c (at_ j + b) = BitVec.ofNat 8 (elem t.width (g.rv d) j / 256 ^ b)) ∧
      ∀ a, a < 2 ^ 64 → winTag a = 0xF0 ∨ winTag a = 0xF1 → (∀ j ∈ on, ¬(at_ j ≤ a ∧ a < at_ j + n)) → s2.scratchByte c a = s.scratchByte c a

/-- R173: the lowest active element of a VMEM instruction that fails decides its trap: 0x04 for a window other than the two, 0x0C beyond the
carve-out, with the element's address; nothing is read or written. -/
def Parts.VectorElementFaults : Prop :=
  ∀ (s : State) (i : Instr) (t : ElTy) (k : KReg) (d : Reg) (st : Bool) (at_ : Nat → Nat) (j : Nat), s.Ready → (s.ctx s.cur).Enabled →
    s.vmemOf i = some (t, k, d, st, at_) → (∀ l t' k' d' a b, i ≠ .vgather l t' k' d' a b ∧ i ≠ .vscatter t' k' d' a b) →
    let n := t.width / 8
    let on := fun j => ((s.ctx s.cur).regs.rk k).getLsbD j
    j < t.lanes → on j = true → (∀ q, q < j → on q = true → s.InScratch (coreOf s.cur) (at_ q) n) →
    let last := winTag (at_ j + n - 1)
    (¬((winTag (at_ j) = 0xF0 ∨ winTag (at_ j) = 0xF1) ∧ (last = 0xF0 ∨ last = 0xF1)) → s.Traps i 0x04 (BitVec.ofNat 64 (at_ j))) ∧
    (winTag (at_ j) = 0xF0 → last = 0xF0 ∨ last = 0xF1 → s.scratchBytes (coreOf s.cur) < winOff (at_ j) + n → s.Traps i 0x0C (BitVec.ofNat 64 (at_ j))) ∧
    (winTag (at_ j) = 0xF1 → last = 0xF1 → (∃ b, b < n ∧ s.shareHas (coreOf s.cur) (winOff (at_ j) + b) = false) →
      s.Traps i 0x0C (BitVec.ofNat 64 (at_ j)))

/-- R122, R123, R145, R173: the traps of loads and stores, scalar and vector, on their addresses. -/
def Obligations.AddressChecks : Prop :=
  Parts.AccessesOutsideTheirWindow ∧ Parts.VectorElementFaults

/-- R194 to R198: a gather of translated memory completes when every active element has been read. A scatter there whose elements have all passed their check
holds their lines and goes on to write: one piece of one element at each further attempt, in ascending order of elements; with the last piece it
completes and frees its lines.
When each attempt comes is the schedule of the model (log 1). -/
def Parts.TranslatedGathersAndScatters : Prop :=
  ∀ (s : State) (l : La) (t : ElTy) (k : KReg) (d a b : Reg), s.Ready →
    let n := t.width / 8
    let g := (s.ctx s.cur).regs
    let at_ := fun j => (g.rs a + BitVec.ofNat 64 (elem t.width (g.rv b) j * n)).toNat
    let on := (List.range t.lanes).filter fun j => (g.rk k).getLsbD j
    let i := Instr.vgather l t k d a b
    let j := Instr.vscatter t k d a b
    (∀ q ∈ on, winTag (at_ q) = 0 ∧ winTag (at_ q + n - 1) = 0) →
    (∀ got s2, gatherFrom (s.env i) n at_ on [] none (s.started i) [] = (got, none, s2) → (s.started i).ButReading s2 s.cur ∧
      ∃ x, s.Gives i s2 l.toNat [.v d x] ∧ ∀ q, q < t.lanes → elem t.width x q = if q ∈ on then Tab.get 0 got q % 2 ^ t.width else elem t.width (g.rv d) q) ∧
    (on ≠ [] → scatterStop (s.started j) (s.env j) n (on.map at_) = none →
      s.Begins j ((s.started j).holdLines (s.env j) n (on.map at_)) 0
        { how := .running, deadline := none, aux := 1 :: scatterPieces (s.started j) (s.env j) n at_ on }) ∧
    ∀ (u : State) (e : Env) (q off m pa home : Nat) (rest : List Nat), e.k = s.cur → e.regs = g →
      e.wait = some { how := .running, deadline := none, aux := 1 :: q :: off :: m :: pa :: home :: rest } →
      let v := scatterPiece e u off m pa home (elem t.width (g.rv d) q)
      (rest ≠ [] → tryScatter t k d a b e u = .wait { how := .running, deadline := none, aux := 1 :: rest } v) ∧
      (rest = [] → ∃ fl, tryScatter t k d a b e u = .done [] ((v.freeLines s.cur).vflag s.cur fl))

/-- R172 to R174, R194 to R197: vector loads and stores, gathers and scatters. -/
def Obligations.VectorMemory : Prop :=
  Parts.VectorLoads ∧ Parts.VectorStores ∧ Parts.TranslatedGathersAndScatters

/-! ### Control and status registers -/

/-- R154: the four CSR instructions on a listed register that the mode may access: the old value goes to sD, and a write writes what the form
says; with A = 0, `CSRSET` and `CSRCLR` only read. -/
def Parts.CsrInstructions : Prop :=
  ∀ (s : State) (d a : Reg) (n : BitVec 12), s.Ready → Csr.listed n.toNat = true → ((s.ctx s.cur).sup = true ∨ n.toNat < 0x100 ∨ 0x1FF < n.toNat) →
    let old := s.readCsr s.cur n.toNat
    let x := (s.ctx s.cur).regs.rs a
    let writes := fun (i : Instr) (w : Word) => s.Gives i ((s.started i).writeCsr s.cur n.toNat w) 0 [.s d old]
    s.Sets (.csrr d n) 0 [.s d old] ∧
    (csrReadOnly n.toNat = false → writes (.csrw d a n) x) ∧
    (a ≠ 0 → csrReadOnly n.toNat = false → writes (.csrset d a n) (old ||| x) ∧ writes (.csrclr d a n) (old &&& ~~~x)) ∧
    (a = 0 → s.Sets (.csrset d a n) 0 [.s d old] ∧ s.Sets (.csrclr d a n) 0 [.s d old])

/-- R155: the checks of a CSR instruction in their order: a reserved number traps with 0x01, a privileged one in user mode with 0x02, a write of a
read-only register with 0x01 in any mode; the value is the instruction's bits, and no CSR and no other register changes. -/
def Parts.CsrChecks : Prop :=
  ∀ (s : State) (i : Instr) (d a : Reg) (n : BitVec 12), s.Ready → (s.ctx s.cur).Enabled →
    (i = .csrr d n ∨ i = .csrw d a n ∨ i = .csrset d a n ∨ i = .csrclr d a n) →
    let bits_ := BitVec.ofNat 64 i.word
    (Csr.listed n.toNat = false → s.Traps i 0x01 bits_) ∧
    (Csr.listed n.toNat = true → (s.ctx s.cur).sup = false → 0x100 ≤ n.toNat → n.toNat ≤ 0x1FF → s.Traps i 0x02 bits_) ∧
    (Csr.listed n.toNat = true → ((s.ctx s.cur).sup = true ∨ n.toNat < 0x100 ∨ 0x1FF < n.toNat) → csrReadOnly n.toNat = true →
      (i = .csrw d a n ∨ (a ≠ 0 ∧ i ≠ .csrr d n)) → s.Traps i 0x01 bits_)

/-- R154, R155: the CSR instructions and their checks. -/
def Obligations.CsrAccesses : Prop :=
  Parts.CsrInstructions ∧ Parts.CsrChecks

/-- R7, R84, R168, R304, R352, R496: what a write leaves a CSR reading as: the writable bits take it, the others stay; `TEPC`, `SEPC` and
`UIEPC` keep bit 0 clear. No write of a CSR changes memory. -/
def Obligations.CsrWrites : Prop :=
  ∀ (s : State) (k : Nat) (w : Word),
    let put := fun (n : Nat) => (s.writeCsr k n w).readCsr k n
    let keep := fun (n : Nat) (m : Word) => (s.readCsr k n &&& ~~~m) ||| (w &&& m)
    put 0x005 = keep 0x005 0x7F ∧ put 0x006 = keep 0x006 0x3 ∧ put 0x020 = w ∧ put 0x021 = keep 0x021 0x00007FFF000000FF ∧ put 0x022 = w ∧
    put 0x023 = w &&& ~~~1 ∧ put 0x024 = keep 0x024 0x80FF007FFFFFFFFF ∧ put 0x025 = w &&& ~~~1 ∧ put 0x026 = keep 0x026 0x1 ∧
    put 0x100 = w ∧ put 0x101 = keep 0x101 0x00007FFF000000FF ∧ put 0x102 = w ∧ put 0x103 = w &&& ~~~1 ∧ put 0x110 = w &&& 0xFFF ∧
    (∀ n, (s.writeCsr k n w).mem = s.mem)

/-! ### Atomics, ordering and the cache instructions -/

/-- R246, R320, R321, R323: an indivisible access of a context that owes nothing, to an aligned doubleword: in its core's scratch, in memory homed in this
package, or in memory beyond it. The register takes the old doubleword (`JDEC`: the new one), the new doubleword stands where the function
gives one, every other byte is as it was, with the dirty bytes of the cluster and of the owner in the line, and an acquire drops the outside lines
of its L1. -/
def Parts.Atomics : Prop :=
  ∀ (s : State) (i : Instr) (la : Nat) (k : Acc) (ea : Word) (f : Word → Option Word) (w : Option (Reg × (Word → Word))) (acq : Bool),
    s.Ready → s.Flushed s.cur → s.atomOf i = some (la, k, ea, f, w, acq) → ea.toNat % 8 = 0 →
    let c := coreOf s.cur
    let s1 := s.started i
    let end_ := fun (t : State) => if acq then t.acquire c else t
    (s.InScratch c ea.toNat 8 → ∃ (m : Word) (s3 : State), s.Gives i (end_ s3) la (atomWrites m w) ∧ s1.ButScratch s3 ∧
      (∀ j, j < 8 → BitVec.ofNat 8 (m.toNat / 256 ^ j) = s.scratchByte c (ea.toNat + j)) ∧
      ∀ a, a < 2 ^ 64 → winTag a = 0xF0 ∨ winTag a = 0xF1 → s3.scratchByte c a =
        match f m with
        | some x => if ea.toNat ≤ a ∧ a < ea.toNat + 8 then BitVec.ofNat 8 (x.toNat / 256 ^ (a - ea.toNat)) else s.scratchByte c a
        | none => s.scratchByte c a) ∧
    (∀ pa pte, s1.Passes s.cur k ea.toNat 8 pa pte → s1.local_ pa = true → ∃ (m : Word) (s3 : State), s.Gives i (end_ s3) la (atomWrites m w) ∧
      (∀ j, j < 8 → BitVec.ofNat 8 (m.toNat / 256 ^ j) = s1.homeByte c (pa + j)) ∧ s1.OtherLines s3 (pa / 64) ∧
      ∀ a, a / 64 = pa / 64 → s3.mem.read a =
        match f m with
        | some x => if pa ≤ a ∧ a < pa + 8 then BitVec.ofNat 8 (x.toNat / 256 ^ (a - pa)) else s1.homeByte c a
        | none => s1.homeByte c a) ∧
    ∀ pa pte, s1.Passes s.cur k ea.toNat 8 pa pte → s1.local_ pa = false → ∃ s3 : State,
      let m := BitVec.ofNat 64 (s.mem.readN pa 8)
      s.Gives i (end_ s3) la (atomWrites m w) ∧ s3.mem = match f m with
        | some x => s.mem.writeN pa 8 x.toNat
        | none => s.mem

/-- R320: an indivisible access traps with 0x03 where its address is not a multiple of 8, and with 0x04 where its window is none of the three. -/
def Parts.AtomicChecks : Prop :=
  ∀ (s : State) (i : Instr) (la : Nat) (k : Acc) (ea : Word) (f : Word → Option Word) (w : Option (Reg × (Word → Word))) (acq : Bool),
    s.Ready → (s.ctx s.cur).Enabled → s.atomOf i = some (la, k, ea, f, w, acq) →
    (ea.toNat % 8 ≠ 0 → s.Traps i 0x03 ea) ∧
    (ea.toNat % 8 = 0 → winTag ea.toNat ≠ 0 → winTag ea.toNat ≠ 0xF0 → winTag ea.toNat ≠ 0xF1 → s.Traps i 0x04 ea)

/-- R322: `AMO.ADDN` in scratch with a notify word whose checks pass adds as `AMO.ADD` does, and where the sum is 0 it sends the doubleword's address as
a message of 8 bytes to the destination and class of the word. -/
def Parts.AddAndNotify : Prop :=
  ∀ (s : State) (l : La) (d a b : Reg), s.Ready → s.Flushed s.cur →
    let g := (s.ctx s.cur).regs
    let i := Instr.amoAddn l d a b
    let c := coreOf s.cur
    let ea := (g.rs a).toNat
    let w := (g.rs d).toNat
    ea % 8 = 0 → s.InScratch c ea 8 → notifyBad w = false → ((s.ctx s.cur).sup = true ∨ 3 < notifyClass w) →
    s.badDst (!(s.ctx s.cur).sup) (notifyDst w) = false →
    ∃ (m : Word) (s3 : State), (s.started i).ButScratch s3 ∧ (∀ j, j < 8 → BitVec.ofNat 8 (m.toNat / 256 ^ j) = s.scratchByte c (ea + j)) ∧
      (∀ j, j < 8 → s3.scratchByte c (ea + j) = BitVec.ofNat 8 ((m + g.rs b).toNat / 256 ^ j)) ∧
      (m + g.rs b ≠ 0 → s.Gives i (s3.acquire c) l.toNat [.s d m]) ∧
      (m + g.rs b = 0 → s.Gives i ((s3.send { s.ownMsg s.cur (notifyDst w) (notifyClass w) 4 8 ea with pts := (s.ctx s.cur).ltime }).acquire c) l.toNat [.s d m])

/-- R299 to R301, R320, R323: `LD.ACQ` reads an aligned doubleword of scratch, or of memory, and is an acquire: in memory it gives the bytes of the line that
its slice has, or the home. -/
def Parts.AcquireLoads : Prop :=
  ∀ (s : State) (l : La) (d a : Reg), s.Ready →
    let i := Instr.ldAcq l d a
    let c := coreOf s.cur
    let ea := ((s.ctx s.cur).regs.rs a).toNat
    ea % 8 = 0 →
    (s.InScratch c ea 8 → ∃ m : Word, s.Gives i ((s.started i).acquire c) l.toNat [.s d m] ∧
      ∀ j, j < 8 → BitVec.ofNat 8 (m.toNat / 256 ^ j) = s.scratchByte c (ea + j)) ∧
    (winTag ea = 0 → ∀ m s2, (s.started i).acquireRead ((s.started i).who s.cur) ea false = .ok m s2 →
      (s.started i).ButReading s2 s.cur ∧ s.Gives i (s2.acquire c) l.toNat [.s d (BitVec.ofNat 64 m)]) ∧
    ∀ pa pte, (s.started i).Passes s.cur .acq ea 8 pa pte → ∃ s2, (s.started i).ButReading s2 s.cur ∧ s.Gives i (s2.acquire c) l.toNat
      [.s d (BitVec.ofNat 64 ((s.started i).lineSeen ((s.started i).who s.cur) false pa pte / 2 ^ (8 * (pa % 64)) % 2 ^ 64))]

/-- R246, R320 to R323: atomics, acquires and releases.
That a release writes its lines home in one step is the model's choice (log 5). -/
def Obligations.AtomicInstructions : Prop :=
  Parts.Atomics ∧ Parts.AtomicChecks ∧ Parts.AddAndNotify ∧ Parts.AcquireLoads

/-- R315, R323, R324: the sequentially consistent operations. `LD.SC` and `ST.SC` of a doubleword beyond the package are performed at once; within it,
and for `FENCE.SC`, the operation is announced on its die, with its pts, and waits for its place in S, where the next attempt performs it: a load reads
its scratch or what its home has, a store is performed at once, a fence ends as one of package scope does. -/
def Parts.SequentiallyConsistentOperations : Prop :=
  ∀ (s : State) (l : La) (d a b : Reg), s.Ready → s.Flushed s.cur →
    let g := (s.ctx s.cur).regs
    let k := s.cur
    let c := coreOf k
    let ea := (g.rs a).toNat
    let said := fun (t : State) => ((t.modCore c fun x => { x with scSeq := (s.core c).scSeq + 1 }).modDie (dieOf c) fun x =>
      { x with scq := x.scq ++ [{ ctx := k, seq := (s.core c).scSeq, stamp := none }] }).post (.scWindowClose (dieOf c))
    let w : Wait := { how := .running, deadline := none, aux := scWaits (s.core c).scSeq (s.ctx k).ltime }
    let ld := Instr.ldSc l d a
    let st := Instr.stSc a b
    (∀ pa pte, ea % 8 = 0 → s.Passes k .acq ea 8 pa pte → s.Passes k .rel ea 8 pa pte → s.local_ pa = false →
      (∃ s2 : State, s.Gives ld (s2.acquire c) l.toNat [.s d (BitVec.ofNat 64 (s.mem.readN pa 8))] ∧ s2.mem = s.mem) ∧
      ∃ s2 : State, s.Gives st (s2.acquire c) 0 [] ∧ s2.mem = s.mem.writeN pa 8 (g.rs b).toNat) ∧
    (ea % 8 = 0 → s.InScratch c ea 8 → s.Begins ld (said (s.started ld)) l.toNat w ∧ s.Begins st (said (s.started st)) 0 w) ∧
    (∀ pa pte, ea % 8 = 0 → s.local_ pa = true → (s.Passes k .acq ea 8 pa pte → s.Begins ld (said (s.started ld)) l.toNat w) ∧
      (s.Passes k .rel ea 8 pa pte → s.Begins st (said (s.started st)) 0 w)) ∧
    (s.CleanCluster c → (∀ e ∈ (s.die (dieOf c)).owned, e.2.dirty = false) → s.Begins .fenceSc (said (s.started .fenceSc)) 0 w) ∧
    (∀ (t : State) (e : Env) (n p : Nat), e.k = k → e.regs = g → e.wait = some { how := .running, deadline := none, aux := scTurn n p } →
      let u := t.unqueue k n
      tryFenceSc e t = .done [] ((u.fenceEnd k p false).acquire c) ∧
      (ea % 8 = 0 → t.InScratch c ea 8 → tryLdSc d a e t = .done [.s d (BitVec.ofNat 64 (t.readScratch c ea 8))] (u.acquire c) ∧
        tryStSc a b e t = .done [] ((u.writeScratch c ea 8 (g.rs b).toNat).acquire c)) ∧
      (∀ m v, ea % 8 = 0 → winTag ea = 0 → u.acquireRead (u.who k) ea true = .ok m v →
        tryLdSc d a e t = .done [.s d (BitVec.ofNat 64 m)] (v.acquire c)) ∧
      ∀ m v, ea % 8 = 0 → winTag ea = 0 → u.atomic (u.who k) .rel ea (fun _ => some (g.rs b).toNat) = .ok m v → tryStSc a b e t = .done [] (v.acquire c))

/-- R282, R303, R314, R324: `FENCE` of a context that owes nothing. CONTEXT and CLUSTER change nothing; DIE is an acquire; PACKAGE and SYSTEM also empty
the write set, of the package's dies or of all, leave the pts at least one above what it was, and have the die's slices and the core's L1 give up
their guest copies. Any other scope traps with 0x01.
That a fence gives up guest copies is the model's reading (log 85). -/
def Parts.Fences : Prop :=
  ∀ (s : State) (sc : Reg), s.Ready → s.Flushed s.cur →
    let i := Instr.fence sc
    let c := coreOf s.cur
    let far := fun (system : Bool) => (((s.started i).modCtx s.cur fun x =>
      { x with writes := x.writes.filter fun e => !system && decide (8 ≤ e.1 / 8), ltime := serialMax 24 x.ltime ((x.ltime + 1) % 2 ^ 24) }).refresh c).acquire c
    (sc = 0 ∨ sc = 1 → s.Sets i 0 []) ∧ (sc = 2 → s.Gives i ((s.started i).acquire c) 0 []) ∧
    (sc = 3 → s.Gives i (far false) 0 []) ∧ (sc = 4 → s.Gives i (far true) 0 []) ∧
    (4 < sc.toNat → (s.ctx s.cur).Enabled → s.Traps i 0x01 (BitVec.ofNat 64 i.word))

/-- R325 to R330: the cache instructions write no register, and in a cluster whose L1s hold no dirty byte they change no byte of memory, but that `FLUSH` with
HOME writes an owned line of its own die home; a prefetch and a residence request may only take copies; `DINV` marks descriptors to be read again.
`FLUSH` brings the cluster's dirty bytes of its line to their slice and drops its copies, `INV` of a line those of its core. Codes outside their
limits trap with 0x01, and `INV` of translations in user mode with 0x02. -/
def Parts.CacheInstructions : Prop :=
  ∀ (s : State) (a b : Reg), s.Ready →
    let quiet := fun (i : Instr) => ∃ s2, s.Gives i s2 0 [] ∧ s2.mem = s.mem ∧ (∀ d, (s2.die d).owned = (s.die d).owned) ∧ ∀ k, s2.ctx k = (s.started i).ctx k
    let c := coreOf s.cur
    let d := dieOf c
    let va := ((s.ctx s.cur).regs.rs a).toNat
    let fl := s.started (.flush a b)
    let iv := s.started (.inv a b)
    let flushed := fun (l : Nat) => (fl.spillCluster c l none).dropL1 l fun e _ => clusterOf e != clusterOf c
    (b.toNat ≤ 1 → quiet (.pref a b)) ∧ quiet (.res a b) ∧ quiet (.unres a b) ∧ quiet (.dinv a) ∧
    (s.CleanCluster c → b = 0 → quiet (.flush a b)) ∧ (s.CleanCluster c → b = 0 → quiet (.inv a b)) ∧
    (b ≠ 0 → b.toNat ≤ 3 → (s.ctx s.cur).sup = true → quiet (.inv a b)) ∧
    (fl.lineNamed (s.who s.cur) va = none → (b.toNat ≤ 1 → s.Sets (.flush a b) 0 []) ∧ (b = 0 → s.Sets (.inv a b) 0 [])) ∧
    (∀ l pte, fl.lineNamed (s.who s.cur) va = some (l, pte) →
      (b = 0 → s.Gives (.flush a b) (flushed l) 0 []) ∧
      (b = 0 → s.Gives (.inv a b) ((iv.spill c l).modCore c fun x => { x with l1 := x.l1.del l }) 0 []) ∧
      (b = 1 → ∃ s2, s.Gives (.flush a b) s2 0 [] ∧ (∀ i, i < 16 → (s2.core (c / 16 * 16 + i)).l1.find l = none) ∧
        ∀ o, ((flushed l).die d).owned.find l = some o → o.dirty = true → s2.mem = (flushed l).mem.writeN (l * 64) 64 o.data ∧
          ((s2.die d).owned.find l).map (·.dirty) = some false)) ∧
    ((s.ctx s.cur).Enabled →
      (1 < b.toNat → s.Traps (.pref a b) 0x01 (BitVec.ofNat 64 (Instr.pref a b).word) ∧ s.Traps (.flush a b) 0x01 (BitVec.ofNat 64 (Instr.flush a b).word)) ∧
      (3 < b.toNat → s.Traps (.inv a b) 0x01 (BitVec.ofNat 64 (Instr.inv a b).word)) ∧
      (b.toNat = 1 ∨ b.toNat = 2 ∨ b.toNat = 3 → (s.ctx s.cur).sup = false → s.Traps (.inv a b) 0x02 (BitVec.ofNat 64 (Instr.inv a b).word)))

/-- R314, R315, R324 to R330: SC operations, fences and the cache instructions.
That a fence writes lines home in one step (log 5), that an SC operation is performed at its turn (log 16), the package scope of `FENCE.SC`
(log 28), for how long a prefetch is in flight (log 36) and that a fence gives up guest copies (log 85) are the model's. -/
def Obligations.OrderingInstructions : Prop :=
  Parts.SequentiallyConsistentOperations ∧ Parts.Fences ∧ Parts.CacheInstructions

/-! ### System instructions -/

/-- R504: `SREPLY` on a service core sends the reply to its thread, or to the unit that holds the fault; a destination of another kind or with reserved
bits traps with 0x10, and in user mode the instruction traps with 0x02. -/
def Parts.FaultReplies : Prop :=
  ∀ (s : State) (a : Reg), s.Ready →
    let x := (s.ctx s.cur).regs.rs a
    let w := x.toNat
    let k := w % 2 ^ 12 * 8 + w / 2 ^ 12 % 8
    let each := fun (i : Instr) (code : Nat) (ev : Event) =>
      ((s.ctx s.cur).sup = true → w / 2 ^ 62 = 1 → w / 2 ^ 23 % 2 ^ 39 = 0 →
        s.Gives i ({ s.started i with replies := s.replies ++ [{ thread := w, code := code }], agenda := s.agenda ++ [ev] }) 0 []) ∧
      ((s.ctx s.cur).sup = true → 2 ≤ w / 2 ^ 62 → s.badHandle w = false → s.Gives i ((s.started i).post (.unitFaultReply w code)) 0 []) ∧
      ((s.ctx s.cur).sup = true → (s.ctx s.cur).Enabled → w / 2 ^ 62 = 0 ∨ (w / 2 ^ 62 = 1 ∧ w / 2 ^ 23 % 2 ^ 39 ≠ 0) ∨ (2 ≤ w / 2 ^ 62 ∧ s.badHandle w = true) →
        s.Traps i 0x10 x) ∧
      ((s.ctx s.cur).sup = false → (s.ctx s.cur).Enabled → s.Traps i 0x02 (BitVec.ofNat 64 i.word))
    each (.sreplyResume a) 0 (.replyResume k) ∧ each (.sreplySignal a) 1 (.replySignal k) ∧ each (.sreplyKill a) 2 (.replyKill k)

/-- R318, R319: `BIASFLIP` of a page that has the bias asked for does nothing more; a flip to host bias writes the die's lines back, drops the page's copies
and writes the leaf; a flip to device bias asks the host first, and completes when its lines are back. In user mode it traps with 0x02. -/
def Parts.BiasFlips : Prop :=
  ∀ (s : State) (a : Reg), s.Ready →
    let k := s.cur
    let va := ((s.ctx k).regs.rs a).toNat
    (∀ pte at_ level, (s.ctx k).sup = true → winTag va = 0 → s.leaf (dieOf (coreOf k)) (s.ctx k).asid va = .leaf pte at_ level →
      (s.flips.find? fun f => f.pteAt == at_) = none →
      let base := leafPA pte level 0
      (pteBias pte = true → s.Sets (.biasflipHost a) 0 []) ∧
      (pteBias pte = false → s.Sets (.biasflipDevice a) 0 []) ∧
      (pteBias pte = false → s.Gives (.biasflipHost a) (((s.started (.biasflipHost a)).dropPage base (pageSize level)).flipDone at_ true) 0 []) ∧
      (pteBias pte = true → s.Begins (.biasflipDevice a)
        (({ s.started (.biasflipDevice a) with flips := s.flips ++ [{ pteAt := at_, base := base, size := pageSize level, ctx := some k, seq := 0, done := false }] } : State).post
          (.hostWritebackCompletion base)) 0 { how := .running, deadline := none, aux := [] })) ∧
    (∀ (t : State) (e : Env) f pte at_ level, e.k = k → e.n a = va → (t.ctx k).sup = true → winTag va = 0 →
      t.leaf (dieOf (coreOf k)) (t.ctx k).asid va = .leaf pte at_ level → (t.flips.find? fun f => f.pteAt == at_) = some f → f.ctx = some k → f.done = true →
      tryBiasflip a false e t = .done [] (t.flipDone at_ false)) ∧
    ((s.ctx k).sup = false → (s.ctx k).Enabled → s.Traps (.biasflipHost a) 0x02 (BitVec.ofNat 64 (Instr.biasflipHost a).word) ∧
      s.Traps (.biasflipDevice a) 0x02 (BitVec.ofNat 64 (Instr.biasflipDevice a).word))

/-- R505: `WFI` goes on at once where an event of its has come, and parks for at most 64 microseconds of Treut time otherwise. -/
def Parts.WaitForInterrupt : Prop :=
  ∀ (s : State), s.Ready →
    (s.awake s.cur = true → s.Sets .wfi 0 []) ∧
    (s.awake s.cur = false → s.Begins .wfi (s.started .wfi) 0 { how := .parked, deadline := some (s.now (dieOf (coreOf s.cur)) + 64000 * 65536), aux := [] })

/-- R318, R319, R504, R505: fault replies, bias flips and `WFI`.
That a pending interrupt ends a `WFI` whatever `UIEN` says is the model's reading (log 47). -/
def Obligations.SystemInstructions : Prop :=
  Parts.FaultReplies ∧ Parts.BiasFlips ∧ Parts.WaitForInterrupt

/-! ### Tasks -/

/-- R236, R242, R243, R253: `PUBF` publishes a frame whose 64 bytes it can read and whose fields pass their checks; `SPAWN` of a task context that has
published pushes the continuation and goes on at its target, one level deeper; where the hardware part of the deque is full its oldest entries are
spilled first, and where that would breach the ring's quota it traps with 0x0D. A handler may do neither: it traps with 0x01. -/
def Parts.FramesAndSpawns : Prop :=
  ∀ (s : State) (a : Reg), s.Ready →
    let k := s.cur
    let c := s.ctx k
    let x := c.regs.rs a
    let addr := x.toNat
    (∀ (f : Nat) (s2 : State), s.isHandler k = false → addr % 64 = 0 → frameWindow addr = true → frameFault f = none →
      (s.started (.pubf a)).plainRead (s.who k) .load addr 64 = .ok f s2 → ∃ st, s.Gives (.pubf a) (s2.modCtx k fun y =>
        { y with snap := f, frame := mkFrame addr (c.frameD && decide (c.frameAddr = addr)) st true }) 0 [] ∧ (st = true ↔ c.isRoot = false ∧ c.taskFrame = addr)) ∧
    (s.Flushed k → s.isHandler k = false → c.framePub = true → addr % 2 = 0 →
      let s1 := s.started (.spawn a)
      let s2 := s1.makeRoom (coreOf k)
      ((s.core (coreOf k)).hardware < 64 → s.Gives (.spawn a)
        ((s1.modCore (coreOf k) fun y => { y with deque := y.deque ++ [s.entryOf k (c.pc + 4)] }).modCtx k fun y => { y with depth := y.depth + 1, pc := x }) 0 []) ∧
      (64 ≤ (s.core (coreOf k)).hardware → (s.core (coreOf k)).spilled + 32 ≤ (s.core (coreOf k)).ringQuota → s2.ctx k = s1.ctx k →
        (s2.core (coreOf k)).hardware < 64 → s.Gives (.spawn a)
          ((s2.modCore (coreOf k) fun y => { y with deque := y.deque ++ [s.entryOf k (c.pc + 4)] }).modCtx k fun y => { y with depth := y.depth + 1, pc := x }) 0 []) ∧
      (64 ≤ (s.core (coreOf k)).hardware → (s.core (coreOf k)).ringQuota < (s.core (coreOf k)).spilled + 32 → (s.ctx k).Enabled →
        s.Traps (.spawn a) 0x0D (BitVec.ofNat 64 (Instr.spawn a).word))) ∧
    ((s.ctx k).Enabled →
      (s.isHandler k = true → s.Traps (.pubf a) 0x01 (BitVec.ofNat 64 (Instr.pubf a).word) ∧ s.Traps (.spawn a) 0x01 (BitVec.ofNat 64 (Instr.spawn a).word)) ∧
      (c.framePub = false → s.Traps (.spawn a) 0x01 (BitVec.ofNat 64 (Instr.spawn a).word)) ∧
      (s.isHandler k = false → addr % 64 ≠ 0 → s.Traps (.pubf a) 0x03 x) ∧
      (s.isHandler k = false → addr % 64 = 0 → frameWindow addr = false → s.Traps (.pubf a) 0x04 x) ∧
      (s.isHandler k = false → c.framePub = true → addr % 2 = 1 → s.Traps (.spawn a) 0x03 x))

/-- R244: `TASKEND` clears the holds and discards the windows of its context first. Below a spawn whose continuation is still present in the hardware part of
its deque it takes it back and goes on there; where the continuation was stolen it counts its frame's join counter down, and its context is free
then. At the bottom of a task with no landed tile to write back it releases the landing space and the pins, and then, at the bottom of the root task
it ends the launch, otherwise it counts its parent's join counter down; its context is free then.
That a context without an entry becomes free is the model's choice (log 92). -/
def Parts.TaskEnds : Prop :=
  ∀ (s : State), s.Ready → s.Flushed s.cur → s.isHandler s.cur = false →
    let k := s.cur
    let c := s.ctx k
    let core := coreOf k
    let s1 := (s.started .taskend).closeTask k
    let popped := fun (i : Nat) => (s1.modCore core fun x => { x with deque := x.deque.take i ++ x.deque.drop (i + 1) }).modCtx k fun x => { x with depth := x.depth - 1 }
    let bottom := (s1.modCtx k fun x => { x with landed := [] }).unlock core (pinOf k)
    let down := fun (m : Nat) => some ((m + (2 ^ 64 - 1)) % 2 ^ 64)
    let rests := ∀ t ∈ c.landed, t.size = 0 ∨ tileW t.entry = false
    (∀ i q, 0 < c.depth → youngest k c.gen 0 (s.core core).deque = some i → (s.core core).deque[i]? = some q → (s.core core).spilled ≤ i →
      (q.state = .present → ∃ t, exec .taskend s = .next t ∧ t = (popped i).setCtx k (t.ctx k) ∧ (t.ctx k).pc = q.resume ∧ (t.ctx k).depth = c.depth - 1 ∧
        (t.ctx k).frame = mkFrame q.frame q.fD q.fS true ∧ (t.ctx k).snap = q.snap ∧ (t.ctx k).regs = c.regs ∧ (t.ctx k).win = Win.reset ∧
        (t.ctx k).hold = 0 ∧ (t.ctx k).state = .running) ∧
      (q.state = .stolen → ∀ v s3, (popped i).atomic (s.who k) .atomic (frJoin q.snap) down = .ok v s3 → exec .taskend s = .next (s3.freeTaskCtx k))) ∧
    (0 < c.depth → youngest k c.gen 0 (s.core core).deque = none → exec .taskend s = .next (s1.freeTaskCtx k)) ∧
    (c.depth = 0 → rests → frParent c.taskSnap = 0 →
      exec .taskend s = .next ((bottom.freeTaskCtx k).finishLaunch (s.slotOf core) 0)) ∧
    ∀ (j : Nat) (s2 : State) (v : Nat) (s3 : State), c.depth = 0 → rests → frParent c.taskSnap ≠ 0 →
      bottom.plainRead (s.who k) .load (frParent c.taskSnap + 16) 8 = .ok j s2 →
      s2.atomic (s.who k) .atomic j down = .ok v s3 → exec .taskend s = .next (s3.freeTaskCtx k)

/-- R245, R252, R257, R258: `SYNC` goes on at once where nothing of the frame was stolen or donated or its counter is 0, and parks otherwise: with a watch at
its counter's home where one is free, to read again after 256 ns where none is. `DONATE` sends its entry to the queue, with 1 added to the
counter of a frame with a parent, and waits for the status, which the next attempt gives. -/
def Parts.JoinsAndDonations : Prop :=
  ∀ (s : State) (d a b : Reg), s.Ready →
    let k := s.cur
    let c := s.ctx k
    let core := coreOf k
    let at_ := (c.regs.rs a).toNat
    let w := (c.regs.rs b).toNat
    let don := Instr.donate d a b
    (s.isHandler k = false → (c.framePub && (c.frameS || c.frameD)) = false → s.Gives .sync ((s.started .sync).acquire core) 0 []) ∧
    (∀ (v : Nat) (s2 : State), s.isHandler k = false → (c.framePub && (c.frameS || c.frameD)) = true →
      s.atomicChecks core (frJoin c.snap) = none → (s.started .sync).acquireRead (s.who k) (frJoin c.snap) true = .ok v s2 →
      (v = 0 → s.Gives .sync ((s2.modCtx k fun x => { x with frame := x.frame &&& ~~~4 }).acquire core) 0 []) ∧
      (v ≠ 0 → (∀ u at_, s2.watchAt (s.who k) (frJoin c.snap) = some (u, at_) → s2.watchesAt u < 64 →
          s.Begins .sync s2 0 { how := .parked, deadline := none, aux := syncWatch u at_ }) ∧
        ((s2.watchAt (s.who k) (frJoin c.snap) = none ∨ ∃ u at_, s2.watchAt (s.who k) (frJoin c.snap) = some (u, at_) ∧ 64 ≤ s2.watchesAt u) →
          s.Begins .sync s2 0 { how := .parked, deadline := some (s2.now (dieOf core) + 256 * 65536), aux := syncPolls }))) ∧
    (∀ (f : Nat) (s2 : State), w < 2 ^ 16 → w / 16 % 16 = 0 → at_ % 64 = 0 → winTag at_ ≠ 0xF0 → winTag at_ ≠ 0xF1 → winTag at_ ≠ 0xF2 → (s.core core).saving = false →
      (s.started don).plainRead (s.who k) .load at_ 64 = .ok f s2 → donationFault f = none → s2.Flushed k →
      let sent := fun (j : Nat) (v : State) => s.Begins don (({ v with offers := v.offers ++
        [{ queue := w % 16, entry := v.donated k at_ f, ctx := k, pkg := w / 256, status := none }] } : State).post (.donationEntry (w % 16))) 0
          { how := .running, deadline := none, aux := donateSent j (frParent f) }
      (frParent f = 0 → sent 0 s2) ∧
      ∀ j s3 m s4, frParent f ≠ 0 → s2.plainRead (s.who k) .load (frParent f + 16) 8 = .ok j s3 →
        s3.atomic (s.who k) .atomic j (fun m => some ((m + 1) % 2 ^ 64)) = .ok m s4 → sent j s4) ∧
    ∀ (t : State) (e : Env) (st j parent : Nat), e.k = k → e.wait = some { how := .running, deadline := none, aux := donateSent j parent } →
      (t.offers.find? fun o => o.ctx == k).bind (·.status) = some st →
      let ends := fun (v : State) => tryDonate d a b e t = .done [.s d (BitVec.ofNat 64 st)] { v with offers := v.offers.filter fun o => o.ctx != k }
      (parent = 0 ∨ (st = 0 ∧ parent ≠ (t.ctx k).frameAddr) → ends t) ∧
      (parent ≠ 0 → st = 0 → parent = (t.ctx k).frameAddr → ends (t.modCtx k fun x => { x with frame := x.frame ||| 4 })) ∧
      ∀ m v, parent ≠ 0 → st ≠ 0 → t.atomic (t.who k) .atomic j (fun m => some ((m + (2 ^ 64 - 1)) % 2 ^ 64)) = .ok m v → ends v

/-- R236, R242 to R245, R257, R258: frames, spawns, ends, joins and donations.
That a `SYNC` waits for no tokens is the model's reading (log 48). -/
def Obligations.TaskInstructions : Prop :=
  Parts.FramesAndSpawns ∧ Parts.TaskEnds ∧ Parts.JoinsAndDonations

/-! ### Messages -/

/-- R205, R206, R216, R217: `SEND` of a context that owes nothing puts its message on its way: LEN bytes of vB, zero beyond, with the sender's word, the
launch's slot and the context's pts; a destination of a core or thread through the network, of the host to its launch's event queue; `SENDM` one copy
for each core of its mask, in ascending order. -/
def Parts.Sends : Prop :=
  ∀ (s : State) (a b v : Reg), s.Ready → s.Flushed s.cur → (s.core (coreOf s.cur)).saving = false →
    let k := s.cur
    let g := (s.ctx k).regs
    let dst := (g.rs a).toNat
    let ctl := (g.rs b).toNat
    let user := !(s.ctx k).sup
    let len := ctl / 2 ^ 16 % 2 ^ 7
    let msg := fun (to_ nc n : Nat) => (
      { dst := to_, cls := ctl % 64, sent := ctl % 64, nc := nc, len := len, payload := (g.rv v).toNat % 2 ^ (8 * len), hsrc := false,
        sender := s.senderBits k, reason := 0, slot := s.slotOf (coreOf k), pts := (s.ctx k).ltime, bound := none, born := s.pkg.born + n,
        spilled := false } : Msg)
    ((s.ctx k).sup = true ∨ 3 < ctl % 64) →
    (ctlBad false ctl = false → s.badDst user dst = false → ∃ s2 : State, s.Gives (.send a b v) s2 0 [] ∧ s2.ctxs = (s.started (.send a b v)).ctxs ∧ s2.mem = s.mem ∧
      let m := msg dst (ctl / 2 ^ 8 % 8) 0
      (dst / 2 ^ 62 = 0 ∨ dst / 2 ^ 62 = 1 → s2.net = s.net ++ [m] ∧ s2.agenda = s.agenda ++ [.messageArrival (dst % 2 ^ 12)]) ∧
      (dst / 2 ^ 62 = 3 → s2.net = s.net ++ [m] ∧ s2.agenda = s.agenda ++ [.hostMessage (s.evqOf (s.slotOf (coreOf k)))]) ∧
      (dst / 2 ^ 62 = 2 → (s.die (dst / 2 ^ 9 % 8)).fifo.length < 64 + (s.die (dst / 2 ^ 9 % 8)).fifoQuota →
        (s2.die (dst / 2 ^ 9 % 8)).fifo = (s.die (dst / 2 ^ 9 % 8)).fifo ++ [m])) ∧
    (ctlBad true ctl = false → s.badMulti user dst = false → ∃ s2 : State, s.Gives (.sendm a b v) s2 0 [] ∧ s2.mem = s.mem ∧
      let cores := (List.range 16).filter fun i => dst.testBit (24 + i)
      s2.net = s.net ++ (List.range cores.length).map fun n => msg (dst / 16 % 2 ^ 8 * 16 + cores.getD n 0) 5 n)

/-- R216: the checks of a send in order: its control word (0x01), a system class in user mode (0x02), its destination (0x10). -/
def Parts.SendChecks : Prop :=
  ∀ (s : State) (a b v : Reg), s.Ready → (s.ctx s.cur).Enabled →
    let g := (s.ctx s.cur).regs
    let dst := g.rs a
    let ctl := (g.rs b).toNat
    let user := !(s.ctx s.cur).sup
    let each := fun (i : Instr) (multi : Bool) (bad : Bool) =>
      (ctlBad multi ctl = true → s.Traps i 0x01 (BitVec.ofNat 64 i.word)) ∧
      (ctlBad multi ctl = false → user = true → ctl % 64 ≤ 3 → s.Traps i 0x02 (BitVec.ofNat 64 i.word)) ∧
      (ctlBad multi ctl = false → (user = false ∨ 3 < ctl % 64) → bad = true → s.Traps i 0x10 dst)
    each (.send a b v) false (s.badDst user dst.toNat) ∧ each (.sendm a b v) true (s.badMulti user dst.toNat)

/-- R218, R222, R224: the handler table, `HMASK` and the holds. `HMASK` sets and clears bits at once and leaves bits [3:1] alone in user mode; a hold adds
classes to the context's own and a release takes them away, with the core's held set as the result. -/
def Parts.HandlerTable : Prop :=
  ∀ (s : State) (d a b : Reg), s.Ready →
    let k := s.cur
    let c := coreOf k
    let g := (s.ctx k).regs
    let x := g.rs a
    let y := g.rs b
    let w := (g.rs d).toNat
    let user := !(s.ctx k).sup
    let keep : Word := if user then 0xE else 0
    let old := BitVec.ofNat 64 (s.core c).hmask
    let new := (((old &&& ~~~x) ||| y) &&& ~~~keep) ||| (old &&& keep)
    s.Gives (.hmask d a b) (((s.started (.hmask d a b)).modCore c fun z => { z with hmask := new.toNat }).post (.handlerStart c)) 0 [.s d old] ∧
    (w < 2 ^ 11 → w / 2 ^ 6 % 4 = 0 → (user = false ∨ w % 64 = 0 ∨ 3 < w % 64) → x.toNat % 2 = 0 →
      s.Gives (.hset d a b) ((s.started (.hset d a b)).modCore c fun z =>
        { z with handlers := z.handlers.put (w % 64) { pc := x, prio := w / 2 ^ 8 % 8, arg := y } }) 0 []) ∧
    (x.toNat < 64 → (user = false ∨ x = 0 ∨ 3 < x.toNat) →
      s.Gives (.hclr a) ((s.started (.hclr a)).modCore c fun z => { z with handlers := z.handlers.del x.toNat }) 0 []) ∧
    (let mine := BitVec.ofNat 64 (s.ctx k).hold
     let bits_ := x &&& ~~~keep
     (s.ctx k).hold < 2 ^ 64 →
     (∃ r, s.Gives (.hold d a) ((s.started (.hold d a)).modCtx k fun z => { z with hold := (mine ||| bits_).toNat }) 0 [.s d r] ∧
       r = BitVec.ofNat 64 (((s.started (.hold d a)).modCtx k fun z => { z with hold := (mine ||| bits_).toNat }).heldSet c)) ∧
     ∃ r, s.Gives (.rels d a) (((s.started (.rels d a)).modCtx k fun z => { z with hold := (mine &&& ~~~bits_).toNat }).post (.handlerStart c)) 0 [.s d r] ∧
       r = BitVec.ofNat 64 (((s.started (.rels d a)).modCtx k fun z => { z with hold := (mine &&& ~~~bits_).toNat }).heldSet c))

/-- R218, R225: `MBXW` takes the oldest message of a class that its context holds, with its payload and info word, as an acquire; with none it parks until its
deadline; a class that is not held traps with 0x01. `HRET` ends a handler and frees its context; elsewhere it traps with 0x01. -/
def Parts.Mailboxes : Prop :=
  ∀ (s : State) (d a b : Reg), s.Ready →
    let k := s.cur
    let c := coreOf k
    let g := (s.ctx k).regs
    let cls := (g.rs a).toNat
    let i := Instr.mbxw d a b
    let held := cls < 64 ∧ (s.ctx k).hold.testBit cls = true
    (∀ m, held → (s.core c).recv.find? (fun x => x.cls == cls) = some m → s.Gives i ((((s.started i).takeMsg c cls).acquire c).raisePts k m.pts) 0
      [.v 0 (BitVec.ofNat 512 (m.payload % 2 ^ (8 * m.len))), .s d (BitVec.ofNat 64 m.info)]) ∧
    (held → (s.core c).recv.find? (fun x => x.cls == cls) = none →
      (g.rs b = BitVec.allOnes 64 → s.Begins i (s.started i) 0 { how := .parked, deadline := none, aux := [] }) ∧
      (g.rs b ≠ BitVec.allOnes 64 → g.rs b ≠ 0 →
        (g.rs b).toNat < 2 ^ 47 → s.Begins i (s.started i) 0 { how := .parked, deadline := some (s.now (dieOf c) + (g.rs b).toNat * 65536), aux := [] }) ∧
      (g.rs b = 0 → s.Sets i 0 [.s d 0])) ∧
    (¬held → (s.ctx k).Enabled → s.Traps i 0x01 (BitVec.ofNat 64 i.word)) ∧
    (s.isHandler k = true → ∃ t, exec .hret s = .next t ∧ (t.ctx k).state = .free ∧ (t.ctx k).regs = (s.ctx k).regs ∧ (t.ctx k).hold = 0 ∧ (t.ctx k).win = Win.reset ∧
      t = { (s.setCtx k (t.ctx k)) with agenda := s.agenda ++ [.handlerStart c, .distributorOffer (dieOf c)] }) ∧
    (s.isHandler k = false → (s.ctx k).Enabled → s.Traps .hret 0x01 (BitVec.ofNat 64 Instr.hret.word))

/-- R205, R216 to R218, R222, R224, R225: the MSG major. -/
def Obligations.MessageInstructions : Prop :=
  Parts.Sends ∧ Parts.SendChecks ∧ Parts.HandlerTable ∧ Parts.Mailboxes

/-- R226 to R228: `FOLLOW` of a thread of the same cluster that takes followers makes the context one of them, and answers 0 where it takes none; `LEAVE` of
a context that follows nobody does nothing; `REJOIN` of a context without a leader goes on at once, and of one that has left it parks until its label
comes. -/
def Parts.Hoists : Prop :=
  ∀ (s : State) (d a : Reg) (p : BitVec 10), s.Ready →
    let k := s.cur
    let c := s.ctx k
    let w := (c.regs.rs a).toNat
    let t := w % 2 ^ 12 * 8 + w / 2 ^ 12 % 8
    let i := Instr.follow d a
    let j := Instr.rejoin d p
    let good := s.isHandler k = false ∧ w / 2 ^ 62 = 1 ∧ w / 2 ^ 23 % 2 ^ 39 = 0 ∧ w % 2 ^ 12 / 16 = coreOf k / 16 ∧ s.isService (w % 2 ^ 12) = false ∧ t ≠ k
    let takes := (s.ctx t).state ≠ .free ∧ (s.ctx t).gen = w / 2 ^ 15 % 2 ^ 8 ∧ s.isHandler t = false ∧ (s.ctx t).member = false ∧
      (s.followers t).length < 15 ∧ s.followers k = []
    (good → takes → s.Gives i ((s.started i).modCtx k fun x =>
      { x with state := .following, member := true, leader := some (t, (s.ctx t).gen), port := [], latch := none, pc := (s.ctx t).streamPc }) 0 [.s d 1]) ∧
    (good → ¬takes → s.Sets i 0 [.s d 0]) ∧
    (s.isHandler k = false → ¬good → (s.ctx k).Enabled → s.Traps i 0x10 (c.regs.rs a)) ∧
    (c.member = false → s.Sets .leave 0 []) ∧
    (c.member = false → c.leader = none → s.Sets j 0 [.s d 0]) ∧
    ∀ l, c.member = false → c.leader = some l → (s.ctx l.1).gen = l.2 → ((s.ctx l.1).state ≠ .free ∨ c.port ≠ []) → s.Begins j (s.started j) 0
      { how := .parked, deadline := none, aux := rejoinWaits (c.pc + BitVec.ofInt 64 (2 * p.toInt)).toNat }

/-- R227, R228: what a follower's `LEAVE` and `REJOIN` do. -/
def Parts.HoistsOfFollowers : Prop :=
  ∀ (s : State) (d : Reg) (p : BitVec 10), (s.ctx s.cur).win.outst = [] → (s.ctx s.cur).state = .following → (s.ctx s.cur).member = true →
    s.Gives .leave ((s.started .leave).modCtx s.cur fun x => { x with state := .running, member := false, latch := none }) 0 [] ∧
    s.Sets (.rejoin d p) 0 [.s d 1]

/-- R226 to R228: hoists. -/
def Obligations.HoistInstructions : Prop :=
  Parts.Hoists ∧ Parts.HoistsOfFollowers

/-! ### Barriers and teams -/

/-- R267 to R270: `BARA` arrives and gives the phase; an arrival that brings the count to what the barrier expects completes the phase. `BARW` goes on once the
phase of its arrival has passed, as an acquire, and parks before. `BARX` arrives with its word and parks; it goes on when the phase has passed. -/
def Parts.Barriers : Prop :=
  ∀ (s : State) (d : Reg) (n : BitVec 5) (m : BitVec 1), s.Ready → s.Flushed s.cur →
    let k := s.cur
    let c := coreOf k
    let b := n.toNat + 32 * m.toNat
    let x := s.barrier c b
    let a := Instr.bara d n m
    let w := Instr.barw d n m
    let e := Instr.barx d n m
    let phase := BitVec.ofNat 64 x.phase
    let waiting := (s.ctx k).arrived b = true ∧ x.phase = (s.ctx k).lastPhase b
    let parked_ := fun (aux : List Nat) => ({ how := .parked, deadline := none, aux := aux } : Wait)
    (x.releasing = false → x.phase < 2 ^ 16 → ∃ s2 : State, s.Gives a s2 0 [.s d phase] ∧ (s2.ctx k).arrived b = true ∧ (s2.ctx k).lastPhase b = x.phase % 2 ^ 16 ∧
      (x.arrived + 1 < x.expect → s2.barrier c b =
        { x with arrived := x.arrived + 1, pts := if x.arrived = 0 then (s.ctx k).ltime else serialMax 24 x.pts (s.ctx k).ltime }) ∧
      (x.expect ≤ x.arrived + 1 → x.words = [] → (s2.barrier c b).phase = (x.phase + 1) % 2 ^ 16 ∧ (s2.barrier c b).arrived = 0)) ∧
    (¬waiting → s.Gives w ((((s.started w).modCtx k fun y => { y with arr := y.arr.put b (Tab.get 0 y.arr b % 2 ^ 16) })).observe k b) 0 [.s d phase]) ∧
    (waiting → s.Begins w (s.started w) 0 (parked_ [])) ∧
    (s.isHandler k = false → x.releasing = false → x.phase < 2 ^ 16 →
      s.Begins e ((s.started e).arriveBar k b (some (((s.ctx k).regs.rs d).toNat % 2 ^ 32))) 0 (parked_ [1])) ∧
    (∀ (t : State) (v : Env), v.k = k → v.wait = some (parked_ [1]) → t.isHandler k = false → (t.barrier c b).failure k = none →
      ¬((t.ctx k).arrived b = true ∧ (t.barrier c b).phase = (t.ctx k).lastPhase b) →
      tryBarx d b v t = .done [] (((t.modCtx k fun y => { y with arr := y.arr.put b (Tab.get 0 y.arr b % 2 ^ 16) })).observe k b))

/-- R263 to R266: a `TEAM` whose proposal completes its set, with its barriers idle, changes the team of every core of the set at one instant: each takes the mask,
the rows, the columns and PER of the proposal, and by its rank the place ROW = rank / COLS and COL = rank mod COLS. A team word that breaks a rule traps
with 0x01. -/
def Parts.Teams : Prop :=
  ∀ (s : State) (d a b : Reg), s.Ready →
    let k := s.cur
    let c := coreOf k
    let cl := clusterOf c
    let word := (s.ctx k).regs.rs a
    let p := word.toNat
    let i := Instr.team d a b
    let wait := if (s.ctx k).regs.rs b = BitVec.allOnes 64 then none else some (s.now (dieOf c) + ((s.ctx k).regs.rs b).toNat * 65536 % 2 ^ 64)
    let s1 := (s.started i).modCore c fun x => { x with proposal := some { ctx := k, word := p, pts := (s.ctx k).ltime, deadline := wait } }
    let set := s1.teamSet cl 16 (2 ^ (c % 16))
    let good := s.isHandler k = false ∧ badTeamWord p = false ∧ geomPer p + 1 ≤ pwTasks (s.core c).pword
    (good → s.Flushed k → (s.core c).saving = false → bit (geomMask p) (c % 16) = true →
      (∀ j, j < 16 → bit (geomMask p) j = true → s.isService (cl * 16 + j) = false) → (s.core c).proposal = none →
      s1.agreed cl set = true → s1.teamsBusy cl set = false →
      ∃ t, exec i s = .next t ∧ (t.ctx k).regs.rs d = (if d = 0 then 0 else 1) ∧
        ∀ j, j < 16 → bit set j = true → ∀ q, s1.proposalOf cl j = some q → let g := (t.core (cl * 16 + j)).geom
          geomMask g = geomMask q.word ∧ geomRows g = geomRows q.word ∧ geomCols g = geomCols q.word ∧ geomPer g = geomPer q.word ∧
          geomRow g = popcount j (geomMask q.word) / geomCols q.word % 16 ∧ geomCol g = popcount j (geomMask q.word) % geomCols q.word % 16) ∧
    (¬good → (s.ctx k).Enabled → s.Traps i 0x01 (BitVec.ofNat 64 i.word)) ∧
    (good → (s.ctx k).Enabled → bit (geomMask p) (c % 16) = false → s.Traps i 0x10 word)

/-- R273: `GEOSUB` writes an even register pair from the core's place in its team and the size of a matrix: the tiles of the core in each direction, the
tiles of K, the remainders, and the masks of the last tiles. An odd or zero destination and a dimension above 2^20 trap with 0x01. -/
def Parts.TeamTiles : Prop :=
  ∀ (s : State) (d a b : Reg), s.Ready →
    let g := (s.ctx s.cur).regs
    let m := (g.rs a).toNat % 2 ^ 32
    let n := (g.rs a).toNat / 2 ^ 32
    let q := (g.rs b).toNat
    let geom := (s.core (coreOf s.cur)).geom
    let i := Instr.geosub d a b
    let ok := d.toNat % 2 = 0 ∧ d ≠ 0 ∧ m ≤ 2 ^ 20 ∧ n ≤ 2 ^ 20 ∧ q ≤ 2 ^ 20
    let on := fun (tiles place step : Nat) => (List.range tiles).filter fun t => t % step = place % step ∧ place ≤ t
    (ok → 0 < geomRows geom → 0 < geomCols geom → ∃ x y : Word, s.Sets i 0 [.s d x, .s (d + 1) y] ∧
      let rows := on ((m + 31) / 32) (geomRow geom) (geomRows geom)
      let cols := on ((n + 31) / 32) (geomCol geom) (geomCols geom)
      x.toNat % 2 ^ 16 = rows.length ∧ x.toNat / 2 ^ 16 % 2 ^ 16 = cols.length ∧
      (∀ j, j < 32 → y.getLsbD j = decide (∃ t, rows.getLast? = some t ∧ 32 * t + j < m) ∧
        y.getLsbD (j + 32) = decide (∃ t, cols.getLast? = some t ∧ 32 * t + j < n)) ∧
      x.toNat / 2 ^ 32 % 2 ^ 16 = (q + 31) / 32 ∧ x.toNat / 2 ^ 48 % 32 = m % 32 ∧ x.toNat / 2 ^ 53 % 32 = n % 32 ∧ x.toNat / 2 ^ 58 = q % 32) ∧
    (¬ok → (s.ctx s.cur).Enabled → s.Traps i 0x01 (BitVec.ofNat 64 i.word))

/-- R262 to R270, R273: barriers and teams.
That `BARX` ignores the upper half of its word is the model's reading (log 39). -/
def Obligations.BarrierInstructions : Prop :=
  Parts.Barriers ∧ Parts.Teams ∧ Parts.TeamTiles

/-! ### Engines -/

/-- R336 to R342: `COPY`, `COPYM`, `GET` and `PUT` read their block, and a `GET` or `PUT` its index list, and complete with the bytes that will be counted: the
transfer has a record and stands among those that are to register; one of no request sets its counter's `UIPC` and `TAG` and is over. With no record
free the instruction stays at the issue stage with what it has read. -/
def Parts.EngineIssue : Prop :=
  ∀ (s : State) (i : Instr) (op : XferOp) (l : La) (d a : Reg) (cc : Nat), s.Ready → engOf i = some (op, l, d, a, cc) →
    let k := s.cur
    let core := coreOf k
    let at_ := ((s.ctx k).regs.rs a).toNat
    let e := s.env i
    (∀ (b : Nat) (s2 : State) (x : Nat) (s3 : State), at_ % 64 = 0 → winTag at_ ∈ [0, 0xF0, 0xF1] →
      (s.started i).plainRead (s.who k) .load at_ 64 = .ok b s2 → s2.blockTrap e op at_ b = none →
      (if op = .get ∨ op = .put then s2.plainRead (s2.who k) .load (blkList b) (4 * blkCount b) = .ok x s3 else x = 0 ∧ s3 = s2) →
      (s3.core core).saving = false →
      let reqs := s3.requests (s2.who k) op b
      let bytes := countedBytes op b
      let y := s3.newXfer e op cc b (blkDst b) (blkSrc b) (blkBytes op b) bytes reqs.length
      (reqs = [] → s.Gives i (s3.register core cc (BitVec.ofNat 64 (blkUipc b)) (blkTag b)) l.toNat [.s d (BitVec.ofNat 64 bytes)]) ∧
      (∀ id, reqs ≠ [] → s3.freeXfer core = some id →
        s.Gives i (s3.toRegister k (s.ctx k).win.seq id y (s3.rangesOf (s2.who k) op b x) reqs) l.toNat [.s d (BitVec.ofNat 64 bytes)]) ∧
      (reqs ≠ [] → s3.freeXfer core = none → s.Begins i s3 l.toNat
        { how := .running, deadline := none, stops := true, aux := 0 :: b :: if op = .get ∨ op = .put then [x] else [] })) ∧
    ((s.ctx k).Enabled → (at_ % 64 ≠ 0 → s.Traps i 0x03 (BitVec.ofNat 64 at_)) ∧
      (at_ % 64 = 0 → winTag at_ ∉ [0, 0xF0, 0xF1] → s.Traps i 0x04 (BitVec.ofNat 64 at_))) ∧
    ∀ (b code val : Nat), at_ % 64 = 0 → winTag at_ ∈ [0, 0xF0, 0xF1] → (s.started i).plainRead (s.who k) .load at_ 64 = .ok b (s.started i) →
      (s.started i).blockTrap e op at_ b = some (code, val) → s.Faults i l.toNat code (BitVec.ofNat 64 val)

/-- R338: the first checks on the block of a `COPY`: LEN of 0 or above 2^32 bytes and set reserved bits fault with 0x01 and the block's address; a first or
last byte in a window that no operand may have faults with 0x04 and its address; an operand that begins in the core's scratch and leaves its carve-out
with 0x0C and its address; an overlap of source and destination in one window with 0x01 and the block's address. -/
def Parts.CopyBlockChecks : Prop :=
  ∀ (s : State) (e : Env) (at_ dst src len : Nat), dst < 2 ^ 64 → src < 2 ^ 64 → len < 2 ^ 64 →
    let b := dst + src * 2 ^ 64 + len * 2 ^ 128
    let open_ := [0, 0xF0, 0xF1, 0xF2]
    let last := fun (va : Nat) => (va + len - 1) % 2 ^ 64
    let accepted := winTag dst ∈ open_ ∧ winTag (last dst) ∈ open_ ∧ winTag src ∈ open_ ∧ winTag (last src) ∈ open_
    (len = 0 ∨ 2 ^ 32 < len → s.blockTrap e .copy at_ b = some (0x01, at_)) ∧
    (∀ x, x ≠ 0 → x < 2 ^ 192 → s.blockTrap e .copy at_ (b + x * 2 ^ 192) = some (0x01, at_)) ∧
    (0 < len → len ≤ 2 ^ 32 →
      (winTag dst ∉ open_ → s.blockTrap e .copy at_ b = some (0x04, dst)) ∧
      (winTag dst ∈ open_ → winTag (last dst) ∉ open_ → s.blockTrap e .copy at_ b = some (0x04, last dst)) ∧
      (winTag dst ∈ open_ → winTag (last dst) ∈ open_ → winTag src ∉ open_ → s.blockTrap e .copy at_ b = some (0x04, src)) ∧
      (winTag dst ∈ open_ → winTag (last dst) ∈ open_ → winTag src ∈ open_ → winTag (last src) ∉ open_ → s.blockTrap e .copy at_ b = some (0x04, last src)) ∧
      (accepted → winTag dst = 0xF0 ∨ winTag dst = 0xF1 → s.scratchIn e.core dst len = false → s.blockTrap e .copy at_ b = some (0x0C, dst)) ∧
      (accepted → winTag dst = 0 → winTag src = 0 → s.blockTrap e .copy at_ b =
        if dst < src + len ∧ src < dst + len then some (0x01, at_) else none))

/-- R346 to R351: the counter instructions. `CTRX` adds a sum of at most 48 bits and arms, and the counter completes at once where the value is 0 or an error
stands; `CTRW` answers the word of a counter that is done, as an acquire, or parks until its deadline; `CTRR` reads the word, and its CLEAR form also
resets the counter. -/
def Obligations.CounterInstructions : Prop :=
  ∀ (s : State) (l : La) (d a : Reg) (n : BitVec 7), s.Ready →
    let k := s.cur
    let core := coreOf k
    let x := s.counter core n.toNat
    let t := (s.ctx k).regs.rs a
    let word := BitVec.ofNat 64 x.word
    let i := Instr.ctrx l d a n
    let w := Instr.ctrw l d a n
    let c := Instr.ctrrClear l d n
    (-(2 ^ 47) ≤ t.toInt → t.toInt < 2 ^ 47 →
      let v := (((x.value : Int) + t.toInt) % 2 ^ 48).toNat
      let ends := v = 0 ∨ x.err = true
      let y :=
        { x with value := v, armer := k, armerGen := (s.ctx k).gen, armed := decide ¬ends, done := decide ends,
                 uip := if ends then decide (x.uipc ≠ 0) else x.uip }
      let s2 := (s.started i).setCounter core n.toNat y
      ∃ r : Word, r.toNat % 2 ^ 48 = v ∧ -(2 ^ 47) ≤ r.toInt ∧ r.toInt < 2 ^ 47 ∧
        s.Gives i (if ends ∧ x.uipc ≠ 0 then s2.post (.completionInterrupt k) else s2) l.toNat [.s d r]) ∧
    (t.toInt < -(2 ^ 47) ∨ 2 ^ 47 ≤ t.toInt → (s.ctx k).Enabled → s.Traps i 0x01 t) ∧
    (x.done = true → s.Gives w (((s.started w).acquire core).raisePts k x.ccwts) l.toNat [.s d word]) ∧
    (x.done = false → t = 0 → s.Sets w l.toNat [.s d word]) ∧
    (x.done = false → t ≠ 0 → (t = BitVec.allOnes 64 ∨ t.toNat < 2 ^ 47) → s.Begins w (s.started w) l.toNat
      { how := .parked, aux := [], deadline := if t = BitVec.allOnes 64 then none else some (s.now (dieOf core) + t.toNat * 65536) }) ∧
    s.Sets (.ctrr l d n) l.toNat [.s d word] ∧
    s.Gives c ((s.started c).setCounter core n.toNat
      { x with value := 0, armed := false, done := false, err := false, uip := false, code := 0, uipc := 0, tag := 0 }) l.toNat [.s d word] ∧
    (x.value < 2 ^ 48 → word.toNat % 2 ^ 48 = x.value ∧ word.toNat / 2 ^ 48 % 2 ^ 8 = x.code % 256 ∧
      word.getLsbD 60 = x.uip ∧ word.getLsbD 61 = x.armed ∧ word.getLsbD 62 = x.done ∧ word.getLsbD 63 = x.err)

/-- R336, R338, R341, R435: `DENSE` of a valid handle and box completes with the bytes that will be counted: its transfer has a record and stands among those
that are to register, with one request for each shard that can hold a coordinate of the box, to the index engine of the shard's home; a handle or
box that is none faults with 0x01 and the handle. -/
def Parts.DenseIssue : Prop :=
  ∀ (s : State) (l : La) (d a : Reg) (m : BitVec 7), s.Ready →
    let k := s.cur
    let core := coreOf k
    let at_ := ((s.ctx k).regs.rs a).toNat
    let i := Instr.dense l d a m
    let e := s.env i
    ∀ (b : Nat) (s2 : State), at_ % 64 = 0 → winTag at_ ∈ [0, 0xF0, 0xF1] →
      (s.started i).plainRead (s.who k) .load at_ 64 = .ok b s2 → s2.blockTrap e .dense at_ b = none →
      let h := blkSrc b
      let dst := blkDst b
      let lo := keyImage (blk b 16 16)
      let hi := keyImage (blk b 32 16)
      (∀ (num : Nat) (r : Region) (id : Nat), s2.regionOf (s2.slotOf core) h = some (num, r) → badBox (spRank r.desc) lo hi = false →
        let size := boxVolume (spRank r.desc) lo hi
        let bytes := size * valBytes (spVfmt r.desc)
        winTag dst ∈ [0, 0xF0, 0xF1] → winTag (dst + bytes - 1) = winTag dst → (winTag dst = 0 ∨ s2.scratchIn core dst bytes = true) →
        (s2.core core).saving = false → s2.freeXfer core = some id →
        let reqs := (shardsOf r.desc lo hi).map fun j =>
          ((s2.shardAt k num r j).cl / 32 * 64 + 16, { newReq .dense core h dst size with shard := j })
        let x := { s2.newXfer e .dense m.toNat b dst h bytes bytes reqs.length with esize := valBytes (spVfmt r.desc), lo := lo, hi := hi }
        reqs ≠ [] → s.Gives i (s2.toRegister k (s.ctx k).win.seq id x (s2.lockRange (s2.who k) dst bytes true) reqs) l.toNat [.s d (BitVec.ofNat 64 bytes)]) ∧
      (s2 = s.started i → winTag dst = 0 → winTag (dst + 1 - 1) = winTag dst →
        (s2.regionOf (s2.slotOf core) h = none ∨ ∃ n r, s2.regionOf (s2.slotOf core) h = some (n, r) ∧ badBox (spRank r.desc) lo hi = true) →
        s.Faults i l.toNat 0x01 (BitVec.ofNat 64 h))

/-- R336 to R342, R435: the issue of engine operations.
That the bytes of a block are read in the step of the issue is the manual's snapshot (R330); when a transfer registers is the schedule's (log 1). -/
def Obligations.EngineInstructions : Prop :=
  Parts.EngineIssue ∧ Parts.CopyBlockChecks ∧ Parts.DenseIssue

/-! ### The matrix array -/

/-- R372 to R376: `MLEASE` of a core that holds the lease completes; of one that waits for it, parks; of another, asks for it and parks; it completes
with 1 once the lease is granted and with 0 once it is withdrawn. `MREL` of a core that has no lease does nothing, and otherwise gives it back. -/
def Obligations.LeaseInstructions : Prop :=
  ∀ (s : State) (l : La) (d a : Reg), s.Ready →
    let k := s.cur
    let core := coreOf k
    let x := s.core core
    let n := ((s.ctx k).regs.rs a).toNat
    let i := Instr.mlease l d a
    let parked_ := ({ how := .parked, deadline := none, aux := leaseWaits } : Wait)
    let ok := 1 ≤ n ∧ n ≤ 64
    (ok → x.lease.state = .held → s.Sets i l.toNat [.s d 1]) ∧
    (ok → x.lease.state = .wait → s.Begins i (s.started i) l.toNat parked_) ∧
    (ok → x.lease.state = .none ∨ x.lease.state = .spent →
      s.Begins i (((s.started i).modCore core fun y => { y with lease :=
        { state := .wait, n := n, left := 0, cycles := 0, idle := 0, age := s.arrayCycle core } }).post (.leaseGrant (clusterOf core))) l.toNat parked_) ∧
    (¬ok → (s.ctx k).Enabled → s.Traps i 0x01 (BitVec.ofNat 64 n)) ∧
    (∀ (t : State) (v : Env) (w : Wait), v.wait = some w → (w.aux = leaseGranted → tryMlease d a v t = .done [.s d 1] t) ∧
      (w.aux = leaseGone → tryMlease d a v t = .done [.s d 0] t)) ∧
    (x.lease.state = .none → s.Sets .mrel 0 []) ∧
    (x.lease.state ≠ .none → (x.lease.state = .held → ∀ q ∈ x.queue, q.op = .place) →
      s.Gives .mrel ((((s.started .mrel).modCore core fun y => { y with lease := { Lease.reset with n := x.lease.n } }).tellLease core leaseGone).post
        (.leaseGrant (clusterOf core))) 0 [])

/-- R384, R388 to R390: `MCLAIM` takes the lowest free slots or none; `MFREE` frees slots of its core that are neither filling nor named by a command, and
traps with 0x0B and the lowest slot that is not its core's; `MSTAT` reads a slot; `MWAIT` answers the slots in error once nothing of what it names is
outstanding. -/
def Parts.SlotInstructions : Prop :=
  ∀ (s : State) (l : La) (d a : Reg), s.Ready →
    let k := s.cur
    let core := coreOf k
    let x := (s.ctx k).regs.rs a
    let w := x.toNat
    let c := Instr.mclaim l d a
    let named := (List.range 64).filter fun i => x.getLsbD i
    let slotOk := fun (i : Nat) => (s.slot core i).state ≠ .free ∧ (s.slot core i).owner = core
    let cmds := (s.core core).queue.filter fun q => q.ctx = k ∧ q.op ≠ .place
    (w < 2 ^ 9 → w / 2 ^ 7 % 2 = 0 → 1 ≤ w % 2 ^ 7 → w % 2 ^ 7 ≤ 64 →
      let got := ((List.range 64).filter fun i => (s.slot core i).state == .free).take (w % 2 ^ 7)
      (got.length = w % 2 ^ 7 → ∃ r : Word, (∀ i, r.getLsbD i = decide (i ∈ got)) ∧
        s.Gives c (got.foldl (fun s i => s.setSlot core i { Slot.reset with state := .empty, owner := core, team := decide (2 ^ 8 ≤ w) }) (s.started c))
          l.toNat [.s d r]) ∧
      (got.length < w % 2 ^ 7 → s.Sets c l.toNat [.s d 0])) ∧
    ((∀ i ∈ named, slotOk i ∧ (s.slot core i).state ≠ .filling ∧ s.slotNamed core i = false) →
      s.Gives (.mfree a) (named.foldl (fun s i => s.setSlot core i Slot.reset) (s.started (.mfree a))) 0 []) ∧
    (∀ i ∈ named, ¬slotOk i → (∀ j ∈ named, j < i → slotOk j) → (s.ctx k).Enabled → s.Traps (.mfree a) 0x0B (BitVec.ofNat 64 i)) ∧
    (w < 64 → ∃ r : Word, s.Sets (.mstat l d a) l.toNat [.s d r] ∧
      (let y := s.slot core w
       y.owner < 2 ^ 12 → r.toNat / 2 ^ 61 = y.state.code ∧ r.getLsbD 60 = y.team ∧ r.toNat % 2 ^ 12 = (if y.state = .free then 0 else y.owner) ∧
         r.toNat / 2 ^ 48 % 2 ^ 8 = (if y.state = .error then y.code % 256 else 0) ∧
         (∀ f, y.fills.getLast? = some f → r.getLsbD 47 = f.roleB ∧ r.toNat / 2 ^ 44 % 8 = f.fmt % 8 ∧ r.toNat / 2 ^ 40 % 16 = f.kq % 16))) ∧
    (64 ≤ w → (s.ctx k).Enabled → s.Traps (.mstat l d a) 0x01 (BitVec.ofNat 64 (Instr.mstat l d a).word)) ∧
    ((∀ i ∈ named, (s.slot core i).state ≠ .filling) → cmds = [] → (∀ q ∈ (s.core core).storing, q.ctx ≠ k) →
      ∃ r : Word, s.Sets (.mwait l d a) l.toNat [.s d r] ∧ ∀ i, r.getLsbD i = (x.getLsbD i && decide ((s.slot core i).state = .error)))

/-- R385 to R387: a fill of a slot of its core whose rows lie in good windows and carve-outs starts: the slot is FILLING and has one more fill, with its
role, format and K, and with rows in scratch its bytes are theirs. -/
def Parts.FillInstructions : Prop :=
  ∀ (s : State) (roleB : Bool) (a b c : Reg) (n : BitVec 4) (w : Nat), s.Ready → (s.core (coreOf s.cur)).fmt = some w →
    let k := s.cur
    let core := coreOf k
    let g := (s.ctx k).regs
    let i := if roleB then Instr.mldb a b c n else Instr.mlda a b c n
    let f := if roleB then fwB w else fwA w
    let kk := (n.toNat + 1) * 32
    let no := (g.rs c).toNat
    let rows := if roleB then kk else 32
    let bytes := elBytes f (if roleB then 32 else kk)
    let row := fun (r : Nat) => ((g.rs a).toNat + r * (g.rs b).toNat) % 2 ^ 64
    let x := s.slot core no
    let inside := fun (r : Nat) => winTag (row r) ∈ [0, 0xF0, 0xF1] ∧ winTag (row r + bytes - 1) = winTag (row r) ∧
      (winTag (row r) ≠ 0 → s.scratchIn core (row r) bytes = true)
    (no < 64 → kk ≤ kLimit f → x.state ≠ .free → x.owner = core → (∀ r, r < rows → inside r) →
      ∃ (s2 : State) (y : Fill), s.Gives i s2 0 [] ∧ (s2.slot core no).state = .filling ∧ (s2.slot core no).fills = x.fills ++ [y] ∧
        (s2.slot core no).nextNo = x.nextNo + 1 ∧ y.no = x.nextNo ∧ y.roleB = roleB ∧ y.fmt = f ∧ y.kq = n.toNat ∧ y.base = (g.rs a).toNat ∧
        y.stride = (g.rs b).toNat ∧ y.ctx = k ∧
        ((∀ r, r < rows → winTag (row r) ≠ 0) → s2.mem = s.mem ∧ ∀ r j, r < rows → j < bytes → y.data.read (r * bytes + j) = s.scratchByte core (row r + j))) ∧
    ((s.ctx k).Enabled →
      (64 ≤ no ∨ kLimit f < kk → s.Traps i 0x01 (BitVec.ofNat 64 i.word)) ∧
      (no < 64 → kk ≤ kLimit f → ¬(x.state ≠ .free ∧ x.owner = core) → s.Traps i 0x0B (BitVec.ofNat 64 no)))

/-- R384 to R390: slots and their fills.
That a fill's bytes are read at its issue is the model's choice (log 43). -/
def Obligations.MatrixSlots : Prop :=
  Parts.SlotInstructions ∧ Parts.FillInstructions

/-- R370, R378, R391, R392, R398: the commands that their own instruction performs. With its core's queue empty `MFMT` sets the format word, `MPROG` the
program, and, where no window of another context holds a result for the tile, `MZERO` clears its tile and `MLDC` loads it from 32 rows; otherwise they
take their places at the end of the queue; with 16 commands there they stay at the issue stage.
That a result which another context's window holds is waited for is the model's reading (log 97). -/
def Parts.TileInstructions : Prop :=
  ∀ (s : State) (l : La) (d a b : Reg), s.Ready →
    let k := s.cur
    let core := coreOf k
    let x := s.core core
    let g := (s.ctx k).regs
    let w := (g.rs a).toNat
    let z := Instr.mzero l d
    let ld := Instr.mldc l d a b
    let put := fun (s : State) (m : Mem) (dirty : Bool) => if l = 0 then s.writeTile core d.toNat m dirty else s
    let row := fun (r : Nat) => (w + r * (g.rs b).toNat) % 2 ^ 64
    let place := newCmd .place x.cmdNo k 0 0 0
    (x.queue = [] →
      (fwValid w = true → s.Gives (.mfmt a) ((s.started (.mfmt a)).modCore core fun y => { y with fmt := some w }) 0 []) ∧
      (mpValid w = true → s.Gives (.mprog a) ((s.started (.mprog a)).modCore core fun y => { y with prog := some w }) 0 []) ∧
      (d.toNat < s.accTiles core → s.tileHeld core k d.toNat = false → s.Gives z (put (s.started z) [] false) l.toNat [.tile d.toNat [] false]) ∧
      (∀ f, d.toNat < s.accTiles core → s.tileHeld core k d.toNat = false → x.fmt = some f → (∀ r, r < 32 → s.InScratch core (row r) (32 * accBytes f)) →
        (∀ r, r < 32 → winTag (row r + 32 * accBytes f - 1) = winTag (row r)) →
        ∃ m : Mem, s.Gives ld (put (s.started ld) m true) l.toNat [.tile d.toNat m true] ∧
          ∀ i j, i < 32 → j < 32 → ∀ v, v < accBytes f →
            let byte_ := s.scratchByte core (row i + j * accBytes f + v)
            m.read ((32 * i + j) * accBytes f + v) = if v = 7 then 0 else if v = 6 then byte_ &&& 3 else byte_)) ∧
    (∀ (i : Instr) (la : Nat), (i, la) ∈ [(.mfmt a, 0), (.mprog a, 0), (z, l.toNat), (ld, l.toNat)] →
      (x.queue ≠ [] ∨ (i = z ∨ i = ld) ∧ s.tileHeld core k d.toNat = true) → (i = z ∨ i = ld → d.toNat < s.accTiles core) → (i = ld → x.fmt.isSome = true) →
      (x.queue.length < 16 → ∃ s2 : State, s.Begins i s2 la { how := .running, deadline := none, aux := queued x.cmdNo } ∧
        (s2.core core).queue = x.queue ++ [place] ∧ s2.mem = s.mem) ∧
      (16 ≤ x.queue.length → s.Begins i (s.started i) la { how := .running, deadline := none, aux := [], stops := true })) ∧
    ((s.ctx k).Enabled →
      (x.queue = [] → fwValid w = false → s.Traps (.mfmt a) 0x01 (g.rs a)) ∧ (x.queue = [] → mpValid w = false → s.Traps (.mprog a) 0x01 (g.rs a)) ∧
      (s.accTiles core ≤ d.toNat → s.Traps z 0x0C (BitVec.ofNat 64 d.toNat) ∧ s.Traps ld 0x0C (BitVec.ofNat 64 d.toNat)) ∧
      (d.toNat < s.accTiles core → x.fmt = none → s.Traps ld 0x12 (BitVec.ofNat 64 ld.word)))

/-- R393, R395: `MMA`, `MRUN` and `MSTC` with everything that they need enter their core's queue, with what they name as it stands: tile, slots and their
fills, addresses, masks and format. Without the lease they trap with 0x0A, without a format word with 0x12. -/
def Parts.QueuedInstructions : Prop :=
  ∀ (s : State) (l : La) (d a b c : Reg) (raw : BitVec 1) (w : Nat), s.Ready →
    let k := s.cur
    let core := coreOf k
    let x := s.core core
    let g := (s.ctx k).regs
    let sa := (g.rs a).toNat
    let sb := (g.rs b).toNat
    let waits := ({ how := .running, deadline := none, aux := queued x.cmdNo } : Wait)
    let tileOk := d.toNat < s.accTiles core
    let m := Instr.mma l d a b
    let r := Instr.mrun l d a b
    let st := Instr.mstc d a b c raw
    let enters := fun (i : Instr) (la : Nat) (q : Cmd) => ∃ s2 : State, s.Begins i s2 la waits ∧ (s2.core core).queue = x.queue ++ [q] ∧
      (s2.core core).cmdNo = x.cmdNo + 1 ∧ s2.mem = s.mem ∧ s2.ctxs = (s.started i).ctxs
    (∀ fa fb, tileOk → x.fmt = some w → sa < 64 → sb < 64 → x.lease.state ≠ .none → x.queue.length < 16 →
      s.mayRead core sa = true → s.mayRead core sb = true → (s.slot core sa).state ∈ [.filling, .ready] → (s.slot core sb).state ∈ [.filling, .ready] →
      (s.slot core sa).fills.getLast? = some fa → (s.slot core sb).fills.getLast? = some fb → fa.roleB = false → fb.roleB = true → fa.fmt = fwA w →
      fb.fmt = fwB w → fb.kq = fa.kq →
      let q := fun (op : CmdOp) => { newCmd op x.cmdNo k d.toNat w (s.die (dieOf core)).cyc with slotA := sa, fillA := fa.no, slotB := sb, fillB := fb.no }
      enters m l.toNat (q .mma) ∧ (fwMsel w = true → x.prog.isSome = true → enters r l.toNat (q .mrun))) ∧
    (tileOk → x.fmt = some w → x.lease.state ≠ .none → x.queue.length < 16 →
      enters st (2 ^ 32) { newCmd .mstc x.cmdNo k d.toNat w (s.die (dieOf core)).cyc with
        base := sa, stride := sb, masks := if c = 0 then 2 ^ 64 - 1 else (g.rs c).toNat, raw := decide (raw = 1) }) ∧
    ((s.ctx k).Enabled → ∀ i : Instr, i = m ∨ i = r ∨ i = st →
      (s.accTiles core ≤ d.toNat → s.Traps i 0x0C (BitVec.ofNat 64 d.toNat)) ∧ (tileOk → x.fmt = none → s.Traps i 0x12 (BitVec.ofNat 64 i.word)) ∧
      (tileOk → x.fmt = some w → sa < 64 → sb < 64 → (i = r → fwMsel w = true ∧ x.prog.isSome = true) → x.lease.state = .none →
        s.Traps i 0x0A (BitVec.ofNat 64 i.word)))

/-- R370, R378, R391 to R395, R398: the commands of the matrix array.
That an `MSTC` stays outstanding until its stores end is stated with places beyond the skip mask (log 44). -/
def Obligations.MatrixCommands : Prop :=
  Parts.TileInstructions ∧ Parts.QueuedInstructions

/-! ### Sparse regions -/

/-- R407, R418 to R425: with a valid handle and a coordinate inside the extents `SLD`, `SST` and `SADD` complete by one event of the coordinate's shard: `SLD`
reads the current value, `SST` and `SADD` write, and the flags of an add go to the context. A handle that is none and a coordinate outside trap
with 0x01. -/
def Parts.SparseAccesses : Prop :=
  ∀ (s : State) (l : La) (d a b : Reg), s.Ready →
    let k := s.cur
    let g := (s.ctx k).regs
    let h := (g.rs a).toNat
    let ld := Instr.sld l d a b
    let st := Instr.sst d a b
    let ad := Instr.sadd d a b
    let slot := s.slotOf (coreOf k)
    (∀ (i : Instr) (n : Nat) (r : Region) (s2 : State), i = ld ∨ i = st ∨ i = ad → (s.started i).RegionAt k h n r s2 →
      let rank := spRank r.desc
      let f := spVfmt r.desc
      let hi := if 3 ≤ rank then (g.rs (b + 1)).toNat else 0
      let key := keyOf4 (g.rs b).toNat ((g.rs b).toNat / 2 ^ 32) hi (hi / 2 ^ 32)
      let x := s2.shardAt k n r (shardOf r.desc key)
      let v := (g.rs d).toNat % 2 ^ valBits f
      (rank < 3 ∨ b.toNat % 2 = 0 ∧ b ≠ 0) →
      (r.admits key = true → s2.ShardFree x →
        (∀ path leaf y s3, i = ld → x.run s2 (x.find key) = .ok ((path, leaf, y), s3) →
          let cur := (x.acc s3 key).getD ((y.value key).getD 0)
          let val := if valZero f cur then 0 else cur
          s.Gives i (x.stamp s3 k false) l.toNat [.s d (if f = 0 then BitVec.ofInt 64 (sext val 32) else BitVec.ofNat 64 val)]) ∧
        (∀ n s3, i = st → x.write k key s2 (do pure (← x.sst key v, 0)) = .ok (n, s3) → s.Gives i s3 0 []) ∧
        (∀ n s3, i = ad → x.write k key s2 (x.sadd key v) = .ok (n, s3) → s.Gives i (s3.flag k n) 0 [])) ∧
      (r.admits key = false → s2 = s.started i → (s.ctx k).Enabled → s.Traps i 0x01 (g.rs b))) ∧
    (s.regionOf slot h = none → (s.ctx k).Enabled → s.Traps ld 0x01 (g.rs a) ∧ s.Traps st 0x01 (g.rs a) ∧ s.Traps ad 0x01 (g.rs a))

/-- R423: what the write of one event keeps: an `SADD` of a key that is in the tree leaves its sum to the accumulator; one of a key that is not there inserts
a sum that is not zero and does nothing with one that is; an `SST` of a key with an accumulator entry leaves its value to it. -/
def Parts.SparseWritesKeep : Prop :=
  ∀ (x : Shard) (key v : Nat) (s : State) (path : List (Nat × Nat)) (n : Nat) (y : Node) (ev : Ev),
    x.find key { s := s, nodes := [], dirty := [], fresh := [], hdr := none } = .ok ((path, n, y), ev) →
    let start := ({ s := s, nodes := [], dirty := [], fresh := [], hdr := none } : Ev)
    let f := spVfmt x.region.desc
    let sum := valAdd f (x.current ev.s y key) v
    ((y.value key).isSome = true → x.sadd key v start = .ok ((some sum.1, sum.2), ev)) ∧
    (y.value key = none → valZero f sum.1 = true → x.sadd key v start = .ok ((none, sum.2), ev)) ∧
    (y.value key = none → valZero f sum.1 = false → ∀ ev', x.insert path n key sum.1 ev = .ok ((), ev') →
      x.sadd key v start = .ok ((some sum.1, sum.2), ev')) ∧
    ((x.acc s key).isSome = true → x.sst key v start = .ok (some v, start)) ∧
    (x.acc s key = none → y.value key = none → valZero f v = true → x.sst key v start = .ok (none, ev))

/-- R411: a leaf or an inner node of the shape of R413 is read back from the 256 bytes that it is written as. -/
def Parts.NodesReadBack : Prop :=
  ∀ (y : Node), y.level < 2 ^ 8 → y.next < 2 ^ 24 → y.version < 2 ^ 32 → y.count < 2 ^ 32 →
    (y.kind = 1 ∧ y.ents.length ≤ 10 ∧ (∀ e ∈ y.ents, e.1 < 2 ^ 128 ∧ e.2 < 2 ^ 64) ∧ y.seps = [] ∧ y.kids = [] ∨
     y.kind = 2 ∧ y.ents = [] ∧ y.seps.length ≤ 11 ∧ y.kids.length = y.seps.length + 1 ∧ (∀ z ∈ y.seps, z < 2 ^ 128) ∧ ∀ c ∈ y.kids, c < 2 ^ 24) →
    Node.decode y.encode = y ∧ y.encode < 2 ^ 2048

/-- R405, R415, R416, R434: `SDECL` of a good descriptor writes its pool header and empty roots and takes the lowest free entry at its next
generation, the stamps of its shards beginning at their homes' times (log 98); with no entry free it answers 0; `SDECL FREE` gives the nodes back and ends the handle; `SSTAT` answers LIVE nodes and present coordinates. -/
def Parts.RegionInstructions : Prop :=
  ∀ (s : State) (l : La) (d a b : Reg), s.Ready →
    let k := s.cur
    let core := coreOf k
    let g := (s.ctx k).regs
    let at_ := (g.rs a).toNat
    let slot := s.slotOf core
    let dc := Instr.sdecl l d a
    let fr := Instr.sdeclFree a
    let st := Instr.sstat l d a b
    (∀ (desc : Nat) (s2 : State), at_ % 64 = 0 → winTag at_ ∈ [0, 0xF0, 0xF1] → (s.started dc).plainRead (s.who k) .load at_ 64 = .ok desc s2 →
      badRegion desc = false →
      let w := ({ k := k, core := core, asid := (s.ctx k).asid, sup := true, unit := true } : Who)
      (∀ j, s2.freeRegion slot = some j → s2.Flushed k → s2.declStop w (spPool desc) (List.range (spShards desc + 1)) = none →
        let gen := ((s2.region (slot * 64 + j)).gen + 1) % 256
        let n := slot * 64 + j
        let s3 := s2.declNodes w (s2.ctx k).ltime (spPool desc) (spShards desc)
        let x : Region := { gen := gen, declared := true, desc := desc, at_ := at_, asid := (s.ctx k).asid, quota := spQuota desc, ext := spExt desc,
                            stale := false, stamps := [] }
        ∃ r : Word, r.toNat = 2 ^ 63 + gen * 2 ^ 8 + j ∧
          s.Gives dc (s3.setRegion n { x with stamps := (List.range (spShards desc)).map fun i => (i, s3.shardTime k n x i) }) l.toNat [.s d r]) ∧
      (s2.freeRegion slot = none → s.Gives dc s2 l.toNat [.s d 0])) ∧
    (∀ (n : Nat) (r : Region) (s2 : State), s.regionOf slot at_ = some (n, r) → s.regionHeld k n r = false → s.Flushed k →
      let x := (s.started fr).shardAt k n r 0
      (s.started fr).ShardFree x → x.run ((s.started fr).discardAcc n r.gen) x.freeAll = .ok ((), s2) →
      s.Gives fr (s2.setRegion n { r with declared := false }) 0 []) ∧
    (∀ (n : Nat) (r : Region) (s2 : State), (s.started st).RegionAt k at_ n r s2 →
      let i := (g.rs b).toNat
      (∀ nodes coords s3, i < spShards r.desc → i ≠ 0xFFFF → s2.ShardFree (s2.shardAt k n r i) →
        (s2.shardAt k n r i).run s2 ((s2.shardAt k n r i).stat true) = .ok ((nodes, coords), s3) →
        s.Gives st ((s2.shardAt k n r i).stamp s3 k false) l.toNat [.s d (BitVec.ofNat 64 (nodes * 2 ^ 40 + coords))]) ∧
      (∀ hdr s3 coords s4, i = 0xFFFF → s2.ShardFree (s2.shardAt k n r 0) → (s2.shardAt k n r 0).run s2 (s2.shardAt k n r 0).header = .ok (hdr, s3) →
        State.counts k n r (List.range (spShards r.desc)) s3 = some (coords, s4) →
        s.Gives st s4 l.toNat [.s d (BitVec.ofNat 64 (hdr.1 * 2 ^ 40 + coords))]) ∧
      (spShards r.desc ≤ i → i ≠ 0xFFFF → s2 = s.started st → (s.ctx k).Enabled → s.Traps st 0x01 (g.rs b))) ∧
    (s.regionOf slot at_ = none → (s.ctx k).Enabled → s.Traps fr 0x01 (g.rs a) ∧ s.Traps st 0x01 (g.rs a))

/-- R428 to R433: `SITER` opens the lowest free record with its box; `SNEXT` answers the smallest 16 keys of the box above the last one with their values,
and END, and nothing from a record at its end or of a released region; `SCLOSE` frees the record. A word that names no open record traps with 0x01. -/
def Parts.CursorInstructions : Prop :=
  ∀ (s : State) (l : La) (d a b c : Reg), s.Ready →
    let k := s.cur
    let core := coreOf k
    let g := (s.ctx k).regs
    let h := (g.rs a).toNat
    let va := (g.rs b).toNat
    let it := Instr.siter l d a b
    let nx := Instr.snext l d a b c
    let cl := Instr.sclose a
    (∀ (n : Nat) (r : Region) (s2 : State) (x : Nat) (s3 : State), (s.started it).RegionAt k h n r s2 → va % 8 = 0 →
      s2.plainRead (s2.who k) .load va 32 = .ok x s3 →
      let lo := keyImage (x % 2 ^ 128)
      let hi := keyImage (x / 2 ^ 128)
      r.boxOk lo hi = true →
      (∀ j, j < 16 → (s3.cursor core j).opened = false → (∀ i, i < j → (s3.cursor core i).opened = true) →
        let gen := ((s3.cursor core j).gen + 1) % 256
        s.Gives it (s3.setCursor core j
          { opened := true, handle := h, last := false, ended := false, dead := false, gen := gen, lo := lo, hi := hi, key := 0 }) l.toNat
          [.s d (BitVec.ofNat 64 (2 ^ 63 + gen * 2 ^ 8 + j))]) ∧
      ((∀ j, j < 16 → (s3.cursor core j).opened = true) → s.Gives it s3 l.toNat [.s d 0])) ∧
    (∀ (j : Nat) (x : Cursor), s.cursorOf core h = some (j, x) →
      let slot := s.slotOf core
      let desc := (s.region (slot * 64 + x.handle % 64)).desc
      let rank := spRank desc
      let wide := spVfmt desc = 2
      let fits := b.toNat + rank ≤ 32 ∧ c.toNat + (if wide then 2 else 1) ≤ 32 ∧
        (b.toNat + rank ≤ c.toNat ∨ c.toNat + (if wide then 2 else 1) ≤ b.toNat)
      s.Gives cl ((s.started cl).setCursor core j { x with opened := false }) 0 [] ∧
      (¬fits → (s.ctx k).Enabled → s.Traps nx 0x01 (BitVec.ofNat 64 nx.word)) ∧
      (fits → s.regionOf slot x.handle = none → s.Gives nx ((s.started nx).setCursor core j { x with dead := true, ended := true }) l.toNat
        [.s d (BitVec.ofNat 64 (2 ^ 63 + 2 ^ 62))]) ∧
      (fits → s.regionOf slot x.handle ≠ none → x.ended = true → x.dead = false → s.Sets nx l.toNat [.s d (BitVec.ofNat 64 (2 ^ 63))]) ∧
      (∀ n r s2 got more s3, fits → x.ended = false → x.dead = false → (s.started nx).RegionAt k x.handle n r s2 →
        State.batches k n r x (shardsOf r.desc x.lo x.hi) s2 = some (got, more, s3) →
        ∃ (keys : List (Nat × Nat)) (ws : List Wr) (x' : Cursor), s.Gives nx (s3.setCursor core j x') l.toNat
            (.s d (BitVec.ofNat 64 (keys.length + (if x'.ended then 2 ^ 63 else 0))) :: ws) ∧
          keys = (sortEnts got).take 16 ∧ x'.ended = (decide (got.length ≤ 16) && !more) ∧
          (∀ y, keys.getLast? = some y → x'.last = true ∧ x'.key = y.1) ∧ (keys = [] → x'.key = x.key ∧ x'.last = x.last) ∧
          x'.opened = true ∧ x'.handle = x.handle ∧ x'.lo = x.lo ∧ x'.hi = x.hi ∧ x'.gen = x.gen ∧
          ∀ o : Regs, o = g.after ws →
            (∀ i m, i < spRank r.desc → m < 16 → elem 32 (o.rv (b + BitVec.ofNat 5 i)) m =
              match keys[m]? with
              | some y => coord y.1 i
              | none => elem 32 (g.rv (b + BitVec.ofNat 5 i)) m) ∧
            (∀ m, m < 16 → if spVfmt r.desc = 2
              then elem 64 (o.rv (c + BitVec.ofNat 5 (m / 8))) (m % 8) =
                match keys[m]? with
                | some y => y.2 % 2 ^ 64
                | none => elem 64 (g.rv (c + BitVec.ofNat 5 (m / 8))) (m % 8)
              else elem 32 (o.rv c) m =
                match keys[m]? with
                | some y => y.2 % 2 ^ 32
                | none => elem 32 (g.rv c) m))) ∧
    (s.cursorOf core h = none → (s.ctx k).Enabled → s.Traps cl 0x01 (g.rs a) ∧ s.Traps nx 0x01 (g.rs a))

/-- R405, R411, R415 to R425, R428 to R434: the SPARSE instructions.
That an operation on a free shard is performed at its issue is the model's choice (log 49). -/
def Obligations.SparseInstructions : Prop :=
  Parts.NodesReadBack ∧ Parts.SparseAccesses ∧ Parts.SparseWritesKeep ∧ Parts.RegionInstructions ∧ Parts.CursorInstructions

/-! ### Grids -/

/-- R441: the cells of a grid belong to its parts along each axis without gap or overlap: the owner of a coordinate has it, and no other part has. -/
def Parts.PartsCoverTheGrid : Prop :=
  ∀ (d a x : Nat), a < 3 → 1 ≤ gdP d a → gdP d a ≤ gdE d a → x < gdE d a →
    ∃ i y, ownerOn d a x = .at i y ∧ i < gdP d a ∧ origin d a i + y = x ∧ y < cellsOn d a i ∧
      ∀ j, j < gdP d a → origin d a j ≤ x → x < origin d a j + cellsOn d a j → j = i

/-- R442: a cell of a part's shell that lies in the grid is a ghost of the part that owns it, and one beyond a periodic face of the part at the other end. -/
def Parts.ShellsNameTheirOwners : Prop :=
  ∀ (d a i : Nat) (x : Int), a < 3 → 1 ≤ gdP d a → gdP d a ≤ gdE d a → i < gdP d a →
    let n : Int := cellsOn d a i
    let g : Int := origin d a i + x
    let e : Int := gdE d a
    (0 ≤ x → x < n → axisCell d a i x = .inside x.toNat) ∧
    (-(gdW d (2 * a) : Int) ≤ x → x < n + gdW d (2 * a + 1) → ¬(0 ≤ x ∧ x < n) →
      (0 ≤ g → g < e → axisCell d a i x = ownerOn d a g.toNat) ∧
      (g < 0 → -e ≤ g → (gdBnd d (2 * a) = 1 → axisCell d a i x = ownerOn d a (g + e).toNat) ∧ (gdBnd d (2 * a) = 2 → axisCell d a i x = .const) ∧
        (gdBnd d (2 * a) = 3 → axisCell d a i x = ownerOn d a (-g).toNat) ∧ (gdBnd d (2 * a) = 4 → axisCell d a i x = ownerOn d a 0)) ∧
      (e ≤ g → g < 2 * e → (gdBnd d (2 * a + 1) = 1 → axisCell d a i x = ownerOn d a (g - e).toNat) ∧
        (gdBnd d (2 * a + 1) = 2 → axisCell d a i x = .const) ∧ (gdBnd d (2 * a + 1) = 3 → axisCell d a i x = ownerOn d a (2 * (e - 1) - g).toNat) ∧
        (gdBnd d (2 * a + 1) = 4 → axisCell d a i x = ownerOn d a (gdE d a - 1)))) ∧
    (x < -(gdW d (2 * a) : Int) ∨ n + gdW d (2 * a + 1) ≤ x → axisCell d a i x = .out)

/-- R441, R442: which cells a part has, and whose its ghosts are. -/
def Obligations.GridCells : Prop :=
  Parts.PartsCoverTheGrid ∧ Parts.ShellsNameTheirOwners

/-- R448 to R453: `LDG` answers an interior cell of the front at the part's step, of the back at its tag, a ghost cell of a slot with the
step's stamp and the constant of a cell beyond a CONST face; a cell whose step has passed faults with 0x08 and one whose step has not come with 0x07, after its
wait where the grid waits. `STG` writes a cell of the back. -/
def Parts.GridAccesses : Prop :=
  ∀ (s : State) (l : La) (d a b : Reg) (n : Nat) (g : Grid) (s2 : State) (pa : Nat) (st : Bool), s.Ready → b.toNat % 2 = 0 → b ≠ 0 →
    let k := s.cur
    let z := (s.ctx k).regs
    let ld := Instr.ldg l d a b
    let w := z.rs (b + 1)
    let i := if st then Instr.stg d a b else ld
    let p := wordPart w.toNat
    let t := w.toNat % 2 ^ 32
    (s.started i).GridAt k (z.rs a).toNat n g s2 → (z.rs b).toNat / 2 ^ (21 * gdRank g.desc) = 0 → s2.Owns k g w.toNat →
    s2.PartOpen k n g p st pa →
    let cell := cellAt g.desc p (wordCoord (gdRank g.desc) (z.rs b).toNat)
    let x := s2.partAt g.desc pa
    let value := fun (v : Nat) => cellValue (gdType g.desc) v
    let until_ := if g.timeout = 2 ^ 64 - 1 then none else some (s2.now (dieOf (coreOf k)) + g.timeout * 65536)
    (st = false →
      (∀ j, cell = .inside j →
        (t = x.m → s.Gives ld s2 l.toNat [.s d (value (Tab.get 0 x.front j))]) ∧
        (t ≠ x.m → x.backTag = some t → s.Gives ld s2 l.toNat [.s d (value (Tab.get 0 x.back j))]) ∧
        (t ≠ x.m → x.backTag ≠ some t → s2 = s.started ld → s.Faults ld l.toNat (if newer x.m t then 0x08 else 0x07) w)) ∧
      (∀ q j, cell = .ghost q j →
        let h := (x.seg q).slot (t % gdDepth g.desc)
        let late := ∃ u, (x.seg q).latest = some u ∧ newer u t = true
        (h.stamp = some t → s.Gives ld s2 l.toNat [.s d (value (Tab.get 0 h.cells j))]) ∧
        (h.stamp ≠ some t → late → s2 = s.started ld → s.Faults ld l.toNat 0x08 w) ∧
        (h.stamp ≠ some t → ¬late → (g.fast = true ∨ g.timeout = 0) → s2 = s.started ld → s.Faults ld l.toNat 0x07 w) ∧
        (h.stamp ≠ some t → ¬late → g.fast = false → 0 < g.timeout → g.timeout < 2 ^ 47 ∨ g.timeout = 2 ^ 64 - 1 →
          s.Begins ld s2 l.toNat { how := .running, deadline := until_, aux := [1] })) ∧
      (cell = .const → s.Gives ld s2 l.toNat [.s d (value g.const)])) ∧
    (st = true → ∀ j, cell = .inside j →
      (newer t x.m = true → (∀ u, x.backTag = some u → u = t) →
        s.Gives i (s2.setPart pa { x with backTag := some t, back := x.back.put j ((z.rs d).toNat % 2 ^ (gdType g.desc).width) }) 0 []) ∧
      ((newer t x.m = false ∨ ∃ u, x.backTag = some u ∧ u ≠ t) → s2 = s.started i → s.Faults i 0 0x08 w))

/-- R448, R449: the checks of `LDG` and `STG` before any part is met: a handle that is none, an odd or zero register pair, coordinates beyond the rank, and a
word that names no part trap with 0x01; a part of another die traps with 0x10. -/
def Parts.GridAccessChecks : Prop :=
  ∀ (s : State) (l : La) (d a b : Reg), s.Ready → (s.ctx s.cur).Enabled →
    let k := s.cur
    let z := (s.ctx k).regs
    let w := z.rs (b + 1)
    ∀ i : Instr, i = .ldg l d a b ∨ i = .stg d a b →
      (s.gridOf (s.slotOf (coreOf k)) (z.rs a).toNat = none → s.Traps i 0x01 (z.rs a)) ∧
      ∀ n g, (s.started i).GridAt k (z.rs a).toNat n g (s.started i) →
        let pair := b.toNat % 2 = 0 ∧ b ≠ 0
        let small := (z.rs b).toNat / 2 ^ (21 * gdRank g.desc) = 0
        (¬pair → s.Traps i 0x01 (BitVec.ofNat 64 i.word)) ∧ (pair → ¬small → s.Traps i 0x01 (z.rs b)) ∧
        (pair → small → badPart g w.toNat = true → s.Traps i 0x01 w) ∧
        (pair → small → badPart g w.toNat = false → (g.pkg (wordPart w.toNat) ≠ s.pkg.number ∨ g.die (wordPart w.toNat) ≠ dieOf (coreOf k)) →
          s.Traps i 0x10 w)

/-- R454, R457, R458: `GSTEP` commits its part, whose back becomes its front at the new step, and sends a push to each part that it feeds; with none it completes
with the step, and otherwise when every push has been stamped or has failed. `GWAIT` answers 1 where every segment has the step, 2 where one has passed it,
0 where no time is given, and waits otherwise; `GSTAT` reads the part. -/
def Parts.GridSteps : Prop :=
  ∀ (s : State) (l : La) (d a b : Reg) (n : Nat) (g : Grid) (s2 : State) (pa : Nat), s.Ready →
    let k := s.cur
    let z := (s.ctx k).regs
    let w := (z.rs b).toNat
    let p := wordPart w
    let t := w % 2 ^ 32
    let gs := Instr.gstep l d a b
    let gw := Instr.gwait l d a b
    let gt := Instr.gstat l d a b
    let x := s2.partAt g.desc pa
    let segs := (segmentsOf g.desc p).map x.seg
    let slots := segs.map fun y => y.slot (t % gdDepth g.desc)
    let passed := segs.any fun y => (y.latest.map fun u => newer u t).getD false && (y.slot (t % gdDepth g.desc)).stamp != some t
    ((s.started gs).GridAt k (z.rs a).toNat n g s2 → s2.Owns k g w → 1 ≤ w % 256 → w % 256 ≤ 8 → w / 2 ^ 8 % 2 ^ 24 = 0 → s2.Flushed k →
      s2.PartOpen k n g p true pa →
      let m := (x.m + w % 256) % 2 ^ 32
      let s3 := s2.commitPart k n g p pa m
      (∀ u, x.backTag = some u → u = m) →
        s3.partAt g.desc pa = { x with m := m, front := x.back, back := x.front, backTag := none } ∧
        s3.pushes.map (fun y => (y.src, y.dstPart, y.step)) =
          s2.pushes.map (fun y => (y.src, y.dstPart, y.step)) ++ (feedsOf g.desc p).map (fun q => (pa, q, m)) ∧
        (s2.pushesOf k pa m = [] → feedsOf g.desc p = [] → s.Gives gs s3 l.toNat [.s d (BitVec.ofNat 64 m)]) ∧
        (feedsOf g.desc p ≠ [] → s.Begins gs s3 l.toNat { how := .parked, deadline := none, aux := stepWaits pa m })) ∧
    (∀ (u : State) (v : Env) (m : Nat), v.k = k → v.wait = some { how := .parked, deadline := none, aux := stepWaits pa m } →
      (∀ y ∈ u.pushesOf k pa m, y.error.isSome = true) → ∃ (c : Nat) (u' : State),
        tryGstep d a b v u = .done [.s d (BitVec.ofNat 64 c)] u' ∧ u' = { u with pushes := u'.pushes } ∧ u'.pushesOf k pa m = [] ∧
        (u.pushesOf k pa m = [] → c = m)) ∧
    ((s.started gw).GridAt k (z.rs a).toNat n g s2 → s2.Owns k g w → s2.PartOpen k n g p false pa →
      ((∀ h ∈ slots, h.stamp = some t) → s.Gives gw (slots.foldl (fun s h => s.raisePts k h.pts) (s2.acquire (coreOf k))) l.toNat [.s d 1]) ∧
      (passed = true → s.Gives gw s2 l.toNat [.s d 2]) ∧
      ((∃ h ∈ slots, h.stamp ≠ some t) → passed = false →
        (g.timeout = 0 → s.Gives gw s2 l.toNat [.s d 0]) ∧
        (0 < g.timeout → g.timeout < 2 ^ 47 ∨ g.timeout = 2 ^ 64 - 1 → s.Begins gw s2 l.toNat
          { how := .running, aux := [1]
            deadline := if g.timeout = 2 ^ 64 - 1 then none else some (s2.now (dieOf (coreOf k)) + g.timeout * 65536) }))) ∧
    ((s.started gt).GridAt k (z.rs a).toNat n g s2 → badPart g w = false → g.pkg p = s2.pkg.number → w / 4 % 2 ^ 30 = 0 → w % 4 ≠ 3 →
      s2.PartOpen k n g p false pa → x.m < 2 ^ 32 → ∃ r : Word, s.Gives gt s2 l.toNat [.s d r] ∧
        (w % 4 = 0 → r.toNat % 2 ^ 32 = x.m ∧ r.getLsbD 32 = x.backTag.isSome ∧
          r.getLsbD 33 = s2.pushes.any fun y => y.src == pa && y.error.isNone) ∧
        (w % 4 = 1 → gdStride g.desc < 2 ^ 64 → r.toNat = gdStride g.desc) ∧
        (w % 4 = 2 → segs = [] → r.toNat = 2 ^ 62) ∧
        (w % 4 = 2 → segs ≠ [] → (∀ y ∈ segs, ∀ u, y.latest = some u → u < 2 ^ 32) → r.getLsbD 63 = segs.any fun y => y.latest.isNone))

/-- R460, R462: `GDECL` of a good descriptor with good owners, whose blocks of this package are mapped and owned as they should be, gives those blocks their
first state and takes the lowest free entry at its next generation; `GDECL FREE` abandons the pushes of a grid that nothing uses and ends its handle. -/
def Parts.GridDeclarations : Prop :=
  ∀ (s : State) (l : La) (d a : Reg), s.Ready →
    let k := s.cur
    let core := coreOf k
    let at_ := ((s.ctx k).regs.rs a).toNat
    let slot := s.slotOf core
    let i := Instr.gdecl l d a
    let f := Instr.gdeclFree a
    (∀ (desc : Nat) (s2 : State) (table : Nat) (s3 : State), at_ % 64 = 0 → winTag at_ ∈ [0, 0xF0, 0xF1] →
      (s.started i).plainRead (s.who k) .load at_ 64 = .ok desc s2 → partsOk desc = true →
      s2.plainRead (s2.who k) .load (at_ + 64) (2 * gdCount desc) = .ok table s3 → badGrid desc = false →
      let owners := (List.range (gdCount desc)).map fun p => table / 2 ^ (16 * p) % 2 ^ 16
      let w := haloWho k (dieOf core) (s.ctx k).asid
      let mine := (List.range (gdCount desc)).filter fun p => owners.getD p 0 / 256 == s.pkg.number
      (∀ o ∈ owners, o / 8 % 2 ^ 5 = 0) → (∀ p ∈ mine, (s3.die (owners.getD p 0 % 8)).power ∈ [.d0, .d1]) →
      s3.unmapped w (blockEnds desc mine) = none → (∀ e ∈ blockEnds desc mine, s3.misplaced w (fun p => owners.getD p 0) e = false) →
      (∀ j, s3.freeGrid slot = some j → s3.Flushed k → s3.initStop w desc mine = none →
        let gen := ((s3.grid (slot * 32 + j)).gen + 1) % 256
        ∃ s4 : State, s.Gives i s4 l.toNat [.s d (BitVec.ofNat 64 (2 ^ 63 + gen * 2 ^ 8 + j))] ∧ s4.mem = s3.mem ∧
          s4.grid (slot * 32 + j) = { gen := gen, declared := true, desc := desc, owners := owners, at_ := at_, asid := (s.ctx k).asid, fast := gdFast desc,
                                      timeout := gdTimeout desc, const := gdConst desc, stale := false } ∧
          ∀ p ∈ mine, s4.partAt desc (s3.pieceAt w .engWrite (blockVA desc p) 64).1 = Part.reset desc) ∧
      (s3.freeGrid slot = none → s.Gives i s3 l.toNat [.s d 0])) ∧
    (∀ n g, s.gridOf slot at_ = some (n, g) → (s.started f).gridBusy slot at_ = false → s.Flushed k →
      s.Gives f (((s.started f).abandonPushes n).setGrid n { g with declared := false }) 0 []) ∧
    (s.gridOf slot at_ = none → (s.ctx k).Enabled → s.Traps f 0x01 (BitVec.ofNat 64 at_))

/-- R448 to R454, R457, R458, R460, R462: the GRID instructions.
That an operation on a free part is performed at its issue (log 49), and that cells are kept beside memory (log 31), are the model's
choices. -/
def Obligations.GridInstructions : Prop :=
  Parts.GridAccesses ∧ Parts.GridAccessChecks ∧ Parts.GridSteps ∧ Parts.GridDeclarations

/-! ### Completion, form by form -/

/-- No instruction and no event stops the machine: `exec` answers a next state for every form in every state, and so does every step that the
schedule gives to a context of the package. -/
def Obligations.NothingStopsTheMachine : Prop :=
  (∀ (i : Instr) (s : State), ∃ t, exec i s = .next t) ∧ ∀ s : State, s.Schedulable → (∀ e ∈ s.ctxs, e.1 < contextCount) → ∃ t, step s = .next t

/-- R50, R143, R144: each scalar load and store, full and compact, completes where its bytes lie in scratch: the load with the bytes, sign-extended
where the form says so, under its lookahead count; the store with the register's low bytes in their place. -/
def Parts.ScalarAccessesComplete : Prop :=
  ∀ (s : State) (l : La) (d a r : Reg) (p : BitVec 8) (x y : BitVec 3) (q : BitVec 5) (u : BitVec 6), s.Ready →
    let c := coreOf s.cur
    let g := (s.ctx s.cur).regs
    let at_ := fun (n : Nat) => (g.rs a + BitVec.ofInt 64 (p.toInt * n)).toNat
    let near := fun (n : Nat) => (g.rs (regN y) + BitVec.ofNat 64 (q.toNat * n)).toNat
    let stack := (g.rs 30 + BitVec.ofNat 64 (u.toNat * 8)).toNat
    let loads := fun (i : Instr) (la : Nat) (d : Reg) (n : Nat) (signed : Bool) (ea : Nat) => s.InScratch c ea n → ∃ v : Nat, v < 256 ^ n ∧
      (∀ j, j < n → BitVec.ofNat 8 (v / 256 ^ j) = s.scratchByte c (ea + j)) ∧
      s.Sets i la [.s d (if signed then BitVec.ofInt 64 (sext v (8 * n)) else BitVec.ofNat 64 v)]
    let stores := fun (i : Instr) (r : Reg) (n ea : Nat) => s.InScratch c ea n → ∃ s2, s.Gives i s2 0 [] ∧ (s.started i).ButScratch s2 ∧
      ∀ j, j < n → s2.scratchByte c (ea + j) = BitVec.ofNat 8 ((g.rs r).toNat / 256 ^ j)
    loads (.ldB l d a p) l.toNat d 1 true (at_ 1) ∧ loads (.ldBu l d a p) l.toNat d 1 false (at_ 1) ∧
    loads (.ldH l d a p) l.toNat d 2 true (at_ 2) ∧ loads (.ldHu l d a p) l.toNat d 2 false (at_ 2) ∧
    loads (.ldW l d a p) l.toNat d 4 true (at_ 4) ∧ loads (.ldWu l d a p) l.toNat d 4 false (at_ 4) ∧
    loads (.ldD l d a p) l.toNat d 8 false (at_ 8) ∧ loads (.lddN x y q) 0 (regN x) 8 false (near 8) ∧
    loads (.ldwN x y q) 0 (regN x) 4 true (near 4) ∧ loads (.ldspN d u) 0 d 8 false stack ∧
    stores (.stB a r p) r 1 (at_ 1) ∧ stores (.stH a r p) r 2 (at_ 2) ∧ stores (.stW a r p) r 4 (at_ 4) ∧ stores (.stD a r p) r 8 (at_ 8) ∧
    stores (.stdN x y q) (regN x) 8 (near 8) ∧ stores (.stwN x y q) (regN x) 4 (near 4) ∧ stores (.stspN d u) d 8 stack

/-- R172, R194: each vector load, store, gather and scatter completes where its active elements lie in scratch: the load and the gather write vD,
elements masked off keeping their value; the store and the scatter write no register. -/
def Parts.VectorAccessesComplete : Prop :=
  ∀ (s : State) (l : La) (t : ElTy) (k : KReg) (d a b : Reg), s.Ready →
    let c := coreOf s.cur
    let n := t.width / 8
    let g := (s.ctx s.cur).regs
    let on := fun (j : Nat) => j < t.lanes ∧ (g.rk k).getLsbD j = true
    let along := fun (j : Nat) => (g.rs a + BitVec.ofNat 64 (j * n)).toNat
    let strided := fun (j : Nat) => (g.rs a + BitVec.ofNat 64 j * g.rs b).toNat
    let one := fun (_ : Nat) => (g.rs a).toNat
    let indexed := fun (j : Nat) => (g.rs a + BitVec.ofNat 64 (elem t.width (g.rv b) j * n)).toNat
    let loads := fun (i : Instr) (la : Nat) (at_ : Nat → Nat) => (∀ j, on j → s.InScratch c (at_ j) n) → ∃ x, s.Sets i la [.v d x] ∧
      ∀ j, j < t.lanes → ¬on j → elem t.width x j = elem t.width (g.rv d) j
    let stores := fun (i : Instr) (at_ : Nat → Nat) => (∀ j, on j → s.InScratch c (at_ j) n) → ∃ s2, s.Gives i s2 0 [] ∧ s2.mem = s.mem
    loads (.vld t k d a) 0 along ∧ loads (.vlds t k d a b) 0 strided ∧ loads (.vldb t k d a) 0 one ∧ loads (.vldi t k d a b) 0 indexed ∧
    loads (.vgather l t k d a b) l.toNat indexed ∧ stores (.vst t k d a) along ∧ stores (.vsts t k d a b) strided ∧
    stores (.vsti t k d a b) indexed ∧ stores (.vscatter t k d a b) indexed

/-- R50, R143, R144, R172, R194: every load and store completes in scratch. -/
def Obligations.AccessesComplete : Prop :=
  Parts.ScalarAccessesComplete ∧ Parts.VectorAccessesComplete

/-- R355, R502, R503: `TRAP`, `ERET` and `UIRET` complete: `TRAP` in its entry, at the vector of its mode, where that is enabled; the two returns at
their resume addresses, where there is something to return from. A `TRAP` that cannot be taken escalates (R499). -/
def Parts.TrapInstructionsComplete : Prop :=
  ∀ (s : State) (a : Reg), s.Ready →
    let k := s.cur
    let c := s.ctx k
    (c.Enabled → ∃ t, exec (.trap a) s = .next t ∧ (t.ctx k).pc = c.vec &&& ~~~1 ∧ (t.ctx k).cause = 0x8000000000000014 ∧ (t.ctx k).epc = (c.pc + 4) &&& ~~~1 ∧
      (t.ctx k).regs = c.regs ∧ t.mem = s.mem) ∧
    (¬c.Enabled → c.sup = false → ∃ s2 : State, exec (.trap a) s = .next (s2.failLaunch (s.slotOf (coreOf k)) 0x14) ∧ s2 = s.setCtx k (s2.ctx k)) ∧
    (c.cause.getLsbD 63 = true → ∃ t, exec .eret s = .next t ∧ (t.ctx k).pc = c.epc ∧ (t.ctx k).cause = c.cause &&& 0x7FFF8000FFFFFFFF ∧
      (t.ctx k).regs = c.regs ∧ t.mem = s.mem) ∧
    (c.uien.getLsbD 1 = true → ∃ t, exec .uiret s = .next t ∧ (t.ctx k).pc = c.uiepc ∧ (t.ctx k).uien = c.uien &&& ~~~2 ∧ (t.ctx k).regs = c.regs ∧ t.mem = s.mem)

/-- R205, R206, R216, R218, R222, R224, R225: the MSG instructions complete where their checks pass. `SEND` and `SENDM` need a good control word, a class that
the mode may send and a good destination, in a context whose writes have reached their homes and whose launch is not being saved; `HSET` a good
word, a class that the mode may set and an even address; `HCLR` a class that the mode may clear; `HOLD`, `RELS` and `HMASK` nothing; `MBXW` a class that
its context holds, and a message or a time of 0; `HRET` a handler. -/
def Parts.MessageInstructionsComplete : Prop :=
  ∀ (s : State) (d a b : Reg), s.Ready →
    let k := s.cur
    let c := coreOf k
    let g := (s.ctx k).regs
    let dst := (g.rs a).toNat
    let ctl := (g.rs b).toNat
    let user := !(s.ctx k).sup
    let word := (g.rs d).toNat
    let may := fun (cls : Nat) => user = false ∨ 3 < cls
    (s.Flushed k → (s.core c).saving = false → may (ctl % 64) →
      (ctlBad false ctl = false → s.badDst user dst = false → ∃ s2 : State, s.Gives (.send a b d) s2 0 [] ∧ s2.mem = s.mem) ∧
      (ctlBad true ctl = false → s.badMulti user dst = false → ∃ s2 : State, s.Gives (.sendm a b d) s2 0 [] ∧ s2.mem = s.mem)) ∧
    (word < 2 ^ 11 → word / 2 ^ 6 % 4 = 0 → may (word % 64) ∨ word % 64 = 0 → dst % 2 = 0 → ∃ s2 : State, s.Gives (.hset d a b) s2 0 [] ∧
      (s2.core c).handlers.find (word % 64) = some { pc := g.rs a, prio := word / 2 ^ 8 % 8, arg := g.rs b }) ∧
    (dst < 64 → may dst ∨ dst = 0 → ∃ s2 : State, s.Gives (.hclr a) s2 0 [] ∧ (s2.core c).handlers.find dst = none) ∧
    (∃ (s2 : State) (r : Word), s.Gives (.hold d a) s2 0 [.s d r] ∧ s2.mem = s.mem) ∧
    (∃ (s2 : State) (r : Word), s.Gives (.rels d a) s2 0 [.s d r] ∧ s2.mem = s.mem) ∧
    (∃ s2 : State, s.Gives (.hmask d a b) s2 0 [.s d (BitVec.ofNat 64 (s.core c).hmask)] ∧ s2.mem = s.mem) ∧
    (dst < 64 → (s.ctx k).hold.testBit dst = true →
      ((s.core c).recv.find? (fun m => m.cls == dst) = none → ctl = 0 → s.Sets (.mbxw d a b) 0 [.s d 0]) ∧
      ∀ m, (s.core c).recv.find? (fun m => m.cls == dst) = some m → ∃ s2 : State, s.Gives (.mbxw d a b) s2 0
        [.v 0 (BitVec.ofNat 512 (m.payload % 2 ^ (8 * m.len))), .s d (BitVec.ofNat 64 m.info)]) ∧
    (s.isHandler k = true → ∃ t, exec .hret s = .next t ∧ (t.ctx k).state = .free ∧ t.mem = s.mem)

/-- R205, R216 to R218, R222, R224, R225, R355, R502, R503: the trap instructions and the MSG instructions complete. -/
def Obligations.TrapAndMessageInstructionsComplete : Prop :=
  Parts.TrapInstructionsComplete ∧ Parts.MessageInstructionsComplete

/-- R244, R258, R269, R270, R315, R375: instructions that wait complete, by the arrival of their result, when what they wait for has come: `FENCE.SC`, `LD.SC`
and `ST.SC` at their place in S, `BARX` after its phase, `DONATE` with the status of its offer, `MLEASE` with the lease or without. -/
def Parts.WaitsComplete : Prop :=
  ∀ (s : State) (k : Nat) (o : Outst) (i : Instr) (g : Regs) (w : Wait) (l : La) (d a b : Reg), s.Waits k o i g w → w.deadline = none →
    let c := coreOf k
    let ea := (g.rs a).toNat
    let ends := fun (s2 : State) (ws : List Wr) => ∃ t, exec (.resultArrival k 0) s = .next t ∧ s2.Woke t k o ws
    (∀ n p, w.how = .running → w.aux = scTurn n p →
      let u := s.unqueue k n
      (i = .fenceSc → ends ((u.fenceEnd k p false).acquire c) []) ∧
      (ea % 8 = 0 → s.InScratch c ea 8 →
        (i = .ldSc l d a → ends (u.acquire c) [.s d (BitVec.ofNat 64 (s.readScratch c ea 8))]) ∧
        (i = .stSc a b → ends ((u.writeScratch c ea 8 (g.rs b).toNat).acquire c) []))) ∧
    (∀ (n : BitVec 5) (m : BitVec 1), i = .barx d n m → w.how = .parked → w.aux = [1] → s.isHandler k = false →
      let x := n.toNat + 32 * m.toNat
      (s.barrier c x).failure k = none → ¬((s.ctx k).arrived x = true ∧ (s.barrier c x).phase = (s.ctx k).lastPhase x) →
      ends ((s.modCtx k fun y => { y with arr := y.arr.put x (Tab.get 0 y.arr x % 2 ^ 16) }).observe k x) []) ∧
    (∀ (st j : Nat), i = .donate d a b → w.how = .running → w.aux = donateSent j 0 → (s.offers.find? fun o => o.ctx == k).bind (·.status) = some st →
      ends { s with offers := s.offers.filter fun o => o.ctx != k } [.s d (BitVec.ofNat 64 st)]) ∧
    (i = .mlease l d a → w.how = .parked → (w.aux = leaseGranted → ends s [.s d 1]) ∧ (w.aux = leaseGone → ends s [.s d 0]))

/-- R101, R393 to R396, R399: the commands of the matrix array complete. An `MMA` or `MRUN` that has started gives its tile, element by element, and its flags when it
ends; an `MSTC` stores its elements, where they lie in scratch, once its tile has been read. -/
def Parts.CommandsComplete : Prop :=
  ∀ (s : State) (c k : Nat) (q : Cmd) (o : Outst) (i : Instr) (g : Regs) (w : Wait), coreOf k = c → q.ctx = k →
    (s.ctx k).win.outst = [o] → o.res = .pend i g w → o.dropped = [] →
    (∀ (fa fb : Fill), w.aux = queued q.id → (s.core c).queue.find? (·.started) = some q → q.op = .mma ∨ q.op = .mrun → s.operandsOf c q = .ready fa fb →
      o.pos + o.la < (s.ctx k).win.seq →
      let r := product (if q.op = .mma then mmaElem q.fmt else mrunElem ((s.core c).prog.getD 0)) fa fb (accBytes q.fmt) (s.tileFor c q)
      ∃ t, exec (.leasedCommandComplete c) s = .next t ∧ (t.ctx k).win.outst = [] ∧ t.tile c q.tile = r.1 ∧
        (t.ctx k).fflags = (s.ctx k).fflags ||| BitVec.ofNat 64 r.2 ∧ t.mem = s.mem) ∧
    ∀ (d a b m : Reg) (raw : BitVec 1), i = .mstc d a b m raw → w = { how := .running, deadline := none, aux := queued q.id } →
      (s.core c).storing.find? (fun y => y.id == q.id) = some q → q.row = 0 → (s.ctx k).win.seq ≤ o.pos + o.la →
      let all := (List.range 32).flatMap (rowStores q (q.old.getD []))
      (∀ x ∈ all, s.InScratch c x.1 x.2.2) →
      ∃ t, exec (.resultArrival k 0) s = .next t ∧ (t.ctx k).win.outst = [{ o with res := .ok [] }] ∧
        (t.core c).storing = (s.core c).storing.filter (fun y => y.id != q.id) ∧ t.mem = s.mem ∧
        ∀ n va v z, all[n]? = some (va, v, z) → ∀ j, j < z →
          (∀ (n' : Nat) (y : Nat × Nat × Nat), n < n' → all[n']? = some y → ¬(y.1 ≤ va + j ∧ va + j < y.1 + y.2.2)) → t.scratchByte c (va + j) = BitVec.ofNat 8 (v / 256 ^ j)

/-- R101, R258, R269, R270, R315, R375, R393 to R396, R399: what is not complete at its issue completes by a later event. -/
def Obligations.WaitingInstructionsComplete : Prop :=
  Parts.WaitsComplete ∧ Parts.CommandsComplete

/-! ### Events: waits, faults and accesses -/

/-- R56, R57, R252, R414, R450: an instruction that waits takes its result once its attempt comes to an end: its writes are made and its context goes on. The
events that bring it about are the arrival of a result, the wake-up and the poll of a `SYNC`, and the index engine's and the part home's taking up of what
waits for them. -/
def Parts.ResultsOfWaits : Prop :=
  ∀ (s : State) (k : Nat) (o : Outst) (i : Instr) (g : Regs) (w : Wait) (ws : List Wr) (s2 : State), s.Waits k o i g w →
    attemptOf i (o.env k i g w) s = .done ws s2 → (s2.ctx k).win = (s.ctx k).win → (∀ x ∈ ws, x.isTile = false) →
    let ends := fun (v : Instr) => ∃ t, exec v s = .next t ∧ s2.Woke t k o ws
    ends (.resultArrival k 0) ∧ (i.accesses = 2 → ends (.indexEngineEvent k)) ∧ (i.accesses = 3 → ends (.partHomeEvent k))

/-- R245, R252: a parked `SYNC` that its home wakes, or whose 256 ns pass where it has no watch, reads its counter: at 0 it completes, an acquire; at another value it
parks again. -/
def Parts.SyncReads : Prop :=
  ∀ (s : State) (k : Nat) (o : Outst) (g : Regs) (w : Wait), k < contextCount → s.Waits k o .sync g w → w.how = .parked →
    let core := coreOf k
    let c := frJoin (s.ctx k).snap
    s.isHandler k = false → (s.ctx k).framePub = true → ((s.ctx k).frameS || (s.ctx k).frameD) = true → s.atomicChecks core c = none →
    let reads := fun (s1 : State) (v : Instr) => ∀ x s2, s1.acquireRead (s1.who k) c true = .ok x s2 → (s2.ctx k).win = (s1.ctx k).win →
      (x = 0 → ∃ (t : State) (o' : Outst), exec v s = .next t ∧ o'.dropped = o.dropped ∧ o'.pos = o.pos ∧
        ((s2.modCtx k fun y => { y with frame := y.frame &&& ~~~4 }).acquire core).Woke t k o' []) ∧
      (x ≠ 0 → ∃ (t : State) (w' : Wait), exec v s = .next t ∧ w'.how = .parked ∧ t.mem = s2.mem ∧
        (t.ctx k).win.outst = [{ o with res := .pend .sync g w' }])
    (∀ u at_, w.aux = syncWatch u at_ → reads (s.modCtx k Ctx.syncWakes) (.syncWake k)) ∧
    (∀ t, w.aux = syncPolls → w.deadline = some t → (s.runTo (dieOf core) t).reached (dieOf core) t = true → reads (s.runTo (dieOf core) t) (.syncPoll k))

/-- R32, R218, R349, R453, R457, R505: time runs on to a time that lies ahead, and a wait whose time passes ends: `MBXW` with 0, `CTRW` with the counter's word, `WFI` with nothing, `GWAIT` with 0, and `LDG` of a
ghost cell with trap 0x07. -/
def Parts.TimesOfWaits : Prop :=
  ∀ (s : State) (k : Nat) (o : Outst) (i : Instr) (z : Regs) (w : Wait) (t : Nat) (l : La) (d a b : Reg), k < contextCount → s.Waits k o i z w →
    w.deadline = some t →
    let s1 := s.runTo (dieOf (coreOf k)) t
    let c := s.ctx k
    (let x := s.die (dieOf (coreOf k))
     x.power ≠ .d3 → x.offset = 0 → x.tclk ≤ t → t < x.tclk + 2 ^ 63 → dieOf (coreOf k) < 8 → (s1.die (dieOf (coreOf k))).tclk = t) ∧
    (s1.reached (dieOf (coreOf k)) t = true →
    (i = .mbxw d a b → (z.rs a).toNat < 64 → bit c.hold (z.rs a).toNat = true → s.oldest (coreOf k) (z.rs a).toNat = none →
      ∃ u, exec (.mbxwTimeout k) s = .next u ∧ s1.Woke u k o [.s d 0]) ∧
    (∀ n : BitVec 7, i = .ctrw l d a n → (s.counter (coreOf k) n.toNat).done = false →
      ∃ u, exec (.ctrwTimeout k) s = .next u ∧ s1.Woke u k o [.s d (BitVec.ofNat 64 (s.counter (coreOf k) n.toNat).word)]) ∧
    (i = .wfi → s.awake k = false → ∃ u, exec (.wfiTimeout k) s = .next u ∧ s1.Woke u k o []) ∧
    (∀ (n : Nat) (gr : Grid) (pa : Nat), s1.gridOf (s1.slotOf (coreOf k)) (z.rs a).toNat = some (n, gr) → w.aux = [1] →
      (let p := wordPart (z.rs b).toNat
       let slots := (segmentsOf gr.desc p).map fun q => ((s1.partAt gr.desc pa).seg q, ((s1.partAt gr.desc pa).seg q).slot ((z.rs b).toNat % 2 ^ 32 % gdDepth gr.desc))
       i = .gwait l d a b → s1.Owns k gr (z.rs b).toNat → s1.PartOpen k n gr p false pa →
       (∃ x ∈ slots, x.2.stamp ≠ some ((z.rs b).toNat % 2 ^ 32)) →
       (∀ x ∈ slots, ∀ u, x.1.latest = some u → newer u ((z.rs b).toNat % 2 ^ 32) = false) →
       ∃ u, exec (.gwaitTimeout k) s = .next u ∧ (s1.latency (dieOf (coreOf k)) 4 p).Woke u k o [.s d 0]) ∧
      (let word := z.rs (b + 1)
       let p := wordPart word.toNat
       ∀ q j, i = .ldg l d a b → b.toNat % 2 = 0 → b ≠ 0 → (z.rs b).toNat / 2 ^ (21 * gdRank gr.desc) = 0 → s1.Owns k gr word.toNat →
       s1.PartOpen k n gr p false pa → cellAt gr.desc p (wordCoord (gdRank gr.desc) (z.rs b).toNat) = .ghost q j →
       let seg := (s1.partAt gr.desc pa).seg q
       (seg.slot (word.toNat % 2 ^ 32 % gdDepth gr.desc)).stamp ≠ some (word.toNat % 2 ^ 32) →
       (∀ u, seg.latest = some u → newer u (word.toNat % 2 ^ 32) = false) → c.Enabled →
       ∃ u, exec (.gridLoadTimeout k) s = .next u ∧ s1.TrapTaken u k 0x07 word o.pc)))

/-- R60, R293, R296, R498: a fault that is due is taken as a trap; the answer of a slice to an access posts a page fault of its context, or joins the one that waits; `RESUME`
ends the wait, `SIGNAL` traps with 0x13, `KILL` ends the launch. -/
def Parts.FaultEvents : Prop :=
  ∀ (s : State) (k : Nat), k < contextCount →
    let c := s.ctx k
    let core := coreOf k
    (∀ (o : Outst) (code : Nat) (val : Word), c.win.outst = [o] → o.res = .trap code val → o.pos + o.la < c.win.seq → code < 2 ^ 32 → c.Enabled →
      ∃ t, exec (.trapEntry k) s = .next t ∧ s.TrapTaken t k code val o.pc) ∧
    (∀ (a : Answer) (rest : List Answer) (cause level pte : Nat), takeAnswer k s.answers = some (a, rest) → a.fault = some (cause, level, pte) →
      c.sup = false → c.state ≠ .free →
      (bit c.mbx.toNat 63 = true → exec (.pageFaultAnswer k) s = .next { s with answers := rest }) ∧
      (bit c.mbx.toNat 63 = false → ∃ (t : State) (m : Msg), exec (.pageFaultAnswer k) s = .next t ∧ t.answers = rest ∧ t.mem = s.mem ∧
        let kind := match a.req.kind with
          | .load | .fill => 0
          | .store => 1
          | .atomic => 2
        (t.ctx k).mbx = BitVec.ofNat 64 (2 ^ 63 + kind * 2 ^ 60 + a.req.va % 2 ^ 56) ∧
        t.net = s.net ++ [m] ∧ m.dst = s.pager core ∧ m.cls = 2 ∧ m.nc = 4 ∧ m.len = 48 ∧
        m.payload = faultPayload a.req.va c.asid kind cause level true (s.threadWord k) (s.core core).faultCount pte 0)) ∧
    (∀ (code : Nat) (r : Reply) (rest : List Reply), takeReply k code s.replies = some (r, rest) → c.awaits r = true →
      let s1 := (({ s with replies := rest } : State).latency (dieOf core) 3 (s.pager core)).modCtx k fun x =>
        { x with mbx := x.mbx &&& ~~~(0x8000000000000000 : Word) }
      (code = 0 → exec (.replyResume k) s = .next s1) ∧
      (∀ (o : Outst) (i : Instr) (g : Regs) (w : Wait), code = 1 → c.win.outst = [o] → o.res = .pend i g w → o.pos + o.la < c.win.seq → w.how = .blocked →
        i.queues = false → c.Enabled → ∃ t, exec (.replySignal k) s = .next t ∧ s1.TrapTaken t k 0x13 (BitVec.ofNat 64 (w.aux.headD 0)) o.pc) ∧
      (code = 2 → s.slotOf core < 1024 → (s.launch (s.slotOf core)).state ≠ .free →
        ∃ t, exec (.replyKill k) s = .next t ∧ s1.LaunchOver t (s.slotOf core) 2 1))

/-- R361 to R363, R504: the reply to a fault that a unit holds. For a request in a streamer, `RESUME` lets it go on where it stopped, `SIGNAL` ends its transfer with error
0x13, and `KILL` ends its launch, as it does for any unit. -/
def Parts.UnitFaultReplies : Prop :=
  ∀ (s : State) (d u no code : Nat) (f : UnitFault), d < 8 → u < 64 → no < 2 ^ 32 →
    let handle := 2 ^ 63 + d * 2 ^ 41 + u * 2 ^ 35 + no
    let key := u * 2 ^ 32 + no
    (s.die d).faults.find key = some f → f.reply = .waiting →
    (code = 0 → f.place = placeInbox →
      exec (.unitFaultReply handle code) s =
        .next ((s.modDie d fun x => { x with faults := x.faults.put key { f with reply := .resume } }).post (.engineResume d u))) ∧
    (∀ (j : Nat) (r : Req), code = 1 → f.place = placeInbox → heldBy key 0 (s.inboxOf d u) = some (j, r) →
      ∃ (t : State) (a : Ack), exec (.unitFaultReply handle code) s = .next t ∧ t.inboxOf d u = (s.inboxOf d u).eraseIdx j ∧
        (t.die d).faults.find key = none ∧ t.acks = s.acks ++ [a] ∧ a.core = r.core ∧ a.xfer = r.xfer ∧ a.bytes = 0 ∧ a.last = true ∧ a.error = some 0x13) ∧
    (code = 2 → (s.launch f.slot).state ≠ .free →
      ∃ t, exec (.unitFaultReply handle code) s = .next t ∧
        (s.modDie d fun x => { x with faults := x.faults.del key }).LaunchOver t f.slot 2 1)

/-- R287, R289, R290, R293: a walk that ends in a leaf leaves the translation in the die's slices. An access at a slice is performed, a miss brings its line into the L1, and a fault
is answered to the context. -/
def Parts.WalksAndAccesses : Prop :=
  ∀ (s : State),
    (∀ (die asid va pte at_ level : Nat), (s.die die).power = .d0 → (s.die die).lost = false → (∀ x ∈ (s.die die).tlb, x.serves asid va = false) →
      s.walk die asid va = .leaf pte at_ level →
      exec (.pageWalk die asid va) s = .next (s.modDie die fun x =>
        { x with tlb := { slice := sliceHash asid va, asid := if pteG pte then none else some asid, va := va / pageSize level * pageSize level, size := pageSize level, pte := pte,
                          pteAt := at_ } :: x.tlb })) ∧
    (∀ (r : AccessReq), winTag r.va = 0 → (s.die (dieOf (coreOf r.k))).power = .d0 → (s.die (dieOf (coreOf r.k))).lost = false →
      let w := s.who r.k
      let ends := fun (t : State) => exec (.translatedAccess r) s = .next t
      (∀ x t, r.kind = .load → s.plainRead w .load r.va r.size = .ok x t → ends t) ∧
      (∀ x t, r.kind = .store → s.plainStore w r.va r.size (r.data % 2 ^ (8 * r.size)) = .ok x t → ends t) ∧
      (∀ x t, r.kind = .atomic → s.atomic w .atomic r.va (fun _ => some (r.data % 2 ^ 64)) = .ok x t → ends t) ∧
      (∀ va cause level pte, r.kind = .load → s.plainRead w .load r.va r.size = .fault va cause level pte →
        ends (({ s with answers := s.answers ++ [{ req := r, fault := some (cause, level, pte), value := 0 }] } : State).post (.pageFaultAnswer r.k))) ∧
      (∀ pa pte, r.kind = .fill → s.l1Lines (coreOf r.k) ≠ 0 → (s.core (coreOf r.k)).coming.find? (fun e => e.1 == r.va / 64) = none →
        s.prefetchable w r.va = some (pa, pte) → s.local_ pa = true → (s.core (coreOf r.k)).l1.find (pa / 64) = none →
        ∃ (t : State) (x : L1Line), ends t ∧ (t.core (coreOf r.k)).l1.find (pa / 64) = some x ∧ x.fetched = false ∧ x.dirty = 0 ∧
          x.data = s.lineSeen w true pa pte ∧ (t.core (coreOf r.k)).l1.length ≤ s.l1Lines (coreOf r.k)) ∧
      (∀ e, r.kind = .fill → (s.core (coreOf r.k)).coming.find? (fun e => e.1 == r.va / 64) = some e → s.prefetchable w r.va = none →
        ∃ t, ends t ∧ t = s.setCore (coreOf r.k) (t.core (coreOf r.k)) ∧
          t.core (coreOf r.k) = { s.core (coreOf r.k) with coming := (s.core (coreOf r.k)).coming.erase e,
                                                           pfdrop := countUp (s.core (coreOf r.k)).pfdrop 1 }))

/-- R303, R304, R500: the writes of `LTSET`, `LTPERIOD` and `TEPC` as events of their own. `LTSET` takes a value within 2^21 of H, else H; `LTPERIOD` takes a value from 64 to 2^20, the
next tick at its next multiple; `TEPC` clears SKIP and closes the frozen windows. -/
def Parts.RegisterEvents : Prop :=
  ∀ (s : State) (k die x : Nat),
    let h := (s.die (dieOf (coreOf k))).home
    let off := (x % 2 ^ 24 + 2 ^ 24 - h) % 2 ^ 24
    exec (.ltsetWrite k x) s =
      .next (s.modCtx k fun c => { c with ltime := if off ≤ 2 ^ 21 ∨ 2 ^ 24 - 2 ^ 21 ≤ off then x % 2 ^ 24 else h }) ∧
    (64 ≤ x → x ≤ 2 ^ 20 → ∃ y : Die, exec (.ltperiodWrite die x) s = .next (s.setDie die y) ∧ y = { s.die die with ltperiod := x, nextTick := y.nextTick } ∧
      y.nextTick % x = 0 ∧ (s.die die).tclk / 65536 < y.nextTick ∧ y.nextTick ≤ (s.die die).tclk / 65536 + x) ∧
    ((x < 64 ∨ 2 ^ 20 < x) → x < 2 ^ 32 → exec (.ltperiodWrite die x) s = .next s) ∧
    (∀ w, (s.ctx k).frozenT = some w → (∀ o ∈ w.outst, ∀ y ∈ o.writes, y.isTile = false) →
      exec (.tepcWrite k x) s = .next (s.modCtx k fun c =>
        { c with tepc := BitVec.ofNat 64 x &&& ~~~1, tcause := c.tcause &&& ~~~(0x00007FFF00000000 : Word), regs := c.regs.after (w.outst.flatMap Outst.writes),
                 carried := min c.carried w.seq, frozenT := some { w with outst := [], done := [], path := [], wrote := [] } })) ∧
    ((s.ctx k).frozenT = none →
      exec (.tepcWrite k x) s = .next (s.modCtx k fun c =>
        { c with tepc := BitVec.ofNat 64 x &&& ~~~1, tcause := c.tcause &&& ~~~(0x00007FFF00000000 : Word) }))

/-- R353, R354: the completion interrupt of a context that waits for nothing is taken: an acquire at the lowest counter that is pending for it, with the return state in `XID`, `UIEPC`
and `UIEN`, and the windows frozen. -/
def Parts.CompletionInterrupts : Prop :=
  ∀ (s : State) (k n : Nat), n < 128 →
    let c := s.ctx k
    let core := coreOf k
    let x := s.counter core n
    let pends := fun (m : Nat) => ∃ y, (s.core core).counters.find m = some y ∧ y.uip = true ∧ y.armer = k ∧ y.armerGen = c.gen
    pends n → (∀ m, m < n → ¬pends m) → c.state ≠ .free → c.win.outst = [] → bit c.uien.toNat 0 = true → bit c.uien.toNat 1 = false → c.retry = false →
    c.member = false →
    let s1 := s.acquire core
    ∃ t, exec (.completionInterrupt k) s = .next t ∧ (t.counter core n).uip = false ∧
      (∀ e ∈ (t.core core).l1, e.2.outside = false) ∧ t.mem = s1.mem ∧ (∀ j, j ≠ k → t.ctx j = s1.ctx j) ∧
      t.ctx k = { s1.ctx k with
        xid := BitVec.ofNat 64 (ofBool x.err * 2 ^ 63 + x.code % 256 * 2 ^ 48 + n * 2 ^ 32 + x.tag % 2 ^ 32), uiepc := c.pc, uien := c.uien ||| 2,
        frozenU := some c.win, win := Win.reset, pc := x.uipc, state := .running, yielded := [], ltime := serialMax 24 (s1.ctx k).ltime x.ccwts }

/-- R56, R57, R218, R252, R287 to R293, R296, R303, R304, R349, R353, R361, R453, R457, R498, R500, R505: the events by which waits and faults end, accesses reach their slices, and interrupts are taken.
That an event whose guard does not hold changes nothing (log 2), that time runs on to a deadline (log 21) and what `TRANSLATED_ACCESS` is
(log 71) are the model's choices. -/
def Obligations.WaitsAndFaults : Prop :=
  Parts.ResultsOfWaits ∧ Parts.SyncReads ∧ Parts.TimesOfWaits ∧ Parts.FaultEvents ∧ Parts.UnitFaultReplies ∧ Parts.WalksAndAccesses ∧ Parts.RegisterEvents ∧ Parts.CompletionInterrupts

/-! ### Events of the memory system -/

/-- R300, R302: a dirty owned line is written home by its die's choice, by the recall of its home, or 1 us after its first store: the home holds its bytes with the
stamps of a write, and its writers' write sets take the packet. A recall takes the dirty bytes of the L1s there along, and leaves no die that owns the line. -/
def Parts.LinesGoHome : Prop :=
  ∀ (s : State) (d l : Nat) (o : Owned), d < 8 → (s.die d).owned.find l = some o → o.dirty = true → s.local_ (l * 64) = true →
    let home := fun (t : State) => ∀ a, t.mem.read a = if a / 64 = l then BitVec.ofNat 8 (o.data / 2 ^ (8 * (a % 64))) else s.mem.read a
    let w := (serialMax 24 o.pts (s.lineStamps l).2 + 1) % 2 ^ 24
    let to_ := homeDie (l * 64) * 8
    let n := (Tab.get 0 (s.die d).sent to_ + 1) % 2 ^ 32
    let clean := { o with dirty := false, writers := [] }
    (∃ t, exec (.writeBack d l) s = .next t ∧ home t ∧ (t.die d).owned.find l = some clean ∧ t.lineStamps l = (w, w) ∧
      Tab.get 0 (t.die d).sent to_ = n ∧ ∀ k ∈ o.writers, (t.ctx k).writes.find to_ = some n) ∧
    (∃ t, exec (.ownedLineTimeout d l) s = .next t ∧ home t ∧ (t.die d).owned.find l = some clean ∧
      ∀ e, (t.die e).tclk = ((s.runTo d (o.since + 1000 * 65536)).die e).tclk) ∧
    ((∀ e, e < 8 → e ≠ d → (s.die e).owned.find l = none) →
      (s.dirtyCores d l = [] → ∃ t, exec (.recallLine l) s = .next t ∧ home t ∧ t.lineStamps l = (w, w) ∧
        (∀ e, e < 8 → (t.die e).owned.find l = none) ∧ ∀ c, dieOf c = d → (t.core c).l1.find l = none) ∧
      (∀ c x, s.dirtyCores d l = [c] → (s.core c).l1.find l = some x → s.linePinned d x.key x.va = false → ∃ t, exec (.recallLine l) s = .next t ∧
        (∀ a, t.mem.read a = if a / 64 = l then BitVec.ofNat 8 (mergeBytes x.dirty x.data o.data / 2 ^ (8 * (a % 64))) else s.mem.read a) ∧
        (∀ e, e < 8 → (t.die e).owned.find l = none) ∧ ∀ c, dieOf c = d → (t.core c).l1.find l = none))

/-- R281, R282, R302: a renewal brings a guest copy that the die has up to date, with its lease; a home in D0 reports how many packets of a die it has performed on each network
class, and the report's arrival counts them and raises their writers' pts. -/
def Parts.RenewalsAndTokens : Prop :=
  ∀ (s : State),
    (∀ (k pa : Nat), let d := dieOf (coreOf k)
      let l := pa / 64
      let home := homeDie pa
      let p := (s.ctx k).ltime
      let st := s.lineStamps l
      let len := (s.die d).lease
      let rts := serialMax 24 st.2 (serialMax 24 ((st.1 + len) % 2 ^ 24) ((p + len) % 2 ^ 24))
      s.local_ pa = true → home ≠ d → (s.die d).power = .d0 → (s.die d).lost = false → (s.die home).power = .d0 → (s.die home).lost = false →
      (s.die d).owned.find l = none → (s.die d).guest.find l ≠ none →
      ∃ t, exec (.renewal k pa) s = .next t ∧ (t.die d).guest.find l = some { data := s.mem.readN (l * 64) 64, wts := st.1, rts := rts } ∧
        t.lineStamps l = (st.1, rts) ∧ t.ctx k = { s.ctx k with ltime := serialMax 24 p (serialMax 24 p st.1) } ∧ (∀ j, j ≠ k → t.ctx j = s.ctx j) ∧
        t.mem = s.mem) ∧
    (∀ (home src : Nat), (home < 8 → (s.die home).power = .d0) → ∃ t, exec (.tokenReturn home src) s = .next t ∧
      t.agenda = s.agenda ++ [.tokenArrival home src] ∧ (t.die src).owing.find home = none ∧ (∀ k, t.ctx k = s.ctx k) ∧ t.mem = s.mem ∧
      ∀ cls n, home < 8 → cls < 8 → (s.die src).sent.find (home * 8 + cls) = some n → Tab.get 0 (t.die home).seen (src * 64 + home * 8 + cls) = n) ∧
    (∀ (home src : Nat), home < 8 → (s.die home).power ≠ .d0 → exec (.tokenReturn home src) s = .next s) ∧
    (∀ (home src : Nat),
      let seen := fun (n : Nat) => if home < 8 then Tab.get 0 (s.die home).seen (src * 64 + n) else Tab.get 0 (s.die src).sent n
      let due := (s.die src).reports.filter fun r => decide (r.dst / 8 = home) && serialGe 32 (seen r.dst) r.no
      ∃ t, exec (.tokenArrival home src) s = .next t ∧
        (∀ cls, cls < 8 → let n := home * 8 + cls
          let old := Tab.get 0 (s.die src).acked n
          Tab.get 0 (t.die src).acked n = if serialGe 32 old (seen n) then old else seen n) ∧
        (∀ r ∈ (t.die src).reports, r.dst / 8 = home → serialGe 32 (seen r.dst) r.no = false) ∧
        (∀ k, t.ctx k = { s.ctx k with ltime := (due.filter fun r => r.ctx == k).foldl (fun p r => serialMax 24 p r.wts) (s.ctx k).ltime }) ∧ t.mem = s.mem)

/-- R303, R305: at a tick the home time and every pts of the die move on, no pts stays 2^22 behind, copies that lag so far go, and the lines that the die homes are visited; a visit
of a line whose stamps lag raises them to the home time. Stated of states whose L1s hold no dirty byte, which a copy that goes would write back. -/
def Parts.LogicalTime : Prop :=
  ∀ (s : State) (die line : Nat), die < 8 →
    let fresh := fun (t : State) (d : Nat) => ∀ e ∈ (t.die d).guest, stampLag e.2.rts (t.die d).home < 2 ^ 22
    let visited := fun (h : Nat) (x : Nat × Nat) => if 2 ^ 22 ≤ stampLag x.1 h then (h, h) else x
    (∀ c, ∀ e ∈ (s.core c).l1, e.2.dirty = 0) →
    ((s.die die).power ≠ .d3 → (s.die die).lost = false →
      let h := ((s.die die).home + 1) % 2 ^ 24
      ∃ t, exec (.ltimeTick die) s = .next t ∧ (t.die die).home = h ∧ (t.die die).nextTick = (s.die die).nextTick + (s.die die).ltperiod ∧
        (∀ e, (t.die e).tclk = ((s.runTo die ((s.die die).nextTick * 65536)).die e).tclk) ∧ fresh t die ∧ t.mem = s.mem ∧
        (∀ l, homeDie (l * 64) = die → t.lineStamps l = visited h (s.lineStamps l)) ∧
        (∀ k c, s.ctxs.find k = some c →
          t.ctx k = if dieOf (coreOf k) = die then { c with ltime := serialMax 24 ((c.ltime + 1) % 2 ^ 24) ((h + (2 ^ 24 - 2 ^ 22)) % 2 ^ 24) } else c)) ∧
    (s.local_ (line * 64) = true →
      let h := (s.die (homeDie (line * 64))).home
      let st := s.lineStamps line
      ∃ t, exec (.lineTimestampVisit line) s = .next t ∧ (∀ d, d < 8 → fresh t d) ∧ t.mem = s.mem ∧
        t.lineStamps line = visited h st)

/-- R315: at the close of a die's window its SC operations take the stamp; the first of the package in S learns its turn once its die's clock has passed its window by 12 ns. -/
def Parts.SequentialOrder : Prop :=
  ∀ (s : State) (die k : Nat), k < contextCount →
    (let d := s.die die
     let fresh := d.scq.filter fun o => o.stamp.isNone
     ∃ t, exec (.scWindowClose die) s = .next t ∧
       t.die die = { d with scWindow := d.scWindow + 1, scq := d.scq.map fun o => if o.stamp.isNone then { o with stamp := some (d.tclk, d.scWindow) } else o } ∧
       t.agenda = s.agenda ++ fresh.map fun o => Event.scCompletion o.ctx) ∧
    (∀ (o : ScOp) (stamp w : Nat), (s.die (dieOf (coreOf k))).scq.find? (fun x => x.ctx == k && x.stamp.isSome) = some o → o.stamp = some (stamp, w) →
      let before := fun (x : ScOp) => x.stamp.isSome = true ∧ keyLt x.key o.key = true
      ((∃ d, d < 8 ∧ ∃ x ∈ (s.die d).scq, before x) → exec (.scCompletion k) s = .next (s.post (.scCompletion k))) ∧
      ((∀ d, d < 8 → ∀ x ∈ (s.die d).scq, ¬before x) →
        exec (.scCompletion k) s =
          .next ((s.runTo (dieOf (coreOf k)) (((stamp / 65536 / 128 + 1) * 128 + 12) * 65536)).modCtx k fun c => c.scTurn o.seq)))

/-- R319, R340, R358, R479: a transfer whose context has nothing to wait for asks for its ranges; a registration that can be granted whole enters the range-lock table and its
requests go out, as far as their inboxes have room; the host's accesses to device-bias pages are performed at
their home; the host's write-back lets a flip go on. -/
def Parts.LocksAndTheHost : Prop :=
  ∀ (s : State),
    (∀ (d : Nat) (q : LockReq), (s.die d).held = [] →
      let x := s.die d
      let room := q.xfer < 1024 ∧ ∀ r ∈ q.reqs, (s.inboxOf (r.1 / 64) (r.1 % 64)).length + q.reqs.length ≤ 32
      let granted := ∃ t, exec (.rangeLockGrant d) s = .next t ∧ (t.die d).locks = x.locks ++ q.locks ∧ (t.die d).lockQ = [] ∧ (t.die d).issuing = [] ∧
        ∀ r ∈ q.reqs, r.2 ∈ t.inboxOf (r.1 / 64) (r.1 % 64)
      (x.lockQ = [q] → x.issuing = [] → grantable x.locks x.scatters q = true → room → granted) ∧
      (x.lockQ = [q] → x.issuing = [] → grantable x.locks x.scatters q = false →
        ∃ t, exec (.rangeLockGrant d) s = .next t ∧ t = { s with dies := t.dies } ∧ ∀ e, t.die e = s.die e) ∧
      (∀ y : Issuing, x.lockQ = [] → x.issuing = [y] → y.req = q → q.ranges ≠ [] → (s.ctx y.ctx).gen = y.gen → (s.ctx y.ctx).state ≠ .free →
        s.accessedBefore y.ctx y.pos = false → s.Flushed y.ctx → grantable x.locks x.scatters q = true → room → granted)) ∧
    (∀ (store : Bool) (pa data : Nat), let l := pa / 64
      let s1 := s.recall l
      let h := (s1.die (homeDie pa)).home
      let st := s1.lineStamps l
      let w := (serialMax 24 h st.2 + 1) % 2 ^ 24
      s.local_ pa = true → pa % 2 ^ 36 < Config.hbmBytes → (s.die (homeDie pa)).lost = false →
      (∀ f ∈ s.flips, inPage f.base f.size l = false) →
      ((s.die (homeDie pa)).power = .d0 → store = true → ∃ t, exec (.hostCxlAccess store pa data) s = .next t ∧ t.lineStamps l = (w, w) ∧
        ∀ a, t.mem.read a = if a / 64 = l then BitVec.ofNat 8 (data / 2 ^ (8 * (a % 64))) else s1.mem.read a) ∧
      ((s.die (homeDie pa)).power = .d0 → store = false → s1.poisoned pa = false → ∃ t, exec (.hostCxlAccess store pa data) s = .next t ∧
        t.lineStamps l = (st.1, serialMax 24 st.2 h) ∧ t.mem = s1.mem) ∧
      ((s.die (homeDie pa)).power = .d1 ∨ (s.die (homeDie pa)).power = .d2 →
        exec (.hostCxlAccess store pa data) s = .next (s.post (.hostCxlAccess store pa data)))) ∧
    (∀ (page : Nat) (f : Flip), s.flips.find? (fun x => x.base == page && !x.done) = some f →
      (∀ k, f.ctx = some k →
        exec (.hostWritebackCompletion page) s = .next { s with flips := s.flips.map fun x => if x = f then { x with done := true } else x }) ∧
      (f.ctx = none → ∃ s1 : State, exec (.hostWritebackCompletion page) s = .next (s1.commandDone f.seq 0xFFFF 0) ∧
        (∀ x ∈ s1.flips, x.pteAt ≠ f.pteAt) ∧ (∀ d, d < 8 → ∀ x ∈ (s1.die d).tlb, x.pteAt ≠ f.pteAt) ∧
        s1.mem.readN f.pteAt 8 = setBits ((if s.local_ f.pteAt then s.recall (f.pteAt / 64) else s).mem.readN f.pteAt 8) 6 1 0))

/-- R281, R282, R300, R302, R303, R305, R315, R319, R358, R479: the events of the memory system.
That lines move by these events alone (log 4) and that an SC operation is performed after its turn (log 16) are the model's. -/
def Obligations.MemorySystemEvents : Prop :=
  Parts.LinesGoHome ∧ Parts.RenewalsAndTokens ∧ Parts.LogicalTime ∧ Parts.SequentialOrder ∧ Parts.LocksAndTheHost

/-! ### Events of messages -/

/-- R131, R208, R209, R220, R221, R231, R472: the fate of a message that arrives at a core, by the table of R208. A message of network class 7 comes before all others; of the rest
the first sent does. While a release changes the core's word, and while its launch is saved, none is stored. -/
def Parts.MessageArrivals : Prop :=
  ∀ (s : State) (c : Nat) (m : Msg) (rest : List Msg), s.nextFor c = some (m, rest) →
    (s.renegotiating c = true → exec (.messageArrival c) s = .next (s.post (.messageArrival c))) ∧
    (∀ x ∈ s.net, dstKind x.dst < 2 → dstCore x.dst = c → x.nc = 7 → m.nc = 7) ∧
    (m.nc ≠ 7 → takeFor (fun x => dstKind x.dst < 2 && dstCore x.dst == c) s.net = some (m, rest)) ∧
    (s.renegotiating c = false →
    let s1 : State := if m.nc = 7 then ({ s with net := rest } : State).latency (dieOf c) 8 c else { s with net := rest }
    let ends := fun (t : State) => exec (.messageArrival c) s = .next t
    let h := (s.core c).handlers.find m.cls
    let full := s.wouldSpill c m.cls
    (s.isService c = false → s.savedHere m.slot c = true → ends (s1.keepArrival m.slot m)) ∧
    (m.hsrc = false → s.isService c = false → s.savedHere m.slot c = false → (s.core c).slot ≠ some m.slot → ∃ t, ends t ∧ s1.Bounces t m 2) ∧
    (m.hsrc = false → (s.isService c = true ∨ s.savedHere m.slot c = false ∧ (s.core c).slot = some m.slot) → dstKind m.dst = 1 → s.threadHere m.dst = false →
      ∃ t, ends t ∧ s1.Bounces t m 1) ∧
    (s.Takes c m →
      (h = none → m.cls ≠ 1 → (s.cluster (c / 16)).undCount < (s.cluster (c / 16)).undQuota →
        let n := (s.cluster (c / 16)).undCount
        ∃ (t : State) (x : Msg), ends t ∧ (t.cluster (c / 16)).undCount = n + 1 ∧ t.net = rest ++ [x] ∧ x.cls = 1 ∧ x.dst = c / 16 * 16 + 15 ∧
          t.mem = s.mem.writeN ((s.cluster (c / 16)).undBase + 64 + 128 * n) 128
            (m.dst + m.info * 2 ^ 64 + m.slot % 2 ^ 32 * 2 ^ 128 + m.payload % 2 ^ (8 * m.len) * 2 ^ 512)) ∧
      (∀ e, h = some e →
        (full = false → ∃ t, ends t ∧ s1.Pends t c m e false) ∧
        (full = true → s.ringRoom c = true → ∃ t, ends t ∧ s1.Pends t c m e true) ∧
        (full = true → s.ringRoom c = false → m.hsrc = false →
          ∃ (t s2 : State) (x : Msg), ends t ∧ s1.Bounces s2 { m with bound := some e } 3 ∧ t.net = rest ++ [x] ∧ x.cls = 1 ∧ x.dst = c / 16 * 16 + 15 ∧
            x.payload = m.cls ∧ t.bounces = s2.bounces ∧ t.cores = s.cores))) ∧
    (full = false ↔ ((s.core c).recv.filter fun x => !x.spilled && x.cls == m.cls).length < 15 ∧
      ((s.core c).recv.filter fun x => !x.spilled).length < 256 ∧ (s.core c).recv.all (fun x => !x.spilled || x.cls != m.cls) = true))

/-- R220: a bounce at its sender's core pends as class 0, or is dropped and counted where class 0 is disabled or has no entry. -/
def Parts.BounceArrivals : Prop :=
  ∀ (s : State) (c : Nat) (m : Msg) (rest : List Msg), takeFor (fun x => dstCore x.dst == c) s.bounces = some (m, rest) → s.renegotiating c = false →
    (s.isService c = true ∨ s.savedHere m.slot c = false ∧ (s.core c).slot = some m.slot) →
    let s1 : State := { s with bounces := rest }
    let x := s.core c
    (∀ h, x.hmask.testBit 0 = true → x.handlers.find 0 = some h → s.wouldSpill c 0 = false → ∃ t, exec (.bounce c) s = .next t ∧ s1.Pends t c m h false) ∧
    ((x.hmask.testBit 0 = false ∨ x.handlers.find 0 = none) →
      exec (.bounce c) s = .next (s1.modCore c fun y => { y with bounces := min (y.bounces + 1) 0xFFFFFFFF }))

/-- R213, R214: the selector chooses, of the classes that may start, the oldest message with the best bound priority, and starts it on the lowest free handler context; the
handler's registers are those of R214. While it can start another it has its next cycle. -/
def Parts.HandlerStarts : Prop :=
  ∀ (s : State) (c k : Nat) (m : Msg) (h : HEntry), c < 4096 → (s.core c).saving = false → (s.core c).stopped = false → s.renegotiating c = false →
    s.freeHandler c = some k → s.selected c = some m → m.bound = some h →
    let s1 := (s.takeMsg c m.cls).acquire c
    (∃ t, exec (.handlerStart c) s = .next t ∧ (t.ctx k).Fresh h.pc (fun r => if r = 1 then BitVec.ofNat 64 m.info else if r = 2 then h.arg else 0)
        (BitVec.ofNat 512 (m.payload % 2 ^ (8 * m.len))) ∧
      (t.ctx k).ltime = serialMax 24 (s1.ctx k).ltime m.pts ∧ (t.ctx k).cls = some m.cls ∧ (t.ctx k).gen = ((s.ctx k).gen + 1) % 256 ∧
      (t.ctx k).asid = (s.ctx k).asid ∧ (∀ j, j ≠ k → t.ctx j = s1.ctx j) ∧ t.mem = s1.mem ∧ (∀ e ∈ (t.core c).l1, e.2.outside = false) ∧
      (t.core c).recv = ((s.takeMsg c m.cls).core c).recv ∧ ((t.choice c).isSome = true → .handlerStart c ∈ t.agenda)) ∧
    (m ∈ (s.core c).recv ∧ s.ready c m.cls = true ∧ s.runs c m.cls = false ∧ s.oldest c m.cls = some m ∧
      ∀ y ∈ (s.core c).recv, s.ready c y.cls = true → s.runs c y.cls = false → s.oldest c y.cls = some y → y.spilled = false → better y m = false)

/-- R215, R217, R490: the distributor of a die gives a message to the first core from the class's pointer on that accepts it, and goes on while one does not wait: the oldest first, one
behind it of another source die or network class where the older ones wait. A message for the host becomes an event, or bounces where the host's buffer is full. -/
def Parts.DistributorAndHost : Prop :=
  ∀ (s : State),
    (∀ (d c : Nat) (m : Msg), d < 8 →
      let order := (List.range 512).map (· + 512 * d)
      let p := Tab.get 0 (s.die d).pointers m.cls % 512
      let first := (order.drop p ++ order.take p).find? fun c => s.accepts c m
      (∀ ms, (s.die d).fifo = m :: ms → first = some c → s.offered d = some (m, some c)) ∧
      (∀ x ms, (s.die d).fifo = x :: m :: ms → s.offerTo d x = none → x.stream ≠ m.stream → first = some c → s.offered d = some (m, some c)) ∧
      (s.offered d = some (m, some c) → dstKind m.dst ≠ 1 → s.savedHere m.slot c = false → ((s.core c).recv.filter fun x => !x.spilled).length < 256 →
        ∃ (u : State) (h : HEntry), (s.core c).handlers.find m.cls = some h ∧
          (s.modDie d fun x => { x with fifo := x.fifo.erase m, pointers := x.pointers.put m.cls ((c + 1) % 512) }).Pends u c m h false ∧
          exec (.distributorOffer d) s = .next (if (u.offered d).isSome then u.post (.distributorOffer d) else u))) ∧
    (∀ (q : Nat) (m : Msg) (rest : List Msg), takeFor (fun m => dstKind m.dst == 3 && s.evqOf m.slot == q) s.net = some (m, rest) →
      let s1 : State := { s with net := rest }
      (s.hostAccepts q = true → exec (.hostMessage q) s =
        .next (s1.hostEvent q { type := 1, slot := m.slot, tag := s.tagOf m.slot, info := m.info, payload := m.payload })) ∧
      (s.hostAccepts q = false → m.hsrc = false → ∃ t, exec (.hostMessage q) s = .next t ∧ s1.Bounces t m 3))

/-- R228 to R230: a follower latches the next instruction of its port, or leaves before one that followers do not run, and fetches for itself; a parked `REJOIN` whose label comes joins
again; a context that has left passes the stream over. The port goes on while it can deliver. -/
def Parts.FollowerEvents : Prop :=
  ∀ (s : State) (k : Nat) (l : Nat × Nat) (d : Decoded) (ds : List Decoded), (s.ctx k).leader = some l → (s.ctx k).port = d :: ds →
    let c := s.ctx k
    let ends := fun (x : Ctx) => let u := s.setCtx k x
      exec (.followerExecute k) s = .next (if u.portMoves x then u.post (.followerExecute k) else u)
    c.latch = none →
    (∀ i, c.member = true → decodeBits d.len d.bits = some i →
      (i.leavesHoist = false → ends { c with port := ds, latch := some d, pc := d.pc }) ∧
      (i.leavesHoist = true → ends { c with port := ds, member := false, latch := none, pc := d.pc,
                                            state := if c.state = .following then .running else c.state })) ∧
    (c.member = false → c.watches = some d.pc.toNat → (s.followers l.1).length < 15 → ends c.joins) ∧
    (c.member = false → c.watches ≠ some d.pc.toNat → ends { c with port := ds })

/-- R131, R208, R209, R213 to R215, R217, R220, R221, R228 to R231, R472, R490: the events of messages and of hoists.
Which message behind one that waits a distributor offers (log 29), how the undeliverable ring is laid out (log 89), the pts of a notice (log 88), what is kept beside
memory (log 34) and the order of a follower's events (log 35) are the model's. -/
def Obligations.MessageEvents : Prop :=
  Parts.MessageArrivals ∧ Parts.BounceArrivals ∧ Parts.HandlerStarts ∧ Parts.DistributorAndHost ∧ Parts.FollowerEvents

/-! ### Events of tasks -/

/-- R240, R241, R247: the steal engine sends its probe; a probe that finds an entry claims it with its landing space and a context, and one that finds none lets the round go on or pauses the
engine; the pause ends on the core's clock. -/
def Parts.StealRounds : Prop :=
  ∀ (s : State) (c : Nat), c < 4096 →
    let x := (s.core c).steal
    (s.searches c = true → x.round = false → x.resumeAt = none →
      exec (.stealProbe c) s = .next ((s.modCore c fun y => { y with steal := { x with round := true } }).post (.stealClaim c))) ∧
    (∀ (k : Nat) (p : Probe), x.round = true → s.searches c = true → s.freeTask c = some k → (s.probes c)[x.pos]? = some p →
      (∀ v i e ts, p ≠ .queues → s.probe c p = some (v, i, e, ts) → (s.core v).spilled = 0 →
        ∃ t, exec (.stealClaim c) s = .next t ∧ (t.core v).deque = (s.core v).deque.modify i (fun e => { e with state := .claimed }) ∧
          (t.core c).claims = (s.core c).claims ++ [newClaim v e false k ts] ∧
          t.agenda = s.agenda ++ [.claimIncrementDone c] ∧ t.mem = s.mem ∧ t.ctxs = s.ctxs) ∧
      (∀ q e ts, p = .queues → s.probeQueues c (List.range 16) = some (q, e, ts) →
        ∃ t, exec (.stealClaim c) s = .next t ∧ (Tab.get DonQueue.reset t.donq q).entries = (Tab.get DonQueue.reset s.donq q).entries.drop 1 ∧
          (t.core c).claims = (s.core c).claims ++ [newClaim q e true k ts] ∧ (t.core c).steal = StealEngine.reset ∧
          t.agenda = s.agenda ++ [.stealDispatch c] ∧ t.mem = s.mem ∧ t.ctxs = s.ctxs) ∧
      ((p ≠ .queues → s.probe c p = none) → (p = .queues → s.probeQueues c (List.range 16) = none) →
        let last := stealBudget (s.core c).stealcfg ≤ x.pos + 1 ∨ (s.probes c).length ≤ x.pos + 1
        (last → exec (.stealClaim c) s = .next (s.modCore c fun y =>
          { y with steal := { round := false, pos := 0, used := 0, resumeAt := some (s.now (dieOf c) + stealBackoffNs (s.core c).stealcfg * 65536) } })) ∧
        (¬last → exec (.stealClaim c) s = .next ((s.modCore c fun y =>
          { y with steal := { round := false, pos := x.pos + 1, used := x.pos + 1, resumeAt := none } }).post (.stealProbe c))))) ∧
    (∀ u, x.round = false → x.resumeAt = some u → exec (.stealBackoff c) s =
      .next (((s.runTo (dieOf c) u).modCore c fun y => { y with steal := StealEngine.reset }).post (.stealProbe c)))

/-- R240, R248 to R250: the claim's increment makes the entry STOLEN, or a fault undoes the claim and bars the entry; the tiles are fetched and the frame is dispatched with the registers of
R248, as an acquire. -/
def Parts.StealDispatches : Prop :=
  ∀ (s : State) (c : Nat) (x : Claim), c < 4096 → (s.core c).claims = [x] → (s.core x.victim).spilled = 0 →
    let w := s.part x.victim x.entry.owner
    (∀ (m j : Nat) (s2 : State), x.stolen = false → s.fabric w x.entry.pts (frJoin x.entry.snap) (fun m => (m + 1) % 2 ^ 64) = .ok m s2 →
      placeOf x.entry (s2.core x.victim) = some j →
      ∃ t, exec (.claimIncrementDone c) s = .next t ∧ (t.core x.victim).deque = (s2.core x.victim).deque.modify j (fun e => { e with state := .stolen }) ∧
        (t.core c).claims = [{ x with stolen := true }] ∧ (t.core c).steal = StealEngine.reset ∧ t.mem = s2.mem ∧ t.agenda = s2.agenda ++ [.stealDispatch c]) ∧
    (∀ (va cause level pte j : Nat), x.stolen = false →
      s.fabric w x.entry.pts (frJoin x.entry.snap) (fun m => (m + 1) % 2 ^ 64) = .fault va cause level pte → placeOf x.entry (s.core x.victim) = some j →
      ∃ (t : State) (b : Nat), b ≠ 0 ∧ exec (.claimIncrementDone c) s = .next t ∧ (t.core c).claims = [] ∧ t.mem = s.mem ∧
        (t.core x.victim).deque = (s.core x.victim).deque.modify j (fun e => { e with state := .present, barred := b })) ∧
    (x.stolen = false → s.fabric w x.entry.pts (frJoin x.entry.snap) (fun m => (m + 1) % 2 ^ 64) = .stall → exec (.claimIncrementDone c) s = .next s) ∧
    (∀ (n : Nat) (s2 : State), x.stolen = true → x.fault = none → x.signalled = none → s.freeForTask x.ctx = true → coreOf x.ctx = c → x.pins s c = [] →
      s.fetchTiles c x (s.landedOn c) x.tiles = .ok n s2 →
      let f := x.entry.snap
      let s3 := s2.acquire c
      let tile := fun (i : Nat) => match x.tiles[i]? with
        | some t => if t.size = 0 then 0 else BitVec.ofNat 64 (0xF0 * 2 ^ 56 + t.off)
        | none => (0 : Word)
      ∃ t, exec (.stealDispatch c) s = .next t ∧ (t.core c).claims = [] ∧
        (t.ctx x.ctx).Fresh (BitVec.ofNat 64 (f % 2 ^ 64)) (fun r =>
          if r = 1 then tile 0 else if r = 2 then tile 1 else if r = 3 then tile 2 else if r = 4 then tile 3
          else if r = 5 then BitVec.ofNat 64 (f / 2 ^ 64 % 2 ^ 64) else if r = 6 then BitVec.ofNat 64 x.entry.frame else 0) 0 ∧
        (t.ctx x.ctx).frame = BitVec.ofNat 64 (x.entry.frame / 64 * 64 + 3) ∧ (t.ctx x.ctx).snap = f ∧ (t.ctx x.ctx).asid = (s.launchOf c).asid ∧
        (t.ctx x.ctx).ltime = serialMax 24 (s3.ctx x.ctx).ltime x.entry.pts ∧ t.mem = s3.mem ∧ (∀ j, j ≠ x.ctx → t.ctx j = s3.ctx j))

/-- R248, R254, R256 to R258, R264, R265: the root frame's dispatch, the entries of the donation queues, the spills and refills of the deques and receive stores, and the timeout of a proposal. -/
def Parts.TaskQueues : Prop :=
  ∀ (s : State),
    (∀ (n : Nat), (s.launch n).state = .running → (s.launch n).rootReady = false → (s.launch n).save = none → winTag (s.launch n).root = 0 →
      let l := s.launch n
      let core := l.clusters.headD 0 * 16
      let k := core * 8
      let w : Who := { k := k, core := core, asid := l.asid, sup := false, unit := false }
      (∀ e ∈ (s.die (dieOf core)).faults, e.2.place ≠ placeRoot n) → s.engStop w .engRead l.root 64 = none →
      let r := s.engRead w (s.ctx k).ltime (linesOf l.root 64)
      ∃ t, exec (.rootDispatch n) s = .next t ∧ (t.launch n).rootReady = true ∧ (t.launch n).began = some (r.2.now 0) ∧ t.mem = (r.2.acquire core).mem ∧
        (t.ctx k).Fresh (BitVec.ofNat 64 (r.1 % 2 ^ 64)) (fun g => if g = 5 then BitVec.ofNat 64 (r.1 / 2 ^ 64 % 2 ^ 64) else if g = 6 then BitVec.ofNat 64 l.root else 0) 0 ∧
        (t.ctx k).frame = BitVec.ofNat 64 (l.root / 64 * 64 + 1) ∧ (t.ctx k).snap = r.1 ∧ (t.ctx k).asid = l.asid) ∧
    (∀ (q : Nat) (o : Offer), s.offers.find? (fun o => o.queue == q && o.status.isNone) = some o → o.pkg = s.pkg.number →
      let x := Tab.get DonQueue.reset s.donq q
      let status := if s.queueAsleep q then 3 else if x.slot = none then 2 else if 64 + x.quota ≤ x.entries.length then 1 else 0
      ∃ t, exec (.donationEntry q) s = .next t ∧ t.offers = answerOffer q status s.offers ∧ t.mem = s.mem ∧ t.ctxs = s.ctxs ∧
        (Tab.get DonQueue.reset t.donq q).entries = if status = 0 then x.entries ++ [o.entry] else x.entries) ∧
    (∀ (c kind : Nat),
      let x := s.core c
      let held := x.deque.length - x.spilled
      let n := min 32 x.spilled
      let i := x.spilled - n
      (kind = 0 → held < 64 → exec (.overflowSpill c kind) s = .next s) ∧
      (∀ v s2, kind = 0 → 64 ≤ held → x.spilled + 32 ≤ x.ringQuota → x.ringFault = none → s.ringWrite c x.spilled 32 = .ok v s2 →
        exec (.overflowSpill c kind) s = .next (s2.modCore c fun y => { y with spilled := y.spilled + 32 })) ∧
      (kind = 0 → (16 < held ∨ x.spilled = 0) → exec (.overflowRefill c kind) s = .next s) ∧
      (∀ v s2, kind = 0 → held ≤ 16 → x.spilled ≠ 0 → x.ringFault = none → s.ringRead c i n = .ok v s2 → (∀ e ∈ x.deque, e.state ≠ .stolen) →
        ∃ t, exec (.overflowRefill c kind) s = .next t ∧ (t.core c).spilled = i ∧ t.mem = s2.mem ∧
          (t.core c).deque = x.deque.take i ++
            (((x.deque.drop i).take n).zipIdx.map fun e => e.1.ofImage (v / 2 ^ (1024 * e.2) % 2 ^ 1024)) ++ x.deque.drop x.spilled) ∧
      (kind ≠ 0 → exec (.overflowSpill c kind) s = .next s ∧ ∃ l, exec (.overflowRefill c kind) s = .next (s.modCore c fun y => { y with recv := l }) ∧
        l.map (fun m => { m with spilled := false }) = x.recv.map (fun m => { m with spilled := false }))) ∧
    (∀ (c u : Nat) (p : Proposal), c < 4096 → (s.core c).proposal = some p → p.deadline = some u →
      ∃ t, exec (.teamTimeout c) s = .next t ∧ (t.core c).proposal = none ∧ t.ctx p.ctx = (s.ctx p.ctx).teamOutcome 0 ∧ t.dies = (s.runTo (dieOf c) u).dies ∧
        t.mem = s.mem ∧ ∀ j, j ≠ p.ctx → t.ctx j = s.ctx j)

/-- R129, R131, R270: a renegotiated release completes its phase with the words of all members or of none: where a word breaks a row of R129 nothing changes and those who brought words are to
trap; otherwise each member has its word, and the team its PER. -/
def Parts.RenegotiatedReleases : Prop :=
  ∀ (s : State) (cluster team b : Nat),
    let c := cluster * 16 + team
    let x := s.barrier c b
    let members := (s.team c).map (· + cluster * 16)
    team < 16 → x.releasing = true → s.teamId c = team →
    (∀ v, s.wordFault x members = some v → ∃ t, exec (.barxRelease cluster team b) s = .next t ∧ t.cores = s.cores ∧
      (∀ k, t.ctx k = { s.ctx k with arrPts := (t.ctx k).arrPts }) ∧ t.mem = s.mem ∧
      t.barrier c b = { x with phase := (x.phase + 1) % 2 ^ 16, arrived := 0, phasePts := some x.pts, words := [], releasing := false,
                               failed := x.failed ++ x.words.map fun w => (w.2.1, v) }) ∧
    (s.wordFault x members = none → s.poolBusy members cluster = false → (∀ i ∈ members, (s.core i).queue = [] ∧ (s.core i).storing = []) → b < 64 →
      (∀ i ∈ members, ∀ e ∈ (s.core i).l1, e.2.dirty = 0) →
      ∃ t, exec (.barxRelease cluster team b) s = .next t ∧ (t.barrier c b).phase = (x.phase + 1) % 2 ^ 16 ∧ (t.barrier c b).arrived = 0 ∧ t.mem = s.mem ∧
        ∀ i ∈ members, (t.core i).pword = s.newWord x i ∧
          geomPer (t.core i).geom = min (geomPer (s.core i).geom + 1) ((members.map fun j => pwTasks (s.newWord x j)).foldl min 8) - 1)

/-- R129, R131, R240, R241, R247 to R250, R253, R254, R256 to R258, R264, R265, R270: the events of steals, donations, spills, teams and releases.
Pauses as events (log 40), the fate of a trapping increment (log 41), the rings of receive stores beside memory and the overflow engine's address space (log 34), the context of a
dispatch (log 95) and the partition word of `BARX` (log 39) are the model's. -/
def Obligations.TaskEvents : Prop :=
  Parts.StealRounds ∧ Parts.StealDispatches ∧ Parts.TaskQueues ∧ Parts.RenegotiatedReleases

/-! ### Events of the engines -/

/-- R341, R342, R362: a `COPY` segment between places of a core's private scratch that do not overlap moves its bytes and acknowledges them. In general a unit moves what it can, acknowledges it,
and its request ends, or waits on a fault at the offset that it has reached. -/
def Parts.CopySegments : Prop :=
  ∀ (s : State) (d u j : Nat) (r : Req) (x : Xfer), firstReq .copy 0 ((s.inboxOf d u).take inboxServed) = some (j, r) → s.xferOf r = some x → x.error = none →
    let w := x.who r.core
    let n := r.n - r.pos
    let so := winOff r.src
    let to_ := winOff r.dst
    let old := (s.core r.core).scratch
    (winTag r.src = 0xF0 → winTag r.dst = 0xF0 → r.pos = 0 → r.src < 2 ^ 64 → r.dst < 2 ^ 64 → so + r.n ≤ s.scratchBytes r.core → to_ + r.n ≤ s.scratchBytes r.core →
      (so + r.n ≤ to_ ∨ to_ + r.n ≤ so) →
      ∃ (t : State) (a : Ack), exec (.copySegment d u) s = .next t ∧ t.mem = s.mem ∧ t.ctxs = s.ctxs ∧ t.inboxOf d u = (s.inboxOf d u).eraseIdx j ∧
        t.acks = s.acks ++ [a] ∧ a.core = r.core ∧ a.xfer = r.xfer ∧ a.bytes = r.n ∧ a.last = true ∧ a.error = none ∧
        ∀ o, (t.core r.core).scratch.read o = if to_ ≤ o ∧ o < to_ + r.n then old.read (o - to_ + so) else old.read o) ∧
    let home := s.unitFor w (r.src + r.pos)
    let goesOn := winTag r.src = 0 ∧ d * 64 + u ≠ home ∧ home % 64 < 32
    (goesOn → exec (.copySegment d u) s = .next ((s.dropReq d u j).inject (home / 64) (home % 64) r)) ∧
    (¬goesOn →
      ∀ s2 done t, (s.moveBytes w x.pts (r.src + r.pos) (r.dst + r.pos) (n + 1) n 0 x.pts = (s2, done, t, .all) →
          exec (.copySegment d u) s = .next ((s2.dropReq d u j).ack r.core r.xfer done t true none)) ∧
        (∀ write va cause level pte, s.moveBytes w x.pts (r.src + r.pos) (r.dst + r.pos) (n + 1) n 0 x.pts = (s2, done, t, .fault write va cause level pte) →
          x.ctx < contextCount → j < (s2.inboxOf d u).length →
          ∃ (t' : State) (key : Nat), exec (.copySegment d u) s = .next t' ∧ t'.mem = s2.mem ∧
            (t'.inboxOf d u)[j]? = some { r with pos := r.pos + done, fault := some key } ∧
            (∃ f, (t'.die d).faults.find key = some f ∧ f.va = va ∧ f.place = placeInbox ∧ f.reply = .waiting)))

/-- R342, R345, R363, R476: a unit of a `COPYM` is read and held for its cluster's router, and reaches the masked cores; a `GET` or `PUT` reads its index list, and then moves its elements 16 at a
time, acknowledging them; an element that its index sends out of its base's window ends the transfer after those before it. -/
def Parts.ChunksAndMulticasts : Prop :=
  ∀ (s : State) (d u j : Nat) (r : Req) (x : Xfer), s.xferOf r = some x → x.error = none →
    let w := x.who r.core
    let cl := clusterOf r.core
    (∀ (v : Nat) (s2 : State), firstReq .copym 0 ((s.inboxOf d u).take inboxServed) = some (j, r) →
      let n := min (r.n - r.pos) (128 - (r.src + r.pos) % 128)
      let r' := { r with pos := r.pos + n }
      (16 ≤ s.unitsHeld cl r.core r.xfer → exec (.copymUnit d u) s = .next s) ∧
      (s.unitsHeld cl r.core r.xfer < 16 → s.badMulticast cl x.mask (winOff (r.dst + r.pos)) n = false → s.engLoad w x.pts (r.src + r.pos) n = .ok v s2 → j < (s2.inboxOf d u).length →
      ∃ (t : State) (a : Ack), exec (.copymUnit d u) s = .next t ∧ t.mem = s2.mem ∧ t.cores = s2.cores ∧
        (t.cluster cl).residual = (s2.cluster cl).residual ++
          [{ mask := x.mask, off := winOff (r.dst + r.pos), len := n, data := v, core := r.core, xfer := r.xfer }] ∧
        t.acks = s2.acks ++ [a] ∧ a.bytes = 0 ∧ a.last = decide (r.n ≤ r'.pos) ∧
        (t.inboxOf d u = if r'.pos < r.n then (s2.inboxOf d u).set j r' else (s2.inboxOf d u).eraseIdx j))) ∧
    (∀ (get : Bool), firstReq (if get then .get else .put) 0 ((s.inboxOf d u).take inboxServed) = some (j, r) →
      let ev := if get then Instr.getChunk d u else Instr.putChunk d u
      let addr := fun (l i : Nat) => if get then (indexed r.src l x.esize i).map fun va => (va, (r.dst + i * x.esize) % 2 ^ 64)
        else (indexed r.dst l x.esize i).map fun va => ((r.src + i * x.esize) % 2 ^ 64, va)
      (∀ l s2, r.idx = none → s.engLoad w x.pts x.list (4 * r.n) = .ok l s2 →
        exec ev s = .next ((s2.putReq d u j { r with idx := some l }).post (r.event d u))) ∧
      (∀ l s2 i t code, r.idx = some l → s.elements w x.pts x.esize (addr l) (min 16 (r.n - r.pos)) r.pos x.pts = (s2, i, t, .error code) →
        exec ev s = .next ((s2.dropReq d u j).ack r.core r.xfer ((i - r.pos) * x.esize) t true (some code))) ∧
      (∀ l s2 i t, r.idx = some l →
        s.elements w x.pts x.esize (addr l) (min 16 (r.n - r.pos)) r.pos x.pts = (s2, i, t, .all) →
        let r' := { r with pos := i }
        exec ev s = .next (if i < r.n then ((s2.putReq d u j r').ack r.core r.xfer ((i - r.pos) * x.esize) t false none).post (r.event d u)
          else (s2.dropReq d u j).ack r.core r.xfer ((i - r.pos) * x.esize) t true none)))

/-- R345, R366, R476: the oldest packet of the hold is written to the scratch of the masked cores of its cluster, which acknowledge its bytes. -/
def Parts.HeldPackets : Prop :=
  ∀ (s : State) (cl : Nat) (p : Held) (ps : List Held), (s.cluster cl).residual = p :: ps →
    ∃ (t : State) (a : Ack), exec (.residualHoldSend cl) s = .next t ∧ (t.cluster cl).residual = ps ∧ t.mem = s.mem ∧ t.ctxs = s.ctxs ∧
      t.acks = s.acks ++ [a] ∧ a.core = p.core ∧ a.xfer = p.xfer ∧ a.bytes = p.len * popcount 16 p.mask ∧ a.last = false ∧ a.error = none ∧
      (∀ i o, i < 16 → (t.core (cl * 16 + i)).scratch.read o =
        if bit p.mask i = true ∧ p.off ≤ o ∧ o < p.off + p.len then BitVec.ofNat 8 (p.data / 2 ^ (8 * (o - p.off))) else (s.core (cl * 16 + i)).scratch.read o) ∧
      ∀ c, clusterOf c ≠ cl → t.core c = s.core c

/-- R345 to R347, R361 to R363, R367, R435: an acknowledgement counts its bytes down; the counter completes where it is armed and its value is 0, or was 0 as a byte counted, or it has an error; the last one ends the transfer,
whose `NOTIFY` goes out and whose locks go. A request whose fault is answered goes on; a `DENSE` request reads and writes the elements of its shard. -/
def Parts.Acknowledgements : Prop :=
  ∀ (s : State) (core d u : Nat),
    (∀ (a : Ack) (rest : List Ack) (x : Xfer), takeAckFor core s.acks = some (a, rest) → (s.core core).xfers.find a.xfer = some x → x.error = none →
      (∀ e, e < 8 → (s.die e).held = []) →
      let y := s.counter core x.cc
      let v := (y.value + (2 ^ 48 - a.bytes % 2 ^ 48)) % 2 ^ 48
      let ends := y.armed = true ∧ (v = 0 ∨ y.value ≤ a.bytes ∨ y.err = true ∨ a.error.isSome = true)
      ∃ t, exec (.byteAcknowledgement core) s = .next t ∧ t.acks = rest ∧ t.mem = s.mem ∧ t.ctxs = s.ctxs ∧
        (t.counter core x.cc).value = v ∧ (t.counter core x.cc).err = (y.err || a.error.isSome) ∧
        (∀ code, a.error = some code → y.err = false → (t.counter core x.cc).code = code) ∧
        (ends → (t.counter core x.cc).done = true ∧ (t.counter core x.cc).armed = false) ∧ (¬ends → (t.counter core x.cc).done = y.done) ∧
        (a.error = none → (x.pieces - (if a.last then 1 else 0) ≠ 0 ∨ a.bytes < x.owed) → (t.core core).xfers.find a.xfer =
          some { x with owed := x.owed - a.bytes, pieces := if a.last then x.pieces - 1 else x.pieces,
                        acked := if a.bytes = 0 then x.acked else serialMax 24 x.acked a.wts }) ∧
        (a.error = none → x.pieces - (if a.last then 1 else 0) = 0 → x.owed ≤ a.bytes → (t.core core).xfers.find a.xfer = none ∧
          (∀ e, e < 8 → ∀ l ∈ (t.die e).locks, ¬(l.core = core ∧ l.xfer = a.xfer)) ∧
          (notV x.notify = false → t.net = s.net) ∧
          (notV x.notify = true → ∃ m, t.net = s.net ++ [m] ∧ m.dst = notCore x.notify ∧ m.cls = notClass x.notify ∧ m.nc = 4 ∧ m.len = 24 ∧
            m.payload = x.dst + x.tag * 2 ^ 64 + x.n % 2 ^ 64 * 2 ^ 128))) ∧
    (∀ (r : Req) (key : Nat) (f : UnitFault), s.inboxOf d u = [r] → r.fault = some key → (s.die d).faults.find key = some f → f.reply = .resume →
      f.place = placeInbox → ∃ t, exec (.engineResume d u) s = .next t ∧ t.inboxOf d u = [{ r with fault := none }] ∧ (t.die d).faults.find key = none ∧
        t.agenda = s.agenda ++ [r.event d u]) ∧
    (∀ (j : Nat) (q : Req) (x : Xfer) (n : Nat) (r : Region) (s2 s3 : State) (i m wts : Nat), firstReq .dense 0 ((s.inboxOf d 16).take inboxServed) = some (j, q) → s.xferOf q = some x →
      x.error = none → s.regionOf (s.slotOf q.core) q.src = some (n, r) →
      let y := { s.shardAt x.ctx n r q.shard with pts := x.pts }
      s.shardHeld y = none →
      (q.pos = 0 → y.run s (do y.spillWhere (inBox x.lo x.hi) ((← get).s.accs y.cl)) = .ok ((), s2)) → (q.pos ≠ 0 → s2 = s) →
      s2.denseElems y x (x.who q.core) (spRank r.desc) (min 64 (q.n - q.pos)) q.pos 0 x.pts = (s3, i, m, wts, .all) →
      exec (.denseShard d) s = .next (if i < q.n then ((s3.putReq d 16 j { q with pos := i }).ack q.core q.xfer m wts false none).post (q.event d 16)
        else (s3.dropReq d 16 j).ack q.core q.xfer m wts true none))

/-- R341, R342, R345 to R347, R361 to R363, R366, R367, R435, R476: the events by which engines serve their requests. -/
def Obligations.EngineEvents : Prop :=
  Parts.CopySegments ∧ Parts.ChunksAndMulticasts ∧ Parts.HeldPackets ∧ Parts.Acknowledgements

/-! ### Events of the matrix array, the index engines and the halo engines -/

/-- R373, R374: the lease goes to the oldest request, ties in ring order after the core last granted; a lease that has run out is SPENT, or asks again where a command waits. -/
def Parts.LeaseEvents : Prop :=
  ∀ (s : State) (cl i c : Nat), cl < 256 →
    (let g := fun (j : Nat) => cl * 16 + ((s.cluster cl).lastGrant + 1 + j) % 16
     let waits := fun (c : Nat) => (s.core c).lease.state = .wait
     let age := fun (j : Nat) => (s.core (g j)).lease.age
     let y := (s.core (g i)).lease
     i < 16 → s.holder cl = none → waits (g i) → (∀ j, j < 16 → j ≠ i → waits (g j) → age i < age j ∨ age i = age j ∧ i < j) →
     ∃ t, exec (.leaseGrant cl) s = .next t ∧
       (t.core (g i)).lease = { y with state := .held, left := y.n, cycles := s.arrayCycle (g i), idle := s.arrayCycle (g i) } ∧
       (t.cluster cl).lastGrant = g i % 16 ∧ t.agenda = s.agenda ++ [.leasedCommandStart cl] ∧ t.mem = s.mem ∧
       (∀ k, t.ctx k = (s.tellLease (g i) leaseGranted).ctx k) ∧ ∀ j, j ≠ g i → t.core j = s.core j) ∧
    (let y := s.core c
     y.lease.state = .held → (∀ q ∈ y.queue, q.started = false) → y.lease.out (s.arrayCycle c) = true →
     ((∀ q ∈ y.queue, q.op = .place) → exec (.leaseSpent c) s =
       .next ((s.modCore c fun x => { x with lease := { x.lease with state := .spent } }).post (.leaseGrant (clusterOf c)))) ∧
     (∀ q, y.waitingCmd = some q → ∃ t, exec (.leaseSpent c) s = .next t ∧ t.mem = s.mem ∧ t.ctxs = s.ctxs ∧
       (t.core c).lease = { state := .wait, n := y.lease.n, left := 0, cycles := 0, idle := 0, age := q.issued }))

/-- R101, R373, R383, R395, R396: the command at the head of the holder's queue starts once its slots are ready and its tile is free, and uses up one command of the lease; an INT8 `MMA` gives each
element the sum of 32-bit products, modulo 2^32 without saturation; a store's tile is read as it ends; a slot is READY, or in ERROR, when its fill ends. -/
def Parts.ArrayCommands : Prop :=
  ∀ (s : State) (cl c : Nat) (q : Cmd), clusterOf c = cl →
    (s.holder cl = some c → (s.core c).queue.head? = some q → q.op ≠ .place → q.started = false → (s.core c).lease.left ≠ 0 →
      let starts := exec (.leasedCommandStart cl) s = .next ((s.modCore c fun x => { x with
        lease := { x.lease with left := x.lease.left - 1 }
        queue := x.queue.map fun y => if y.id = q.id then { y with started := true } else y }).post (.leasedCommandComplete c))
      (q.op = .mstc → starts) ∧ (q.op ≠ .mstc → ∀ a b, s.operandsOf c q = .ready a b → s.tileHeld c q.ctx q.tile = false → starts) ∧
      (q.op ≠ .mstc → s.operandsOf c q = .coming → exec (.leasedCommandStart cl) s = .next s)) ∧
    (∀ (a b : Fill) (o : Outst) (i : Instr) (g : Regs) (w : Wait), (s.core c).queue.find? (·.started) = some q → q.op = .mma → s.operandsOf c q = .ready a b →
      fwA q.fmt = 1 → fwAcc q.fmt = 1 → fwSat q.fmt = false → a.fmt = 1 → b.fmt = 1 → coreOf q.ctx = c →
      (s.ctx q.ctx).win.outst = [o] → o.res = .pend i g w → w.aux = queued q.id → o.dropped = [] → o.pos + o.la < (s.ctx q.ctx).win.seq →
      let n := (a.kq + 1) * 32
      let before := s.tileFor c q
      let byte_ := fun (x p : Nat) => sext (x / 2 ^ (8 * p) % 2 ^ 8) 8
      ∃ t, exec (.leasedCommandComplete c) s = .next t ∧ t.mem = s.mem ∧ (t.ctx q.ctx).win.outst = [] ∧ bit (t.core c).dirty q.tile = true ∧
        (t.core c).queue = (s.core c).queue.filter (fun y => y.id != q.id) ∧
        ∀ r v, r < 32 → v < 32 → (tileElem (t.tile c q.tile) 4 (32 * r + v) : Int) =
          (sext (tileElem before 4 (32 * r + v)) 32 + ((List.range n).map fun p => byte_ (a.rowOf r) p * byte_ (b.rowOf p) v).sum) % 2 ^ 32) ∧
    ((s.core c).queue.find? (·.started) = some q → q.op = .mstc → ∃ t, exec (.leasedCommandComplete c) s = .next t ∧ t.mem = s.mem ∧
      (t.core c).storing = (s.core c).storing ++ [{ q with old := some (s.tileFor c q) }] ∧
      (t.core c).queue = (s.core c).queue.filter fun y => y.id != q.id) ∧
    (∀ (n : Nat) (f : Fill), (s.slot (cl * 16) n).fills = [f] → f.ended = false → 256 ≤ f.code →
      let e := f.code - 256
      ∃ t, exec (.slotFillComplete cl n) s = .next t ∧ t.mem = s.mem ∧ t.cores = s.cores ∧
        t.slot (cl * 16) n = { s.slot (cl * 16) n with fills := [{ f with ended := true, code := e }], state := if e = 0 then .ready else .error, code := e })

/-- R424, R454, R455: an accumulator entry that has not been touched for 4,096 cycles is spilled; a push is stamped into the slot of its segment once the slot is no longer needed, and
waits until then. -/
def Parts.SpillsAndPushes : Prop :=
  ∀ (s : State),
    (∀ (cl i : Nat) (a : AccEntry) (t : State), (s.accs cl)[i]? = some a →
      (a.touch + 4096 ≤ (s.die (cl / 32)).cyc → s.spillOne ((s.launch a.slot).clusters.headD 0 * 128) a = .ok t → exec (.accumulatorSpill cl i) s = .next t) ∧
      ((s.die (cl / 32)).cyc < a.touch + 4096 → exec (.accumulatorSpill cl i) s = .next s)) ∧
    (∀ (x : Push) (y : Part), s.pushes = [x] → x.to_ < 8 → x.error = none → x.fault = none →
      let g := s.grid x.grid
      let w := haloWho x.ctx x.to_ g.asid
      let pa := (s.pieceAt w .engWrite x.dst 64).1
      s.blockStop (haloWho x.ctx (g.die x.srcPart) g.asid) false (blockVA g.desc x.srcPart) = none →
      s.blockStop w true x.dst = none → s.parts.find pa = some y →
      let seg := y.seg x.srcPart
      let j := x.step % x.depth
      ((∀ u, (seg.slot j).stamp = some u → newer y.m u = true) → ∃ (t : State) (z : Part), exec (.haloPush x.to_) s = .next t ∧ t.pushes = [] ∧
        t.parts.find pa = some z ∧ z.m = y.m ∧ z.front = y.front ∧ (z.seg x.srcPart).slot j = { stamp := some x.step, cells := x.cells, pts := x.pts } ∧
        (z.seg x.srcPart).latest = some (match seg.latest with
          | some l => if newer x.step l then x.step else l
          | none => x.step) ∧ t.mem = s.mem ∧ t.ctxs = s.ctxs) ∧
      (∀ u, (seg.slot j).stamp = some u → newer y.m u = false → exec (.haloPush x.to_) s = .next s))

/-- R101, R373, R374, R383, R395, R396, R424, R454, R455: the events of the matrix array, of the accumulators and of the halo engines.
The age of a lease that runs out with a command waiting (log 42) and the cells beside memory (log 31) are the model's. -/
def Obligations.ArrayEvents : Prop :=
  Parts.LeaseEvents ∧ Parts.ArrayCommands ∧ Parts.SpillsAndPushes

/-! ### Events of the host's queues, of event queues and of saves -/

/-- R480, R485, R486, R489, R491: the host's commands on queues, event queues, quanta and reserve maps. A command that breaks a limit is rejected and changes nothing else. -/
def Parts.QueueCommands : Prop :=
  ∀ (s : State) (seq : Nat), s.TakesCommands →
    let rejects := fun (i : Instr) => exec i s = .next (s.commandDone seq 0xFFFF 1)
    let does := fun (i : Instr) (t : State) => exec i s = .next (t.commandDone seq 0xFFFF 0)
    let ring := fun (n : Nat) => ∃ e, 4 ≤ e ∧ e ≤ 16 ∧ n = 2 ^ e
    (∀ (q : Nat) (f : QueueSpec),
      let good := ring f.entries ∧ (f.format = 1 ∨ f.format = 2) ∧ f.level ≤ 7 ∧ (f.level = 0 → f.signal = true) ∧ 1 ≤ f.conc ∧ f.conc ≤ 16 ∧ q < 32768 ∧
        f.asid < 4096 ∧ f.evq < 4096 ∧ (f.signal = true → (s.queues.filter fun e => e.2.spec.signal && e.1 != q).length < 64)
      (good → does (.createQueue seq q f) (s.setQueue q { spec := f, tail := 0, head := 0, failed := false, since := s.now 0, rereads := 0, rereadAt := none,
                                                           ready := none, notBefore := 0 })) ∧
      (¬good → rejects (.createQueue seq q f))) ∧
    (∀ (q : Nat) (x : HQueue), s.queues.find q = some x → ∃ t : State, does (.destroyQueue seq q) t ∧ t.queues.find q = none ∧
      (∀ n, (s.launch n).state ≠ .free → (s.launch n).queue = q → (t.launch n).state = .free) ∧
      ((∀ e ∈ s.launches, s.launches.find e.1 = some e.2) → ∀ n, (s.launch n).queue ≠ q → t.launch n = s.launch n)) ∧
    (∀ (q : Nat), s.queues.find q = none → rejects (.destroyQueue seq q)) ∧
    (∀ (evq base entries header vector : Nat),
      let good := evq < 4096 ∧ vector < 4096 ∧ ring entries
      (good → does (.createEvq seq evq base entries header vector) { s with
        evqs := s.evqs.put evq { base := base, entries := entries, header := header, vector := vector, tail := 0, head := 0, buffer := [], drops := 0,
                                 signalled := none, owed := false, signals := 0 }
        mem := s.mem.writeN header 24 0 }) ∧
      (¬good → rejects (.createEvq seq evq base entries header vector))) ∧
    (∀ (ns : Nat),
      (10000 ≤ ns → ns ≤ 10000000 → exec (.setQuantum seq ns) s =
        .next ((({ s with pkg := { s.pkg with quantum := ns } } : State).commandDone seq 0xFFFF 0).post .queueBind)) ∧
      (ns < 10000 ∨ 10000000 < ns → rejects (.setQuantum seq ns))) ∧
    (∀ (die map : Nat),
      (die < 8 → exec (.setReserve seq die map) s =
        .next ((({ s with pkg := { s.pkg with reserve := s.pkg.reserve.put die (map % 2 ^ 32) } } : State).commandDone seq 0xFFFF 0).post .queueBind)) ∧
      (8 ≤ die → rejects (.setReserve seq die map))) ∧
    (∀ (core payload : Nat),
      (core < 4096 → s.isService core = true → (s.die (dieOf core)).power = .d0 ∨ (s.die (dieOf core)).power = .d1 →
        ∃ (t : State) (m : Msg), does (.hostcmd seq core payload) t ∧ t.net = s.net ++ [m] ∧ m.dst = core ∧ m.cls = 3 ∧ m.nc = 4 ∧ m.len = 64 ∧
          m.payload = payload % 2 ^ 512 ∧ m.hsrc = true ∧ m.sender = 0 ∧ m.slot = 0xFFFF ∧ t.mem = s.mem ∧ t.ctxs = s.ctxs ∧ t.cores = s.cores) ∧
      (4096 ≤ core ∨ s.isService core = false ∨ (s.die (dieOf core)).power = .d2 ∨ (s.die (dieOf core)).power = .d3 → rejects (.hostcmd seq core payload)))

/-- R483: the checks of a queue's entry, in the order of the table; the first that fails gives the cause. -/
def Parts.EntryChecks : Prop :=
  ∀ (s : State) (x : HQueue) (b : Nat),
    let f := fun (o n : Nat) => b / 2 ^ (8 * o) % 2 ^ (8 * n)
    let v2 := x.spec.format = 2
    let clusters := (((List.range 8).filter fun d => f 22 1 = 0 ∨ (f 22 1).testBit d = true).map fun d =>
      if x.spec.signal then 32 else 32 - popcount 32 (Tab.get (2 ^ 31) s.pkg.reserve d)).sum
    let bound := ∃ n, n < 16 ∧ (f 64 2).testBit n = true ∧ (Tab.get DonQueue.reset s.donq n).slot ≠ none
    let checks : List (Prop × Nat) :=
      [(f 0 1 ≠ x.spec.format, 0x01), (f 1 1 % 128 ≠ 0, 0x01), (f 2 2 = 0 ∨ 256 < f 2 2, 0x01), (f 8 8 % 2 = 1, 0x03), (f 8 8 / 2 ^ 56 ≠ 0, 0x04),
       (pwValid (f 16 4) = false, 0x0F), (f 20 1 = 0 ∨ f 21 1 = 0 ∨ 16 < f 20 1 ∨ 16 < f 21 1 ∨ 16 < f 20 1 * f 21 1, 0x01), (clusters < f 2 2, 0x10),
       (f 23 1 ≠ 0, 0x01), (f 24 8 % 64 ≠ 0, 0x03), (f 24 8 / 2 ^ 56 ≠ 0, 0x04), (f 32 2 ≠ 0xFFFF ∧ s.evqs.find (f 32 2) = none, 0x10), (f 34 30 ≠ 0, 0x01),
       (v2 ∧ bound, 0x10), (v2 ∧ f 66 2 ≠ 0, 0x01), (v2 ∧ f 80 48 ≠ 0, 0x01)]
    (s.entryFault x b = none ↔ ∀ c ∈ checks, ¬c.1) ∧
    ∀ code, s.entryFault x b = some code ↔
      ∃ (i : Nat) (p : Prop), checks[i]? = some (p, code) ∧ p ∧ ∀ j c, j < i → checks[j]? = some c → ¬c.1

/-- R481 to R483: a doorbell moves TAIL, or puts the queue into the error state; firmware reads the entry at HEAD as a snapshot, rereads it ten times where its PHASE is wrong, and checks
it. -/
def Parts.QueueEntries : Prop :=
  ∀ (s : State) (q : Nat) (x : HQueue), s.queues.find q = some x → x.failed = false →
    let error := fun (t : State) (evq tag code : Nat) => t.hostEvent evq { type := 3, slot := 0xFFFF, tag := tag, info := code, payload := 0 }
    let fails := fun (t : State) (y : HQueue) (tag : Nat) => error (t.setQueue q { y with failed := true, ready := none, rereadAt := none }) x.spec.evq tag 0x01
    let n := 64 * x.spec.format
    let at_ := x.spec.ring + x.head % x.spec.entries * n
    let again := s.now 0 + 1000 * 65536
    let inPhase := fun (b : Nat) => b / 2 ^ 15 % 2 = 1 ↔ x.head / x.spec.entries % 2 = 0
    let named := fun (t : State) (w : Nat) =>
      if (w + 2 ^ 64 - t.now 0 % 2 ^ 64) % 2 ^ 64 < 2 ^ 63 then t.now 0 + (w + 2 ^ 64 - t.now 0 % 2 ^ 64) % 2 ^ 64 else 0
    let takes := fun (i : Instr) (b : Nat) (t : State) =>
      (t.entryFault x b = none → exec i s = .next ((t.setQueue q
        { x with ready := some b, rereads := 0, rereadAt := none, notBefore := if x.spec.format = 2 then named t (b / 2 ^ 576 % 2 ^ 64) else 0 }).post .queueBind)) ∧
      (∀ code, t.entryFault x b = some code → exec i s = .next ((error
        (t.setQueue q { x with head := (x.head + 1) % 2 ^ 32, ready := none, rereads := 0, rereadAt := none, notBefore := 0 })
        (if b / 2 ^ 256 % 2 ^ 16 ≠ 0xFFFF ∧ t.evqs.find (b / 2 ^ 256 % 2 ^ 16) ≠ none then b / 2 ^ 256 % 2 ^ 16 else x.spec.evq) (b / 2 ^ 32 % 2 ^ 32) code).post
        (.queueEntryRead q)))
    (∀ (tail size : Nat),
      let t := tail % 2 ^ 32
      (size = 4 ∨ size = 8 → (t + 2 ^ 32 - x.head) % 2 ^ 32 ≤ x.spec.entries → exec (.tailWrite q tail size) s =
        .next (((s.setQueue q { x with tail := t, since := if x.head = x.tail then s.now 0 else x.since }).post (.queueEntryRead q)).post .queueBind)) ∧
      (size = 4 ∨ size = 8 → x.spec.entries < (t + 2 ^ 32 - x.head) % 2 ^ 32 → exec (.tailWrite q tail size) s = .next (fails s { x with tail := t } 0)) ∧
      (size ≠ 4 → size ≠ 8 → exec (.tailWrite q tail size) s = .next s)) ∧
    (let b := (s.entryAt x).1
     let t := (s.entryAt x).2
     x.head ≠ x.tail → x.ready = none → x.rereadAt = none → b = t.mem.readN at_ n ∧ (s.local_ at_ = false → t = s) ∧
     (inPhase b → takes (.queueEntryRead q) b t) ∧
     (¬inPhase b → exec (.queueEntryRead q) s =
      .next ((t.setQueue q { x with rereads := 0, rereadAt := some again }).post (.phaseReread q)))) ∧
    (∀ (u : Nat), x.head ≠ x.tail → x.ready = none → x.rereadAt = some u →
      let s1 := s.runTo 0 u
      let b := (s1.entryAt x).1
      let t := (s1.entryAt x).2
      b = t.mem.readN at_ n ∧ (inPhase b → takes (.phaseReread q) b t) ∧
      (¬inPhase b → 9 ≤ x.rereads → exec (.phaseReread q) s = .next (fails t x (b / 2 ^ 32 % 2 ^ 32))) ∧
      (¬inPhase b → x.rereads < 9 → exec (.phaseReread q) s = .next ((t.setQueue q
        { x with rereads := x.rereads + 1, rereadAt := some (t.now 0 + 1000 * 65536) }).post (.phaseReread q))))

/-- R484 to R487: of what waits and can be placed, the best is bound: SIGNAL queues, then starving ones, then the best effective level, then the greatest age, then the lower number. Placement
takes free clusters in ascending order. -/
def Parts.LaunchBinding : Prop :=
  ∀ (s : State),
    (let rank := fun (w : Machine.Waiting) => if w.level = 0 then 0 else if w.starving then 1 else 1 + w.level
     ∀ (l : List Machine.Waiting) (w : Machine.Waiting), firstWaiting l = some w → w ∈ l ∧ ∀ v ∈ l, rank w < rank v ∨ rank w = rank v ∧
       (v.age < w.age ∨ v.age = w.age ∧ w.queue ≤ v.queue)) ∧
    (∀ (count mask : Nat) (signal : Bool) (l : List Nat), s.pick count mask signal = some l →
      let may := fun (n : Nat) => n < 256 ∧ (mask = 0 ∨ mask.testBit (n / 32) = true) ∧ (s.die (n / 32)).power = .d0 ∧ (s.die (n / 32)).lost = false ∧
        (s.die (n / 32)).up = true ∧ (s.cluster n).gated = false ∧ (∀ e ∈ s.launches, e.2.state = .running → n ∉ e.2.clusters) ∧
        (signal = false → (Tab.get (2 ^ 31) s.pkg.reserve (n / 32)).testBit (n % 32) = false)
      l.length = count ∧ l.Pairwise (· < ·) ∧ (∀ n ∈ l, may n) ∧ ∀ n, may n → n ∉ l → ∀ m ∈ l, m < n) ∧
    (∀ (w : Machine.Waiting) (x : HQueue) (b slot : Nat) (l : List Nat), firstWaiting (s.allWaiting.filter s.placeable) = some w → w.slot = none →
      s.queues.find w.queue = some x → x.ready = some b → s.freeSlot x.spec.signal = some slot → s.pick (b / 2 ^ 16 % 2 ^ 16) (b / 2 ^ 176 % 2 ^ 8) x.spec.signal = some l →
      (x.spec.format = 2 → s.dqTaken (b / 2 ^ 512 % 2 ^ 16) = false) →
      let f := fun (o n : Nat) => b / 2 ^ (8 * o) % 2 ^ (8 * n)
      f 20 1 ≤ 16 → f 21 1 ≤ 16 →
      (s.launch slot).state = .free ∧ (x.spec.signal = false → slot < 960) ∧ (x.spec.signal = true → 960 ≤ slot ∧ slot < 1024) ∧
      ∃ t, exec .queueBind s = .next t ∧ (t.launch slot).state = .running ∧ (t.launch slot).queue = w.queue ∧ (t.launch slot).tag = f 4 4 ∧
        (t.launch slot).code = f 8 8 ∧ (t.launch slot).pword = f 16 4 ∧ (t.launch slot).root = f 24 8 ∧ (t.launch slot).clusters = l ∧
        (t.launch slot).asid = x.spec.asid ∧ (t.launch slot).boundAt = s.now 0 ∧ (t.launch slot).limit = (if x.spec.format = 2 then f 68 4 else 0) ∧
        t.queues.find w.queue = some { x with head := (x.head + 1) % 2 ^ 32, ready := none, rereads := 0, rereadAt := none, notBefore := 0, since := s.now 0 } ∧
        (∀ n ∈ l, (t.cluster n).barriers = []) ∧
        ∀ n ∈ l, ∀ c, c / 16 = n → s.isService c = false → (t.core c).slot = some slot ∧ (t.core c).pword = f 16 4 ∧ (t.core c).handlers = [] ∧
          geomRows (t.core c).geom = (1 : Nat) ∧ geomCols (t.core c).geom = (1 : Nat) ∧ geomMask (t.core c).geom = 2 ^ (c % 16) ∧
          bits (t.core c).geom 41 37 = f 20 1 ∧ bits (t.core c).geom 46 42 = f 21 1 ∧
          ∀ i, i < 8 → (t.ctx (c * 8 + i)).state = .free ∧ (t.ctx (c * 8 + i)).asid = x.spec.asid) ∧
    (firstWaiting (s.allWaiting.filter s.placeable) = none → (∀ w ∈ s.allWaiting, w.starving = false) → exec .queueBind s = .next s)

/-- R255, R485, R486, R491: the times at which queues age, entries may be bound and a LIMIT passes; an `END_LAUNCH`. -/
def Parts.QueueTimes : Prop :=
  ∀ (s : State) (q slot : Nat),
    (∀ (x : HQueue), s.queues.find q = some x →
      (s.isPending q x = true → 0 < s.pkg.quantum → x.since ≤ s.now 0 →
        ∃ n : Nat, exec (.ageingQuantum q) s = .next ((s.runTo 0 (x.since + n * (s.pkg.quantum * 65536))).post .queueBind) ∧
          s.now 0 < x.since + n * (s.pkg.quantum * 65536) ∧ x.since + n * (s.pkg.quantum * 65536) ≤ s.now 0 + s.pkg.quantum * 65536) ∧
      (x.ready ≠ none → x.failed = false → exec (.notbeforePassed q) s = .next ((s.runTo 0 x.notBefore).post .queueBind))) ∧
    (∀ u, (s.runTo 0 u).mem = s.mem ∧ (s.runTo 0 u).ctxs = s.ctxs ∧
      ((s.die 0).power ≠ .d3 → (s.die 0).offset = 0 → s.now 0 ≤ u → u < s.now 0 + 2 ^ 63 → (s.runTo 0 u).now 0 = u)) ∧
    (∀ (b : Nat), (s.launch slot).state = .running → (s.launch slot).limit ≠ 0 → (s.launch slot).began = some b → slot < 1024 →
      ∃ t, exec (.limitExpiry slot) s = .next t ∧
        (s.runTo 0 (b + ((s.launch slot).limit * 1000 * 65536 - (s.launch slot).used))).LaunchOver t slot 2 3) ∧
    ((s.launch slot).limit = 0 → exec (.limitExpiry slot) s = .next s) ∧
    (∀ (seq : Nat), s.TakesCommands →
      (slot < 1024 → (s.launch slot).state ≠ .free → ∃ t : State, exec (.endLaunch seq slot) s = .next (t.commandDone seq slot 0) ∧ s.LaunchOver t slot 2 2) ∧
      (1024 ≤ slot ∨ (s.launch slot).state = .free → exec (.endLaunch seq slot) s = .next (s.commandDone seq 0xFFFF 1)))

/-- R489, R490: an event is written to its queue's ring, its PHASE by the pass, and then the tail index; it waits where the ring has no room beyond the 16 entries that the events of launches
keep. The vector is signalled once per microsecond at most. The host's head index lets events that wait be written. -/
def Parts.EventQueues : Prop :=
  ∀ (s : State) (n : Nat) (q : EvQ), s.evqs.find n = some q →
    (∀ (e : HostEvent), q.buffer = [] → q.head ≤ q.tail → q.tail < 2 ^ 63 → e.type < 128 →
      let used := q.tail - q.head
      let room := if e.type = 2 ∨ e.type = 3 ∨ e.type = 4 then used < q.entries else used + 16 < q.entries
      let at_ := q.base + 128 * (q.tail % q.entries)
      let t := s.hostEvent n e
      (room → t.evqs.find n = some { q with tail := q.tail + 1, owed := true } ∧ t.agenda = s.agenda ++ [.eventVectorSignal n] ∧
        ((q.header + 8 ≤ at_ ∨ at_ + 128 ≤ q.header) → t.mem.readN q.header 8 = q.tail + 1 ∧
          t.mem.readN at_ 1 = e.type ∧ t.mem.readN (at_ + 1) 1 = (if q.tail / q.entries % 2 = 0 then 128 else 0) ∧
          t.mem.readN (at_ + 2) 2 = e.slot % 2 ^ 16 ∧ t.mem.readN (at_ + 4) 4 = e.tag % 2 ^ 32 ∧ t.mem.readN (at_ + 8) 8 = s.now 0 % 2 ^ 64 ∧
          t.mem.readN (at_ + 16) 8 = e.info % 2 ^ 64 ∧ t.mem.readN (at_ + 24) 40 = 0 ∧ t.mem.readN (at_ + 64) 64 = e.payload % 2 ^ 512) ∧
        ∀ a, ¬(at_ ≤ a ∧ a < at_ + 128) → ¬(q.header ≤ a ∧ a < q.header + 8) → t.mem.read a = s.mem.read a) ∧
      (¬room → t = { s with evqs := s.evqs.put n { q with buffer := q.buffer ++ [e] } })) ∧
    (∀ (e : HostEvent), q.buffer ≠ [] → s.hostEvent n e = { s with evqs := s.evqs.put n { q with buffer := q.buffer ++ [e] } }) ∧
    (q.owed = true →
      let signals := fun (t : State) => exec (.eventVectorSignal n) s =
        .next { t with evqs := s.evqs.put n { q with owed := false, signalled := some (t.now 0), signals := q.signals + 1 } }
      ((∀ e ∈ s.evqs, e.2.vector = q.vector → e.2.signalled = none) → signals s) ∧
      (∀ u, (∃ e ∈ s.evqs, e.2.vector = q.vector ∧ e.2.signalled = some u) → (∀ e ∈ s.evqs, e.2.vector = q.vector → ∀ v, e.2.signalled = some v → v ≤ u) →
        signals (s.runTo 0 (u + 1000 * 65536)))) ∧
    (∀ (head : Nat),
      let q' := { q with head := head % 2 ^ 64 }
      let t : State := { s with evqs := s.evqs.put n q', mem := s.mem.writeN (q.header + 8) 8 (head % 2 ^ 64) }
      (q.buffer = [] → exec (.eventHeadAdvance n head) s = .next t) ∧
      (∀ e, q.buffer = [e] → q'.room e = true → ∃ t' : State, exec (.eventHeadAdvance n head) s = .next t' ∧
        t'.evqs.find n = some { q' with buffer := [], tail := (q.tail + 1) % 2 ^ 64, owed := true }))

/-- R507, R512: PREEMPT is checked and begun; its steps follow each other as what they wait for comes; the last one writes the image and leaves the launch SAVED. -/
def Parts.Saves : Prop :=
  ∀ (s : State) (seq slot area len : Nat), seq < 2 ^ 32 →
    let l := s.launch slot
    let cores := s.coresOf l
    let ev := Instr.preempt seq slot area len
    let again := fun (t : State) => exec ev s = .next (t.post (.preempt seq slot area len))
    (s.TakesCommands → l.save = none → slot < 1024 →
      (l.state = .running → area % 65536 = 0 → 0x10000 + l.clusters.length * 0x1204000 ≤ len →
        ∃ t : State, again t ∧ (∀ c ∈ cores, (t.core c).saving = true) ∧ t.mem = s.mem ∧ t.ctxs = s.ctxs ∧ t.launch slot =
          { l with save := some 1, area := some area, cmd := some seq, began := none, used := l.used + match l.began with
            | some u => s.now 0 - u
            | none => 0 }) ∧
      (l.state ≠ .running ∨ area % 65536 ≠ 0 ∨ len < 0x10000 + l.clusters.length * 0x1204000 →
        exec ev s = .next (s.commandDone seq (s.named slot) 1))) ∧
    (l.cmd = some seq → l.state = .running →
      (l.save = some 1 → (∀ n ∈ l.clusters, ∀ e ∈ (s.cluster n).barriers, e.2.releasing = false) → again ((s.stopLaunch l).toStep slot 2)) ∧
      (l.save = some 1 → (∃ n ∈ l.clusters, ∃ e ∈ (s.cluster n).barriers, e.2.releasing = true) → again s) ∧
      (l.save = some 2 → s.quiet l = true → again (s.toStep slot 3)) ∧
      (l.save = some 3 → s.drained l = true → again (s.toStep slot 4)) ∧
      (l.save = some 4 → (∀ c ∈ cores, (s.core c).claims = []) → (∀ d, d < 8 → (s.die d).held = []) → ∃ t : State, again t ∧ (t.launch slot).save = some 5 ∧ t.mem = s.mem ∧ t.ctxs = s.ctxs ∧
        ∀ d, d < 8 → ∀ e ∈ (t.die d).locks, ∀ k ∈ s.ctxsOf l, ¬(e.core = coreOf k ∧ e.xfer = pinOf k)) ∧
      (l.save = some 5 → ∃ t : State, again t ∧ (t.launch slot).save = some 6 ∧ ∀ c ∈ cores, (t.core c).l1 = []) ∧
      (∀ s1, l.save = some 6 → s.settled l = (false, s1) → again s1) ∧
      (∀ s1, l.save = some 6 → s.settled l = (true, s1) → (s1.spillDeques l).dequesSpilled l = false → ((s1.spillDeques l).launch slot).save ≠ none →
        again (s1.spillDeques l)) ∧
      (∀ s1, l.save = some 6 → s.settled l = (true, s1) → (s1.spillDeques l).dequesSpilled l = true →
        let u := s1.spillDeques l
        ∃ (t : State) (v : Saved), exec ev s = .next (t.commandDone seq slot 0) ∧ (t.launch slot).state = .saved ∧
          (t.launch slot).saved = some v ∧ (∀ c ∈ cores, (t.core c).slot = none ∧ ∀ i, i < 8 → (t.ctx (c * 8 + i)).state = .free) ∧
          ∀ k ∈ s.ctxsOf l, ∃ c, v.ctxs.find k = some c ∧ c.regs = (u.ctx k).regs ∧ c.pc = (u.ctx k).pc ∧ c.gen = (u.ctx k).gen ∧ c.win.seq = (u.ctx k).win.seq ∧
            c.win.done = (u.ctx k).win.done))

/-- R510: the register block image of a context whose results have all been written. -/
def Parts.SavedImages : Prop :=
  ∀ (s : State) (at_ k : Nat), (s.ctx k).win.outst = [] →
    let c := s.ctx k
    let m := (s.saveCtx at_ k).mem
    let i := at_ + 0x3000 + k % 8 * 4096
    (∀ r : Reg, m.readN (i + 8 * r.toNat) 8 = (c.regs.rs r).toNat) ∧ (∀ r : Reg, m.readN (i + 0x100 + 64 * r.toNat) 64 = (c.regs.rv r).toNat) ∧
    (∀ r : KReg, m.readN (i + 0x900 + 8 * r.toNat) 8 = if r = 0 then 0 else (c.regs.rk r).toNat) ∧ m.readN (i + 0x940) 8 = c.pc.toNat ∧
    m.readN (i + 0x94A) 1 = c.state.code ∧ m.readN (i + 0x94B) 1 = c.gen % 256 ∧ m.readN (i + 0x950) 8 = c.fflags.toNat ∧
    m.readN (i + 0x958) 8 = c.vstat.toNat ∧ m.readN (i + 0x960) 8 = c.ltime % 2 ^ 64 ∧ m.readN (i + 0x968) 8 = c.tvec.toNat ∧
    m.readN (i + 0x970) 8 = c.tcause.toNat ∧ m.readN (i + 0x980) 8 = c.tepc.toNat ∧ m.readN (i + 0x9B0) 8 = c.mbx.toNat ∧
    m.readN (i + 0x9C8) 8 = c.svec.toNat ∧ m.readN (i + 0x9E0) 8 = c.sepc.toNat ∧
    ∀ a, ¬(i ≤ a ∧ a < i + 4096) → m.read a = s.mem.read a

/-- R402, R513: RESTORE lets a saved launch wait for its clusters; when it is bound, its cores and contexts stand as they were saved, and the launch runs. -/
def Parts.Restores : Prop :=
  ∀ (s : State) (slot : Nat),
    let l := s.launch slot
    (∀ (seq : Nat), s.TakesCommands →
      (slot < 1024 → l.state = .saved → (∀ n ∈ l.clusters, (s.die (n / 32)).lost = false) → exec (.restore seq slot) s =
        .next ((s.modLaunch slot fun l => { l with wanted := true, cmd := some seq }).post .queueBind)) ∧
      (1024 ≤ slot ∨ l.state ≠ .saved ∨ (∃ n ∈ l.clusters, (s.die (n / 32)).lost = true) → exec (.restore seq slot) s =
        .next (s.commandDone seq (s.named slot) 1))) ∧
    (∀ (w : Machine.Waiting) (v : Saved) (seq : Nat), firstWaiting (s.allWaiting.filter s.placeable) = some w → w.slot = some slot → l.saved = some v → l.state = .saved →
      l.cmd = some seq → seq < 2 ^ 32 → v.arrivals = [] → v.replies = [] → v.ctxs.map (·.1) = s.ctxsOf l → v.cores.map (·.1) = s.coresOf l → (s.coresOf l).Nodup →
      (∀ e ∈ v.ctxs, e.2.win.outst = [] ∧ e.2.state = .running) →
      ∃ t : State, exec .queueBind s = .next ((t.commandDone seq slot 0).post .queueBind) ∧ (t.launch slot).state = .running ∧ (t.launch slot).saved = none ∧
        (∀ e ∈ v.ctxs, (t.ctx e.1).regs = e.2.regs ∧ (t.ctx e.1).pc = e.2.pc ∧ (t.ctx e.1).gen = e.2.gen ∧ (t.ctx e.1).win = e.2.win ∧ (t.ctx e.1).state = e.2.state) ∧
        ∀ e ∈ v.cores, (t.core e.1).pword = e.2.pword ∧ (t.core e.1).scratch = e.2.scratch ∧ (t.core e.1).share = e.2.share ∧
          (t.core e.1).handlers = e.2.handlers ∧ (t.core e.1).deque = e.2.deque ∧ (t.core e.1).recv = e.2.recv ∧ (t.core e.1).dirty = e.2.dirty ∧
          (v.moved.contains e.1 = false → (t.core e.1).tiles = e.2.tiles) ∧ ((t.core e.1).lease.state = .none ∨ (t.core e.1).lease.state = .spent))

/-- R255, R402, R480 to R487, R489 to R491, R507, R510, R512, R513: the host's queues, commands on launches, event queues, saves and restores.
The limits beyond R480's and the zeroed header (log 59), SIGNAL queues before starving ones (log 56), HEAD at the bind (log 54), the default
event queue of a failed entry (log 58), NOTBEFORE as a count (log 21), 0xFFFF in COMMAND_DONE (log 78), the steps of a save (log 19) and the
kept record (log 17) are the model's. -/
def Obligations.QueueEvents : Prop :=
  Parts.QueueCommands ∧ Parts.EntryChecks ∧ Parts.QueueEntries ∧ Parts.LaunchBinding ∧ Parts.QueueTimes ∧ Parts.EventQueues ∧ Parts.Saves ∧ Parts.SavedImages ∧ Parts.Restores

/-! ### Events of the package -/

/-- R319: the host command BIASFLIP: at once where the page has the bias, by the drops and the write of the leaf to host bias, by a request to the host to device bias. -/
def Parts.BiasFlipCommands : Prop :=
  ∀ (s : State) (seq page : Nat) (host : Bool), s.TakesCommands →
    let pte := s.mem.readN page 8
    let base := leafPA pte 3 0
    let done := fun (t : State) (status : Nat) => exec (.biasflip seq page host) s = .next (t.commandDone seq 0xFFFF status)
    ((pte.testBit 0 = false ∨ pteLeaf pte = false) → done s 1) ∧
    (pte.testBit 0 = true → pteLeaf pte = true →
      ((∃ f ∈ s.flips, f.pteAt = page) → exec (.biasflip seq page host) s = .next (s.post (.biasflip seq page host))) ∧
      ((∀ f ∈ s.flips, f.pteAt ≠ page) → pte.testBit 6 = host → done s 0) ∧
      ((∀ f ∈ s.flips, f.pteAt ≠ page) → pte.testBit 6 ≠ host → host = true → ∃ t : State, done t 0 ∧
        (let s0 := s.dropPage base (pageSize 3)
         t.mem.readN page 8 = setBits ((if s.local_ page then s0.recall (page / 64) else s0).mem.readN page 8) 6 1 1) ∧
        (∀ d, d < 8 → (∀ e ∈ (t.die d).owned, inPage base (pageSize 3) e.1 = false) ∧ (∀ e ∈ (t.die d).guest, inPage base (pageSize 3) e.1 = false) ∧
          ∀ x ∈ (t.die d).tlb, x.pteAt ≠ page) ∧ ∀ c, ∀ e ∈ (t.core c).l1, inPage base (pageSize 3) e.1 = false) ∧
      ((∀ f ∈ s.flips, f.pteAt ≠ page) → pte.testBit 6 ≠ host → host = false → exec (.biasflip seq page host) s =
        .next (({ s with flips := s.flips ++ [{ pteAt := page, base := base, size := pageSize 3, ctx := none, seq := seq, done := false }] } : State).post
          (.hostWritebackCompletion base))))

/-- R282, R307, R515: a SCRUB clears a page and its poison; DIE_LOST poisons what the die owned, drops the copies of its lines, and ends the launches that run there with 0x11. -/
def Parts.ScrubsAndLosses : Prop :=
  ∀ (s : State) (seq : Nat), s.TakesCommands →
    (∀ (page : Nat),
      let d := s.die (homeDie page)
      (page % 65536 = 0 → s.local_ page = true → d.lost = false → d.power ≠ .d3 → ∃ t : State, exec (.scrub seq page) s = .next (t.commandDone seq 0xFFFF 0) ∧
        (∀ a, t.mem.read a = if page ≤ a ∧ a < page + 65536 then 0 else (s.dropPage page 65536).mem.read a) ∧
        (∀ l ∈ t.poison, ¬(page ≤ l * 64 ∧ l * 64 < page + 65536)) ∧ (∀ l ∈ s.poison, ¬(page ≤ l * 64 ∧ l * 64 < page + 65536) → l ∈ t.poison)) ∧
      (page % 65536 ≠ 0 ∨ s.local_ page = false ∨ d.lost = true ∨ d.power = .d3 → exec (.scrub seq page) s = .next (s.commandDone seq 0xFFFF 1))) ∧
    (∀ (die : Nat), die < 8 → (s.die die).lost = false → ∃ t : State, exec (.dieLost seq die) s = .next (t.commandDone seq 0xFFFF 0) ∧
      (t.die die).lost = true ∧ (t.die die).owned = [] ∧ (t.die die).guest = [] ∧ (t.die die).inbox = [] ∧
      (∀ e ∈ (s.die die).owned, homeDie (e.1 * 64) ≠ die → e.1 ∈ t.poison) ∧ (∀ l ∈ s.poison, l ∈ t.poison) ∧
      (∀ d, d < 8 → (∀ e ∈ (t.die d).owned, s.inDie die (e.1 * 64) = false) ∧ ∀ e ∈ (t.die d).guest, s.inDie die (e.1 * 64) = false) ∧
      (∀ n, (s.launch n).state = .running → (∃ m ∈ (s.launch n).clusters, m / 32 = die) → (t.launch n).state = .free)) ∧
    (∀ (die : Nat), 8 ≤ die ∨ (s.die die).lost = true → exec (.dieLost seq die) s = .next (s.commandDone seq 0xFFFF 1))

/-- R306, R514, R517, R518: power states. A state is refused while launches hold the die; D3 loses the die's memory; a die that leaves D3 takes its clock from the grandmaster; a warm reset
clears cores and units, and keeps the clocks. -/
def Parts.PowerStates : Prop :=
  ∀ (s : State) (seq die : Nat), s.TakesCommands → die < 8 →
    let on := fun (states : List SlotUse) => ∃ e ∈ s.launches, e.2.state ∈ states ∧ ∃ n ∈ e.2.clusters, n / 32 = die
    let rejects := fun (i : Instr) => exec i s = .next (s.commandDone seq 0xFFFF 1)
    (on [.running] → rejects (.setPower seq die 2)) ∧ (on [.running, .saved] → rejects (.setPower seq die 3)) ∧ (∀ n, 4 ≤ n → rejects (.setPower seq die n)) ∧
    (∀ n, n < 3 → (n = 2 → ¬on [.running]) → (s.die die).power ≠ .d3 → ∃ t : State, exec (.setPower seq die n) s = .next (t.commandDone seq 0xFFFF 0) ∧
      (t.die die).power = (if n = 0 then .d0 else if n = 1 then .d1 else .d2) ∧ (t.die die).tclk = (s.die die).tclk ∧ (t.die die).cyc = (s.die die).cyc ∧
      ∀ d, d ≠ die → (t.die d).power = (s.die d).power) ∧
    (¬on [.running, .saved] → (s.die die).power ≠ .d3 → ∃ t : State, exec (.setPower seq die 3) s = .next (t.commandDone seq 0xFFFF 0) ∧
      (t.die die).power = .d3 ∧ (t.die die).up = false ∧ (t.die die).cyc = 0 ∧ (t.die die).loss = true ∧ (t.die die).bound = 0xFFFF ∧
      (∀ a, s.inDie die a = true → t.mem.read a = 0) ∧ (∀ k, dieOf (coreOf k) = die → (t.ctx k).state = .free) ∧
      ∀ d, d < 8 → ∀ e ∈ (t.die d).guest, s.inDie die (e.1 * 64) = false) ∧
    ((s.die die).power = .d3 → ∃ t : State, exec (.setPower seq die 0) s = .next (t.commandDone seq 0xFFFF 0) ∧
      (t.die die).power = .d0 ∧ (t.die die).up = true ∧ (t.die die).mhz = 2100 ∧ (t.die die).cyc = 0 ∧ (t.die die).home = 0 ∧ (t.die die).ptroot = 0 ∧
      (t.die die).ltperiod = 1000 ∧ (t.die die).lease = 16 ∧
      (t.die die).tclk = s.now s.pkg.gmDie ∧ (t.die die).loss = true ∧ (t.die die).bound = 0xFFFF ∧ (t.die die).xbound = 0xFFFF ∧
      1 ≤ (t.die die).service ∧ (t.die die).service ≤ 4 ∧ ∀ k, dieOf (coreOf k) = die → (t.ctx k).state = .free ∧ (t.ctx k).gen = 0) ∧
    (on [.running] ∨ (s.die die).power ≠ .d0 ∨ (s.die die).lost = true → rejects (.warmReset seq die)) ∧
    (¬on [.running] → (s.die die).power = .d0 → (s.die die).lost = false → (∀ e ∈ (s.die die).inbox, ∀ r ∈ e.2, r.fault ≠ none) →
      ∃ t : State, exec (.warmReset seq die) s = .next ((t.commandDone seq 0xFFFF 0).post .queueBind) ∧
        (t.die die).tclk = (s.die die).tclk ∧ (t.die die).cyc = (s.die die).cyc ∧ (t.die die).loss = (s.die die).loss ∧ (t.die die).power = .d0 ∧
        (t.die die).ptroot = 0 ∧ (t.die die).ltperiod = 1000 ∧ (t.die die).lease = 16 ∧ (t.die die).owned = [] ∧ (t.die die).guest = [] ∧ (t.die die).tlb = [] ∧
        (t.die die).inbox = [] ∧ (t.die die).locks = [] ∧
        ∀ k, dieOf (coreOf k) = die → (t.ctx k).state = .free ∧ (t.ctx k).gen = ((s.ctx k).gen + 1) % 256)

/-- R277, R279, R485, R491, R493, R519, R520: gates, clocks, the envelope, package numbers, routes and the grandmaster. -/
def Parts.PackageSettings : Prop :=
  ∀ (s : State) (seq : Nat), s.TakesCommands →
    let rejects := fun (i : Instr) => exec i s = .next (s.commandDone seq 0xFFFF 1)
    let does := fun (i : Instr) (t : State) => exec i s = .next (t.commandDone seq 0xFFFF 0)
    let occupied := fun (n : Nat) => ∃ e ∈ s.launches, e.2.state = .running ∧ n ∈ e.2.clusters
    (∀ n gate, (n < 256 → (gate = true → ¬occupied n) → ∃ t : State, exec (.clusterGate seq n gate) s = .next ((t.commandDone seq 0xFFFF 0).post .queueBind) ∧
        (t.cluster n).gated = gate ∧ ∀ m, m ≠ n → t.cluster m = s.cluster m) ∧
      (256 ≤ n ∨ gate = true ∧ occupied n → rejects (.clusterGate seq n gate))) ∧
    (∀ die mhz, (die < 8 → 1600 ≤ mhz → mhz ≤ 2300 → mhz % 25 = 0 → does (.setClock seq die mhz) (s.modDie die fun x => { x with mhz := mhz })) ∧
      (mhz < 1600 ∨ 2300 < mhz ∨ mhz % 25 ≠ 0 → rejects (.setClock seq die mhz))) ∧
    (∀ w, (600 ≤ w → w ≤ 1900 → does (.setEnvelope seq w) { s with pkg := { s.pkg with envelope := w } }) ∧
      (w < 600 ∨ 1900 < w → rejects (.setEnvelope seq w))) ∧
    (∀ f : RouteSpec, (f.pkg < 256 → f.links.length = 4 → (∀ l ∈ f.links, l < 12) →
        does (.setRoute seq f) { s with pkg := { s.pkg with routes := s.pkg.routes.put f.pkg f.links } }) ∧
      (256 ≤ f.pkg ∨ f.links.length ≠ 4 ∨ (∃ l ∈ f.links, 12 ≤ l) → rejects (.setRoute seq f))) ∧
    (∀ n, n < 256 → s.pkg.number < 256 → n ≠ s.pkg.number → (s.dropPage (s.pkg.number * 2 ^ 39) (2 ^ 39)).mem.wf = true → ∃ t : State, does (.setPkgnum seq n) t ∧ t.pkg.number = n ∧
      (∀ o, o < 2 ^ 39 → t.mem.read (n * 2 ^ 39 + o) = (s.dropPage (s.pkg.number * 2 ^ 39) (2 ^ 39)).mem.read (s.pkg.number * 2 ^ 39 + o)) ∧
      ∀ a, 2 ^ 51 ≤ a → t.mem.read a = (s.dropPage (s.pkg.number * 2 ^ 39) (2 ^ 39)).mem.read a) ∧
    (s.pkg.number < 256 → does (.setPkgnum seq s.pkg.number) s) ∧
    (∀ n, 256 ≤ n → rejects (.setPkgnum seq n)) ∧
    (∀ die sysref, (die < 8 → ∃ t : State, does (.setGm seq die sysref) t ∧ t.pkg.gmDie = die ∧ t.pkg.sysref = sysref ∧ (∀ d, (t.die d).tclk = (s.die d).tclk) ∧
        (die ≠ s.pkg.gmDie → (t.die die).loss = (s.die die).loss ∧ (t.die die).bound = if (s.die die).loss = true then (s.die die).bound else 0)) ∧
      (8 ≤ die → rejects (.setGm seq die sysref)))

/-- R521: a trip puts every die into D3, loses its memory, ends every launch and signals MSI-X vector 0; a command in a trip is rejected, but SET_POWER to D0 is taken, and bring-up runs again once every die has
had it. -/
def Parts.Trips : Prop :=
  ∀ (s : State),
    (s.pkg.trip = none →
      let off := fun (t : State) => (∀ d, d < 8 → (t.die d).power = .d3 ∧ (t.die d).up = false ∧ (t.die d).cyc = 0 ∧ (t.die d).loss = true) ∧
        (∀ n, (t.launch n).state = .free) ∧ (∀ a, s.local_ a = true → t.mem.read a = 0) ∧ t.net = [] ∧
        t.pkg.tripSignals = s.pkg.tripSignals + 1 ∧ ∀ k, k < contextCount → (t.ctx k).state = .free
      (∀ sensor, ∃ t, exec (.thermalTrip sensor) s = .next t ∧ t.pkg.trip = some sensor ∧ off t) ∧
      ∃ t, exec .coolantFlowTrip s = .next t ∧ t.pkg.trip = some (Config.freeWord s.draws).toNat ∧ off t) ∧
    (∀ x, s.pkg.trip = some x → exec .coolantFlowTrip s = .next s ∧ (∀ sensor, exec (.thermalTrip sensor) s = .next s) ∧
      (6 ≤ s.pkg.bringup → s.commandBusy = false →
        (∀ (seq ns q core payload die : Nat), exec (.setQuantum seq ns) s = .next (s.commandDone seq 0xFFFF 1) ∧
          exec (.destroyQueue seq q) s = .next (s.commandDone seq 0xFFFF 1) ∧ exec (.hostcmd seq core payload) s = .next (s.commandDone seq 0xFFFF 1) ∧
          exec (.setPower seq die 3) s = .next (s.commandDone seq 0xFFFF 1) ∧ exec (.dieLost seq die) s = .next (s.commandDone seq 0xFFFF 1)) ∧
        (∀ (seq die : Nat), die < 8 → (s.die die).power = .d3 → ∃ t : State, exec (.setPower seq die 0) s = .next (t.commandDone seq 0xFFFF 0) ∧
          (t.die die).power = .d0 ∧
          ((∃ d, d < 8 ∧ d ≠ die ∧ (s.die d).power ≠ .d0) → t.pkg = s.pkg ∧ t.agenda = s.agenda) ∧
          ((∀ d, d < 8 → d ≠ die → (s.die d).power = .d0) → t.pkg = { s.pkg with trip := none, bringup := 0 } ∧
            t.agenda = s.agenda ++ [.bringUp, .bringUp, .bringUp, .bringUp, .bringUp, .bringUp]))))

/-- R524 to R526: the steps of the bring-up, and the measurements. An image is accepted where it is genuine and its level is not behind the counter; its level raises the counter. -/
def Parts.BringUp : Prop :=
  ∀ (s : State),
    let ok := fun (i : Nat) => Config.imageGenuine i = true ∧ Config.fusedRollback ≤ Config.imageLevel i ∧ s.pkg.rollback ≤ Config.imageLevel i
    let ends := fun (t : State) => exec .bringUp s = .next t ∧ t.pkg.bringup = s.pkg.bringup + 1
    (s.pkg.bringup = 0 →
      (¬ok 0 → ¬ok 1 → exec .bringUp s = .next s) ∧
      (∀ i, (ok 0 ∧ i = 0 ∨ ¬ok 0 ∧ ok 1 ∧ i = 1) → ∃ t, ends t ∧ t.pkg.image = some i ∧ t.pkg.rollback = Config.imageLevel i ∧
        (∀ n, Tab.get 0 t.pkg.meas n = if n = 0 then sha256 (Tab.get (0 : BitVec 256) s.pkg.meas 0 ++ Config.romDigest)
          else if n = 1 then sha256 (Tab.get (0 : BitVec 256) s.pkg.meas 1 ++ Config.imageDigest i)
          else if n = 2 then sha256 (Tab.get (0 : BitVec 256) s.pkg.meas 2 ++ Config.queueDigest i) else Tab.get 0 s.pkg.meas n) ∧ t.mem = s.mem)) ∧
    (s.pkg.bringup = 1 → ∃ t, ends t ∧ (∀ a, s.local_ a = true → t.mem.read a = 0) ∧ ∀ l, s.local_ (l * 64) = true → t.lineStamps l = (0, 0)) ∧
    (s.pkg.bringup = 2 → ∃ t, ends t ∧ (∀ d, d < 8 → (t.die d).power = .d0 ∧ (t.die d).mhz = 2100 ∧ (t.die d).up = true ∧ (t.die d).home = 0 ∧
        1 ≤ (t.die d).service ∧ (t.die d).service ≤ 4 ∧ (t.die d).loss = true ∧ (t.die d).bound = 0xFFFF) ∧
      Tab.get 0 t.pkg.meas 3 = sha256 (Tab.get (0 : BitVec 256) s.pkg.meas 3 ++ Config.configDigest)) ∧
    (s.pkg.bringup = 3 →
      ((∀ d, d < 8 → (s.die d).loss = false) → ∃ t, ends t ∧ t.mem = s.mem ∧ t.agenda = s.agenda) ∧
      ((∃ d, d < 8 ∧ (s.die d).loss = true) → exec .bringUp s = .next { s with agenda := s.agenda ++
        (((List.range 8).filter fun d => (s.die d).loss && (s.die d).exch.isNone).map fun d => Event.treutExchange d) ++ [.bringUp] })) ∧
    (s.pkg.bringup = 4 → ∃ t, ends t ∧ t.pkg.oldPeers = (List.range 12).filter Config.oldPeer ∧ t.mem = s.mem) ∧
    (s.pkg.bringup = 5 → ∃ t, ends t ∧ t.agenda = s.agenda ++ [.queueBind] ∧ t.mem = s.mem)

/-- R527: a report holds the counter, the firmware's version, the nonce, the measurements, the time and the package's number, and a signature of all these. -/
def Parts.AttestationReports : Prop :=
  ∀ (s : State) (nonce i : Nat), s.pkg.image = some i → s.pkg.number < 256 →
    ∃ r : Nat, exec (.attestationReport nonce) s = .next { s with pkg := { s.pkg with nonce := some (nonce % 2 ^ 256), report := some r } } ∧
      let f := fun (o n : Nat) => r / 2 ^ (8 * o) % 2 ^ (8 * n)
      f 0 4 = 1 ∧ f 4 4 = max Config.fusedRollback s.pkg.rollback % 2 ^ 32 ∧ f 8 8 = Config.imageVersion i % 2 ^ 64 ∧ f 16 32 = nonce % 2 ^ 256 ∧
      (∀ n, n < 4 → ∀ b, b < 32 → f (48 + 32 * n + b) 1 = (Tab.get (0 : BitVec 256) s.pkg.meas n).toNat / 256 ^ (31 - b) % 256) ∧
      f 176 8 = s.now 0 % 2 ^ 64 ∧ f 184 8 = s.pkg.number ∧ f 192 64 = (Config.signature (f 0 192)).toNat ∧ r < 2 ^ 2048

/-- R277 to R279, R282, R306, R307, R319, R491, R493, R514, R515, R517 to R521, R524 to R527: the package as the host manages it.
The transitions that are accepted (log 61), the grandmaster's D3 exit (log 62), the conditions of a warm reset (log 63), of a loss (log 64)
and of SCRUB (log 65), the coolant sensor (log 66), the images (log 68), unwritten memory that reads 0 (log 7) and the operand of BIASFLIP
(log 38) are the model's. -/
def Obligations.PackageEvents : Prop :=
  Parts.BiasFlipCommands ∧ Parts.ScrubsAndLosses ∧ Parts.PowerStates ∧ Parts.PackageSettings ∧ Parts.Trips ∧ Parts.BringUp ∧ Parts.AttestationReports

/-! ### Events of the monitors and of the clocks -/

/-- R522, R523: a unit's control word keeps its fields; CLEAR zeroes what has been captured; a sample changes MIN, MAX, COUNT, SUM and, a latency, one bin. That a cleared MIN reads all ones, as
after reset, is the model's choice (log 80). -/
def Parts.Monitors : Prop :=
  ∀ (s : State) (die unit : Nat), die < 8 → unit < 32 →
    let m := s.monitor die unit
    let only := fun (t : State) (x : Monitor) => t.monitor die unit = x ∧ t.mem = s.mem ∧ t.ctxs = s.ctxs ∧
      ∀ d u, (d, u) ≠ (die, unit) → t.monitor d u = s.monitor d u
    (∀ x, ∃ t, exec (.monitorControlWrite die unit x) s = .next t ∧
      only t { (if x.testBit 16 then { Monitor.reset with ctl := m.ctl } else m) with
        ctl := x / 2 ^ 32 % 2 ^ 32 * 2 ^ 32 + (if x.testBit 17 then 2 ^ 17 else 0) + x % 2 ^ 16 }) ∧
    (∃ t, exec (.monitorClear die unit) s = .next t ∧ only t { ctl := m.ctl, min := 2 ^ 64 - 1, max := 0, count := 0, sum := 0, bins := [] }) ∧
    (let source := m.ctl / 2 % 2 ^ 15
     let arg := m.ctl / 2 ^ 32 % 2 ^ 32
     let on := m.ctl.testBit 0 = true ∧ m.ctl.testBit 17 = false
     (on → source = 6 ∨ source = 9 → ∃ t, exec (.monitorLevelSample die unit) s = .next t ∧ only t (m.sample (Config.freeWord s.draws).toNat false)) ∧
     (on → source = 10 → arg ≠ 2 ^ 32 - 1 → ∃ t, exec (.monitorLevelSample die unit) s = .next t ∧ only t (m.sample (Tab.get 0 s.pkg.retries arg) false)) ∧
     (on → source = 10 → arg = 2 ^ 32 - 1 → ∃ t, exec (.monitorLevelSample die unit) s = .next t ∧ only t (m.sample (s.pkg.retries.map (·.2)).sum false)) ∧
     (¬on → exec (.monitorLevelSample die unit) s = .next s)) ∧
    ∀ (v : Nat) (latency : Bool),
      let top := 2 ^ 64 - 1
      let y := m.sample v latency
      let b := min 15 (Nat.log2 v)
      y.ctl = m.ctl ∧ y.min = min m.min v ∧ y.max = max m.max v ∧ y.count = min (m.count + 1) top ∧ y.sum = min (m.sum + v) top ∧
      ∀ j, Tab.get 0 y.bins j = if latency = true ∧ j = b then min (Tab.get 0 m.bins j + 1) top else Tab.get 0 m.bins j

/-- R277 to R279: the two-step exchange of a die that takes part, its four stamps, and what its completion or its loss does to the die's state of synchronisation. A stamp of another package is
a free value. -/
def Parts.TimeExchanges : Prop :=
  ∀ (s : State) (die : Nat), die < 8 →
    let d := s.die die
    let own := die ≠ s.pkg.gmDie
    let only := fun (t : State) (x : Die) => t.die die = x ∧ (∀ e, e ≠ die → t.die e = s.die e) ∧ t.mem = s.mem ∧ t.ctxs = s.ctxs
    (s.exchanges die = true → d.exch = none → s.outOfSync die = true ∨ s.reached die (d.lastSync + 2 ^ 20 * 65536 * (d.missed + 1)) = true →
      ∃ t, exec (.treutExchange die) s = .next t ∧ t.agenda = s.agenda ++ [.treutSyncReceive die] ∧
        only t { d with exch := some { stage := 1, t1 := if own then s.now s.pkg.gmDie else (Config.freeWord s.draws).toNat, t2 := 0, t3 := 0, t4 := 0 } }) ∧
    (s.exchanges die = true → d.exch ≠ none → s.reached die (d.lastSync + 2 ^ 20 * 65536 * (d.missed + 1)) = true →
      exec (.treutExchange die) s = .next (s.post (.exchangeMissed die))) ∧
    (∀ x, d.exch = some x →
      (x.stage = 1 → ∃ t, exec (.treutSyncReceive die) s = .next t ∧ t.agenda = s.agenda ++ [.followUpReceive die] ∧
        only t { d with exch := some { x with t2 := if own then x.t1 + Config.linkDelay die + s.now die - s.now s.pkg.gmDie else s.now die, stage := 2 } }) ∧
      (x.stage = 2 → ∃ t, exec (.followUpReceive die) s = .next t ∧ t.agenda = s.agenda ++ [.delayReqReceive die] ∧
        only t { d with exch := some { x with t3 := s.now die, stage := 3 } }) ∧
      (x.stage = 3 → ∃ t, exec (.delayReqReceive die) s = .next t ∧ t.agenda = s.agenda ++ [.delayRespReceive die] ∧
        let t4 := if own then x.t3 + Config.linkDelay die + s.now s.pkg.gmDie - s.now die else (Config.freeWord s.draws).toNat
        only t { d with exch := some { x with t4 := t4, stage := 4 } }) ∧
      (x.stage = 4 → ∃ t, exec (.delayRespReceive die) s = .next t ∧
        let o : Int := (((x.t2 : Int) - x.t1) - ((x.t4 : Int) - x.t3)) / 2
        let y := { d with exch := none, missed := 0, lastSync := d.tclk, offset := o, slewmax := decide (2 ^ 20 * 65536 * 200 < o.natAbs * 10 ^ 6) }
        let gm := s.die s.pkg.gmDie
        t.mem = s.mem ∧ t.ctxs = s.ctxs ∧ (∀ e, e ≠ die → e ≠ s.pkg.gmDie → t.die e = s.die e) ∧
          t.die die = (if own then { y with bound := 3, loss := false } else { y with xbound := 37, xloss := false }) ∧
          (own → t.die s.pkg.gmDie = if gm.loss = true then { gm with loss := false, bound := 0 } else gm))) ∧
    ∃ t, exec (.exchangeMissed die) s = .next t ∧
      let n := min 255 (d.missed + 1)
      let grown := fun (base : Nat) => min 0xFFFF (base + ((d.tclk - d.lastSync) * 200 + 65535999999) / 65536000000)
      let y := { d with exch := none, missed := n }
      only t (if n < 3 then y
        else if own then { y with loss := true, bound := if d.bound = 0xFFFF then 0xFFFF else grown 3 }
        else { y with xloss := true, xbound := if d.xbound = 0xFFFF then 0xFFFF else grown 37 })

/-- R492: a retry of a link only counts. -/
def Parts.LinkRetries : Prop :=
  ∀ (s : State) (link : Nat), ∃ t, exec (.linkRetry link) s = .next t ∧ t = { s with pkg := t.pkg } ∧ t.pkg = { s.pkg with retries := t.pkg.retries } ∧
    ∀ l, Tab.get 0 t.pkg.retries l = Tab.get 0 s.pkg.retries l + if l = link then 1 else 0

/-- R277 to R279, R492, R522, R523: the events of the monitor units, of the exchanges of time and of the links.
That a cleared MIN reads all ones (log 80), which samples are free (log 70), the stamps of other packages (log 46) and the threshold of
SLEWMAX (log 45) are the model's. -/
def Obligations.MonitorAndClockEvents : Prop :=
  Parts.Monitors ∧ Parts.TimeExchanges ∧ Parts.LinkRetries
end

