-- ==== Sys2Proof/Laws/Exec.lean ====
section
/-! SUPPORT. The arm of each constructor, one lemma each, so that no proof unfolds the dispatch. -/

namespace Sys2Proof.Machine

theorem exec_add l d a b (s : State) : exec (.add l d a b) s = execAdd l d a b s := rfl
theorem exec_sub l d a b (s : State) : exec (.sub l d a b) s = execSub l d a b s := rfl
theorem exec_mul l d a b (s : State) : exec (.mul l d a b) s = execMul l d a b s := rfl
theorem exec_mulh l d a b (s : State) : exec (.mulh l d a b) s = execMulh l d a b s := rfl
theorem exec_mulhu l d a b (s : State) : exec (.mulhu l d a b) s = execMulhu l d a b s := rfl
theorem exec_div l d a b (s : State) : exec (.div l d a b) s = execDiv l d a b s := rfl
theorem exec_divu l d a b (s : State) : exec (.divu l d a b) s = execDivu l d a b s := rfl
theorem exec_rem l d a b (s : State) : exec (.rem l d a b) s = execRem l d a b s := rfl
theorem exec_remu l d a b (s : State) : exec (.remu l d a b) s = execRemu l d a b s := rfl
theorem exec_and l d a b (s : State) : exec (.and l d a b) s = execAnd l d a b s := rfl
theorem exec_or l d a b (s : State) : exec (.or l d a b) s = execOr l d a b s := rfl
theorem exec_xor l d a b (s : State) : exec (.xor l d a b) s = execXor l d a b s := rfl
theorem exec_andn l d a b (s : State) : exec (.andn l d a b) s = execAndn l d a b s := rfl
theorem exec_shl l d a b (s : State) : exec (.shl l d a b) s = execShl l d a b s := rfl
theorem exec_shr l d a b (s : State) : exec (.shr l d a b) s = execShr l d a b s := rfl
theorem exec_sar l d a b (s : State) : exec (.sar l d a b) s = execSar l d a b s := rfl
theorem exec_rotr l d a b (s : State) : exec (.rotr l d a b) s = execRotr l d a b s := rfl
theorem exec_min l d a b (s : State) : exec (.min l d a b) s = execMin l d a b s := rfl
theorem exec_max l d a b (s : State) : exec (.max l d a b) s = execMax l d a b s := rfl
theorem exec_minu l d a b (s : State) : exec (.minu l d a b) s = execMinu l d a b s := rfl
theorem exec_maxu l d a b (s : State) : exec (.maxu l d a b) s = execMaxu l d a b s := rfl
theorem exec_slt l d a b (s : State) : exec (.slt l d a b) s = execSlt l d a b s := rfl
theorem exec_sltu l d a b (s : State) : exec (.sltu l d a b) s = execSltu l d a b s := rfl
theorem exec_seq l d a b (s : State) : exec (.seq l d a b) s = execSeq l d a b s := rfl
theorem exec_clz l d a (s : State) : exec (.clz l d a) s = execClz l d a s := rfl
theorem exec_ctz l d a (s : State) : exec (.ctz l d a) s = execCtz l d a s := rfl
theorem exec_popc l d a (s : State) : exec (.popc l d a) s = execPopc l d a s := rfl
theorem exec_sext l d a w (s : State) : exec (.sext l d a w) s = execSext l d a w s := rfl
theorem exec_zext l d a w (s : State) : exec (.zext l d a w) s = execZext l d a w s := rfl
theorem exec_bfx l d a b (s : State) : exec (.bfx l d a b) s = execBfx l d a b s := rfl
theorem exec_bfi l d a b (s : State) : exec (.bfi l d a b) s = execBfi l d a b s := rfl
theorem exec_addsat l d a b (s : State) : exec (.addsat l d a b) s = execAddsat l d a b s := rfl
theorem exec_addi d a im (s : State) : exec (.addi d a im) s = execAddi d a im s := rfl
theorem exec_andi d a im (s : State) : exec (.andi d a im) s = execAndi d a im s := rfl
theorem exec_ori d a im (s : State) : exec (.ori d a im) s = execOri d a im s := rfl
theorem exec_xori d a im (s : State) : exec (.xori d a im) s = execXori d a im s := rfl
theorem exec_slti d a im (s : State) : exec (.slti d a im) s = execSlti d a im s := rfl
theorem exec_sltiu d a im (s : State) : exec (.sltiu d a im) s = execSltiu d a im s := rfl
theorem exec_shifti k d a n (s : State) : exec (.shifti k d a n) s = execShifti k d a n s := rfl
theorem exec_muli d a im (s : State) : exec (.muli d a im) s = execMuli d a im s := rfl
theorem exec_lui d im (s : State) : exec (.lui d im) s = execLui d im s := rfl
theorem exec_auipc d im (s : State) : exec (.auipc d im) s = execAuipc d im s := rfl
theorem exec_ldB l d a p (s : State) : exec (.ldB l d a p) s = execLdB l d a p s := rfl
theorem exec_ldBu l d a p (s : State) : exec (.ldBu l d a p) s = execLdBu l d a p s := rfl
theorem exec_ldH l d a p (s : State) : exec (.ldH l d a p) s = execLdH l d a p s := rfl
theorem exec_ldHu l d a p (s : State) : exec (.ldHu l d a p) s = execLdHu l d a p s := rfl
theorem exec_ldW l d a p (s : State) : exec (.ldW l d a p) s = execLdW l d a p s := rfl
theorem exec_ldWu l d a p (s : State) : exec (.ldWu l d a p) s = execLdWu l d a p s := rfl
theorem exec_ldD l d a p (s : State) : exec (.ldD l d a p) s = execLdD l d a p s := rfl
theorem exec_stB a src p (s : State) : exec (.stB a src p) s = execStB a src p s := rfl
theorem exec_stH a src p (s : State) : exec (.stH a src p) s = execStH a src p s := rfl
theorem exec_stW a src p (s : State) : exec (.stW a src p) s = execStW a src p s := rfl
theorem exec_stD a src p (s : State) : exec (.stD a src p) s = execStD a src p s := rfl
theorem exec_beq a b p (s : State) : exec (.beq a b p) s = execBeq a b p s := rfl
theorem exec_bne a b p (s : State) : exec (.bne a b p) s = execBne a b p s := rfl
theorem exec_blt a b p (s : State) : exec (.blt a b p) s = execBlt a b p s := rfl
theorem exec_bge a b p (s : State) : exec (.bge a b p) s = execBge a b p s := rfl
theorem exec_bltu a b p (s : State) : exec (.bltu a b p) s = execBltu a b p s := rfl
theorem exec_bgeu a b p (s : State) : exec (.bgeu a b p) s = execBgeu a b p s := rfl
theorem exec_bkany k p (s : State) : exec (.bkany k p) s = execBkany k p s := rfl
theorem exec_bknone k p (s : State) : exec (.bknone k p) s = execBknone k p s := rfl
theorem exec_jl d im (s : State) : exec (.jl d im) s = execJl d im s := rfl
theorem exec_jlr d a (s : State) : exec (.jlr d a) s = execJlr d a s := rfl
theorem exec_follow d a (s : State) : exec (.follow d a) s = execFollow d a s := rfl
theorem exec_rejoin d p (s : State) : exec (.rejoin d p) s = execRejoin d p s := rfl
theorem exec_amoAdd l d a b (s : State) : exec (.amoAdd l d a b) s = execAmoAdd l d a b s := rfl
theorem exec_amoAnd l d a b (s : State) : exec (.amoAnd l d a b) s = execAmoAnd l d a b s := rfl
theorem exec_amoOr l d a b (s : State) : exec (.amoOr l d a b) s = execAmoOr l d a b s := rfl
theorem exec_amoXor l d a b (s : State) : exec (.amoXor l d a b) s = execAmoXor l d a b s := rfl
theorem exec_amoMin l d a b (s : State) : exec (.amoMin l d a b) s = execAmoMin l d a b s := rfl
theorem exec_amoMax l d a b (s : State) : exec (.amoMax l d a b) s = execAmoMax l d a b s := rfl
theorem exec_amoMinu l d a b (s : State) : exec (.amoMinu l d a b) s = execAmoMinu l d a b s := rfl
theorem exec_amoMaxu l d a b (s : State) : exec (.amoMaxu l d a b) s = execAmoMaxu l d a b s := rfl
theorem exec_amoSwap l d a b (s : State) : exec (.amoSwap l d a b) s = execAmoSwap l d a b s := rfl
theorem exec_amoCas l d a b (s : State) : exec (.amoCas l d a b) s = execAmoCas l d a b s := rfl
theorem exec_amoAddn l d a b (s : State) : exec (.amoAddn l d a b) s = execAmoAddn l d a b s := rfl
theorem exec_ldAcq l d a (s : State) : exec (.ldAcq l d a) s = execLdAcq l d a s := rfl
theorem exec_stRel a b (s : State) : exec (.stRel a b) s = execStRel a b s := rfl
theorem exec_ldSc l d a (s : State) : exec (.ldSc l d a) s = execLdSc l d a s := rfl
theorem exec_stSc a b (s : State) : exec (.stSc a b) s = execStSc a b s := rfl
theorem exec_fence src (s : State) : exec (.fence src) s = execFence src s := rfl
theorem exec_csrr d c (s : State) : exec (.csrr d c) s = execCsrr d c s := rfl
theorem exec_csrw d a c (s : State) : exec (.csrw d a c) s = execCsrw d a c s := rfl
theorem exec_csrset d a c (s : State) : exec (.csrset d a c) s = execCsrset d a c s := rfl
theorem exec_csrclr d a c (s : State) : exec (.csrclr d a c) s = execCsrclr d a c s := rfl
theorem exec_trap a (s : State) : exec (.trap a) s = execTrap a s := rfl
theorem exec_sreplyResume a (s : State) : exec (.sreplyResume a) s = execSreplyResume a s := rfl
theorem exec_sreplySignal a (s : State) : exec (.sreplySignal a) s = execSreplySignal a s := rfl
theorem exec_sreplyKill a (s : State) : exec (.sreplyKill a) s = execSreplyKill a s := rfl
theorem exec_biasflipHost a (s : State) : exec (.biasflipHost a) s = execBiasflipHost a s := rfl
theorem exec_biasflipDevice a (s : State) : exec (.biasflipDevice a) s = execBiasflipDevice a s := rfl
theorem exec_spawn a (s : State) : exec (.spawn a) s = execSpawn a s := rfl
theorem exec_pubf a (s : State) : exec (.pubf a) s = execPubf a s := rfl
theorem exec_donate d a b (s : State) : exec (.donate d a b) s = execDonate d a b s := rfl
theorem exec_jinit a b (s : State) : exec (.jinit a b) s = execJinit a b s := rfl
theorem exec_jdec d a (s : State) : exec (.jdec d a) s = execJdec d a s := rfl
theorem exec_send a b v (s : State) : exec (.send a b v) s = execSend a b v s := rfl
theorem exec_sendm a b v (s : State) : exec (.sendm a b v) s = execSendm a b v s := rfl
theorem exec_hset d a b (s : State) : exec (.hset d a b) s = execHset d a b s := rfl
theorem exec_hclr a (s : State) : exec (.hclr a) s = execHclr a s := rfl
theorem exec_hold d a (s : State) : exec (.hold d a) s = execHold d a s := rfl
theorem exec_rels d a (s : State) : exec (.rels d a) s = execRels d a s := rfl
theorem exec_hmask d a b (s : State) : exec (.hmask d a b) s = execHmask d a b s := rfl
theorem exec_mbxw d a b (s : State) : exec (.mbxw d a b) s = execMbxw d a b s := rfl
theorem exec_bara d n m (s : State) : exec (.bara d n m) s = execBara d n m s := rfl
theorem exec_barw d n m (s : State) : exec (.barw d n m) s = execBarw d n m s := rfl
theorem exec_barx d n m (s : State) : exec (.barx d n m) s = execBarx d n m s := rfl
theorem exec_team d a b (s : State) : exec (.team d a b) s = execTeam d a b s := rfl
theorem exec_geosub d a b (s : State) : exec (.geosub d a b) s = execGeosub d a b s := rfl
theorem exec_vld t k d a (s : State) : exec (.vld t k d a) s = execVld t k d a s := rfl
theorem exec_vst t k d a (s : State) : exec (.vst t k d a) s = execVst t k d a s := rfl
theorem exec_vlds t k d a b (s : State) : exec (.vlds t k d a b) s = execVlds t k d a b s := rfl
theorem exec_vsts t k d a b (s : State) : exec (.vsts t k d a b) s = execVsts t k d a b s := rfl
theorem exec_vldb t k d a (s : State) : exec (.vldb t k d a) s = execVldb t k d a s := rfl
theorem exec_vldi t k d a b (s : State) : exec (.vldi t k d a b) s = execVldi t k d a b s := rfl
theorem exec_vsti t k d a b (s : State) : exec (.vsti t k d a b) s = execVsti t k d a b s := rfl
theorem exec_vadd t k d a b (s : State) : exec (.vadd t k d a b) s = execVadd t k d a b s := rfl
theorem exec_vsub t k d a b (s : State) : exec (.vsub t k d a b) s = execVsub t k d a b s := rfl
theorem exec_vmul t k d a b (s : State) : exec (.vmul t k d a b) s = execVmul t k d a b s := rfl
theorem exec_vmulh t k d a b (s : State) : exec (.vmulh t k d a b) s = execVmulh t k d a b s := rfl
theorem exec_vmin t k d a b (s : State) : exec (.vmin t k d a b) s = execVmin t k d a b s := rfl
theorem exec_vmax t k d a b (s : State) : exec (.vmax t k d a b) s = execVmax t k d a b s := rfl
theorem exec_vminu t k d a b (s : State) : exec (.vminu t k d a b) s = execVminu t k d a b s := rfl
theorem exec_vmaxu t k d a b (s : State) : exec (.vmaxu t k d a b) s = execVmaxu t k d a b s := rfl
theorem exec_vabs t k d a (s : State) : exec (.vabs t k d a) s = execVabs t k d a s := rfl
theorem exec_vand t k d a b (s : State) : exec (.vand t k d a b) s = execVand t k d a b s := rfl
theorem exec_vor t k d a b (s : State) : exec (.vor t k d a b) s = execVor t k d a b s := rfl
theorem exec_vxor t k d a b (s : State) : exec (.vxor t k d a b) s = execVxor t k d a b s := rfl
theorem exec_vshl t k d a b (s : State) : exec (.vshl t k d a b) s = execVshl t k d a b s := rfl
theorem exec_vshr t k d a b (s : State) : exec (.vshr t k d a b) s = execVshr t k d a b s := rfl
theorem exec_vsar t k d a b (s : State) : exec (.vsar t k d a b) s = execVsar t k d a b s := rfl
theorem exec_vcmp t k a b c (s : State) : exec (.vcmp t k a b c) s = execVcmp t k a b c s := rfl
theorem exec_vfadd t k d a b (s : State) : exec (.vfadd t k d a b) s = execVfadd t k d a b s := rfl
theorem exec_vfsub t k d a b (s : State) : exec (.vfsub t k d a b) s = execVfsub t k d a b s := rfl
theorem exec_vfmul t k d a b (s : State) : exec (.vfmul t k d a b) s = execVfmul t k d a b s := rfl
theorem exec_vfdiv t k d a b (s : State) : exec (.vfdiv t k d a b) s = execVfdiv t k d a b s := rfl
theorem exec_vfsqrt t k d a (s : State) : exec (.vfsqrt t k d a) s = execVfsqrt t k d a s := rfl
theorem exec_vfmin t k d a b (s : State) : exec (.vfmin t k d a b) s = execVfmin t k d a b s := rfl
theorem exec_vfmax t k d a b (s : State) : exec (.vfmax t k d a b) s = execVfmax t k d a b s := rfl
theorem exec_vfabs t k d a (s : State) : exec (.vfabs t k d a) s = execVfabs t k d a s := rfl
theorem exec_vfneg t k d a (s : State) : exec (.vfneg t k d a) s = execVfneg t k d a s := rfl
theorem exec_vfcmp t k a b c (s : State) : exec (.vfcmp t k a b c) s = execVfcmp t k a b c s := rfl
theorem exec_vfrsq t k d a (s : State) : exec (.vfrsq t k d a) s = execVfrsq t k d a s := rfl
theorem exec_vfexp2 t k d a (s : State) : exec (.vfexp2 t k d a) s = execVfexp2 t k d a s := rfl
theorem exec_vflog2 t k d a (s : State) : exec (.vflog2 t k d a) s = execVflog2 t k d a s := rfl
theorem exec_vflse t k d a b (s : State) : exec (.vflse t k d a b) s = execVflse t k d a b s := rfl
theorem exec_vfrnd t k d a r (s : State) : exec (.vfrnd t k d a r) s = execVfrnd t k d a r s := rfl
theorem exec_vfclass t k d a (s : State) : exec (.vfclass t k d a) s = execVfclass t k d a s := rfl
theorem exec_vcvt t k d a b (s : State) : exec (.vcvt t k d a b) s = execVcvt t k d a b s := rfl
theorem exec_vbcast t k d a (s : State) : exec (.vbcast t k d a) s = execVbcast t k d a s := rfl
theorem exec_vext t d a b (s : State) : exec (.vext t d a b) s = execVext t d a b s := rfl
theorem exec_vins t d a b (s : State) : exec (.vins t d a b) s = execVins t d a b s := rfl
theorem exec_viota t k d (s : State) : exec (.viota t k d) s = execViota t k d s := rfl
theorem exec_vpack t k d a b (s : State) : exec (.vpack t k d a b) s = execVpack t k d a b s := rfl
theorem exec_vunpk t k d a h (s : State) : exec (.vunpk t k d a h) s = execVunpk t k d a h s := rfl
theorem exec_vperm t k d a b (s : State) : exec (.vperm t k d a b) s = execVperm t k d a b s := rfl
theorem exec_vslide t k d a b (s : State) : exec (.vslide t k d a b) s = execVslide t k d a b s := rfl
theorem exec_vsel t k d a b (s : State) : exec (.vsel t k d a b) s = execVsel t k d a b s := rfl
theorem exec_vredadd t k d a (s : State) : exec (.vredadd t k d a) s = execVredadd t k d a s := rfl
theorem exec_vredmin t k d a (s : State) : exec (.vredmin t k d a) s = execVredmin t k d a s := rfl
theorem exec_vredmax t k d a (s : State) : exec (.vredmax t k d a) s = execVredmax t k d a s := rfl
theorem exec_vfredadd t k d a (s : State) : exec (.vfredadd t k d a) s = execVfredadd t k d a s := rfl
theorem exec_vscan t k d a (s : State) : exec (.vscan t k d a) s = execVscan t k d a s := rfl
theorem exec_vcompr t k d a (s : State) : exec (.vcompr t k d a) s = execVcompr t k d a s := rfl
theorem exec_vexpnd t k d a (s : State) : exec (.vexpnd t k d a) s = execVexpnd t k d a s := rfl
theorem exec_kand d a b (s : State) : exec (.kand d a b) s = execKand d a b s := rfl
theorem exec_kor d a b (s : State) : exec (.kor d a b) s = execKor d a b s := rfl
theorem exec_kxor d a b (s : State) : exec (.kxor d a b) s = execKxor d a b s := rfl
theorem exec_kandn d a b (s : State) : exec (.kandn d a b) s = execKandn d a b s := rfl
theorem exec_knot d a (s : State) : exec (.knot d a) s = execKnot d a s := rfl
theorem exec_kfrom d a (s : State) : exec (.kfrom d a) s = execKfrom d a s := rfl
theorem exec_kto d a (s : State) : exec (.kto d a) s = execKto d a s := rfl
theorem exec_kpop d a (s : State) : exec (.kpop d a) s = execKpop d a s := rfl
theorem exec_kfirst d a (s : State) : exec (.kfirst d a) s = execKfirst d a s := rfl
theorem exec_kfill d a (s : State) : exec (.kfill d a) s = execKfill d a s := rfl
theorem exec_mlease l d a (s : State) : exec (.mlease l d a) s = execMlease l d a s := rfl
theorem exec_mclaim l d a (s : State) : exec (.mclaim l d a) s = execMclaim l d a s := rfl
theorem exec_mfree a (s : State) : exec (.mfree a) s = execMfree a s := rfl
theorem exec_mzero l d (s : State) : exec (.mzero l d) s = execMzero l d s := rfl
theorem exec_mstat l d a (s : State) : exec (.mstat l d a) s = execMstat l d a s := rfl
theorem exec_mwait l d a (s : State) : exec (.mwait l d a) s = execMwait l d a s := rfl
theorem exec_sld l d a b (s : State) : exec (.sld l d a b) s = execSld l d a b s := rfl
theorem exec_sst d a b (s : State) : exec (.sst d a b) s = execSst d a b s := rfl
theorem exec_sadd d a b (s : State) : exec (.sadd d a b) s = execSadd d a b s := rfl
theorem exec_sclose a (s : State) : exec (.sclose a) s = execSclose a s := rfl
theorem exec_sstat l d a b (s : State) : exec (.sstat l d a b) s = execSstat l d a b s := rfl
theorem exec_ldg l d a b (s : State) : exec (.ldg l d a b) s = execLdg l d a b s := rfl
theorem exec_stg d a b (s : State) : exec (.stg d a b) s = execStg d a b s := rfl
theorem exec_gstep l d a b (s : State) : exec (.gstep l d a b) s = execGstep l d a b s := rfl
theorem exec_gwait l d a b (s : State) : exec (.gwait l d a b) s = execGwait l d a b s := rfl
theorem exec_gstat l d a b (s : State) : exec (.gstat l d a b) s = execGstat l d a b s := rfl
theorem exec_pref a b (s : State) : exec (.pref a b) s = execPref a b s := rfl
theorem exec_res a b (s : State) : exec (.res a b) s = execRes a b s := rfl
theorem exec_unres a b (s : State) : exec (.unres a b) s = execUnres a b s := rfl
theorem exec_flush a b (s : State) : exec (.flush a b) s = execFlush a b s := rfl
theorem exec_inv a b (s : State) : exec (.inv a b) s = execInv a b s := rfl
theorem exec_dinv a (s : State) : exec (.dinv a) s = execDinv a s := rfl
theorem exec_copy l d a n (s : State) : exec (.copy l d a n) s = execCopy l d a n s := rfl
theorem exec_copym l d a n (s : State) : exec (.copym l d a n) s = execCopym l d a n s := rfl
theorem exec_get l d a n (s : State) : exec (.get l d a n) s = execGet l d a n s := rfl
theorem exec_put l d a n (s : State) : exec (.put l d a n) s = execPut l d a n s := rfl
theorem exec_dense l d a n (s : State) : exec (.dense l d a n) s = execDense l d a n s := rfl
theorem exec_ctrx l d a n (s : State) : exec (.ctrx l d a n) s = execCtrx l d a n s := rfl
theorem exec_ctrw l d a n (s : State) : exec (.ctrw l d a n) s = execCtrw l d a n s := rfl
theorem exec_ctrr l d n (s : State) : exec (.ctrr l d n) s = execCtrr l d n s := rfl
theorem exec_ctrrClear l d n (s : State) : exec (.ctrrClear l d n) s = execCtrrClear l d n s := rfl
theorem exec_mfmt a (s : State) : exec (.mfmt a) s = execMfmt a s := rfl
theorem exec_mlda a b c n (s : State) : exec (.mlda a b c n) s = execMlda a b c n s := rfl
theorem exec_mldb a b c n (s : State) : exec (.mldb a b c n) s = execMldb a b c n s := rfl
theorem exec_mldc l d a b (s : State) : exec (.mldc l d a b) s = execMldc l d a b s := rfl
theorem exec_mma l d a b (s : State) : exec (.mma l d a b) s = execMma l d a b s := rfl
theorem exec_mstc d a b c r (s : State) : exec (.mstc d a b c r) s = execMstc d a b c r s := rfl
theorem exec_mprog a (s : State) : exec (.mprog a) s = execMprog a s := rfl
theorem exec_mrun l d a b (s : State) : exec (.mrun l d a b) s = execMrun l d a b s := rfl
theorem exec_vfma l t k d a b c (s : State) : exec (.vfma l t k d a b c) s = execVfma l t k d a b c s := rfl
theorem exec_vfms l t k d a b c (s : State) : exec (.vfms l t k d a b c) s = execVfms l t k d a b c s := rfl
theorem exec_vmad l t k d a b c r (s : State) : exec (.vmad l t k d a b c r) s = execVmad l t k d a b c r s := rfl
theorem exec_vtopk l t k d a c n (s : State) : exec (.vtopk l t k d a c n) s = execVtopk l t k d a c n s := rfl
theorem exec_vgather l t k d a b (s : State) : exec (.vgather l t k d a b) s = execVgather l t k d a b s := rfl
theorem exec_vscatter t k d a b (s : State) : exec (.vscatter t k d a b) s = execVscatter t k d a b s := rfl
theorem exec_vdotl l k d a b c (s : State) : exec (.vdotl l k d a b c) s = execVdotl l k d a b c s := rfl
theorem exec_vdotb l k d a b c (s : State) : exec (.vdotb l k d a b c) s = execVdotb l k d a b c s := rfl
theorem exec_sdecl l d a (s : State) : exec (.sdecl l d a) s = execSdecl l d a s := rfl
theorem exec_sdeclFree a (s : State) : exec (.sdeclFree a) s = execSdeclFree a s := rfl
theorem exec_siter l d a b (s : State) : exec (.siter l d a b) s = execSiter l d a b s := rfl
theorem exec_snext l d a b c (s : State) : exec (.snext l d a b c) s = execSnext l d a b c s := rfl
theorem exec_gdecl l d a (s : State) : exec (.gdecl l d a) s = execGdecl l d a s := rfl
theorem exec_gdeclFree a (s : State) : exec (.gdeclFree a) s = execGdeclFree a s := rfl
theorem exec_addiN d im (s : State) : exec (.addiN d im) s = execAddiN d im s := rfl
theorem exec_liN d im (s : State) : exec (.liN d im) s = execLiN d im s := rfl
theorem exec_shliN d im (s : State) : exec (.shliN d im) s = execShliN d im s := rfl
theorem exec_addN d a (s : State) : exec (.addN d a) s = execAddN d a s := rfl
theorem exec_subN d a (s : State) : exec (.subN d a) s = execSubN d a s := rfl
theorem exec_mvN d a (s : State) : exec (.mvN d a) s = execMvN d a s := rfl
theorem exec_lddN d a im (s : State) : exec (.lddN d a im) s = execLddN d a im s := rfl
theorem exec_stdN d a im (s : State) : exec (.stdN d a im) s = execStdN d a im s := rfl
theorem exec_ldwN d a im (s : State) : exec (.ldwN d a im) s = execLdwN d a im s := rfl
theorem exec_stwN d a im (s : State) : exec (.stwN d a im) s = execStwN d a im s := rfl
theorem exec_beqzN a p (s : State) : exec (.beqzN a p) s = execBeqzN a p s := rfl
theorem exec_bnezN a p (s : State) : exec (.bnezN a p) s = execBnezN a p s := rfl
theorem exec_jN p (s : State) : exec (.jN p) s = execJN p s := rfl
theorem exec_jrN a (s : State) : exec (.jrN a) s = execJrN a s := rfl
theorem exec_ldspN d im (s : State) : exec (.ldspN d im) s = execLdspN d im s := rfl
theorem exec_stspN d im (s : State) : exec (.stspN d im) s = execStspN d im s := rfl
theorem exec_leave (s : State) : exec .leave s = execLeave s := rfl
theorem exec_yield (s : State) : exec .yield s = execYield s := rfl
theorem exec_nop (s : State) : exec .nop s = execNop s := rfl
theorem exec_hint (s : State) : exec .hint s = execHint s := rfl
theorem exec_fenceSc (s : State) : exec .fenceSc s = execFenceSc s := rfl
theorem exec_eret (s : State) : exec .eret s = execEret s := rfl
theorem exec_uiret (s : State) : exec .uiret s = execUiret s := rfl
theorem exec_wfi (s : State) : exec .wfi s = execWfi s := rfl
theorem exec_sync (s : State) : exec .sync s = execSync s := rfl
theorem exec_taskend (s : State) : exec .taskend s = execTaskend s := rfl
theorem exec_hret (s : State) : exec .hret s = execHret s := rfl
theorem exec_mrel (s : State) : exec .mrel s = execMrel s := rfl
theorem exec_resultArrival k im (s : State) : exec (.resultArrival k im) s = execResultArrival k im s := rfl
theorem exec_trapEntry k (s : State) : exec (.trapEntry k) s = execTrapEntry k s := rfl
theorem exec_translatedAccess r (s : State) : exec (.translatedAccess r) s = execTranslatedAccess r s := rfl
theorem exec_pageWalk die asid va (s : State) : exec (.pageWalk die asid va) s = execPageWalk die asid va s := rfl
theorem exec_pageFaultAnswer k (s : State) : exec (.pageFaultAnswer k) s = execPageFaultAnswer k s := rfl
theorem exec_replyResume k (s : State) : exec (.replyResume k) s = execReplyResume k s := rfl
theorem exec_replySignal k (s : State) : exec (.replySignal k) s = execReplySignal k s := rfl
theorem exec_replyKill k (s : State) : exec (.replyKill k) s = execReplyKill k s := rfl
theorem exec_unitFaultReply handle code (s : State) : exec (.unitFaultReply handle code) s = execUnitFaultReply handle code s := rfl
theorem exec_rangeLockGrant die (s : State) : exec (.rangeLockGrant die) s = execRangeLockGrant die s := rfl
theorem exec_renewal k pa (s : State) : exec (.renewal k pa) s = execRenewal k pa s := rfl
theorem exec_writeBack die line (s : State) : exec (.writeBack die line) s = execWriteBack die line s := rfl
theorem exec_recallLine line (s : State) : exec (.recallLine line) s = execRecallLine line s := rfl
theorem exec_ownedLineTimeout die line (s : State) : exec (.ownedLineTimeout die line) s = execOwnedLineTimeout die line s := rfl
theorem exec_tokenReturn home src (s : State) : exec (.tokenReturn home src) s = execTokenReturn home src s := rfl
theorem exec_tokenArrival home src (s : State) : exec (.tokenArrival home src) s = execTokenArrival home src s := rfl
theorem exec_ltimeTick die (s : State) : exec (.ltimeTick die) s = execLtimeTick die s := rfl
theorem exec_lineTimestampVisit line (s : State) : exec (.lineTimestampVisit line) s = execLineTimestampVisit line s := rfl
theorem exec_scWindowClose die (s : State) : exec (.scWindowClose die) s = execScWindowClose die s := rfl
theorem exec_scCompletion k (s : State) : exec (.scCompletion k) s = execScCompletion k s := rfl
theorem exec_messageArrival core (s : State) : exec (.messageArrival core) s = execMessageArrival core s := rfl
theorem exec_bounce core (s : State) : exec (.bounce core) s = execBounce core s := rfl
theorem exec_handlerStart core (s : State) : exec (.handlerStart core) s = execHandlerStart core s := rfl
theorem exec_distributorOffer die (s : State) : exec (.distributorOffer die) s = execDistributorOffer die s := rfl
theorem exec_hostMessage evq (s : State) : exec (.hostMessage evq) s = execHostMessage evq s := rfl
theorem exec_followerExecute k (s : State) : exec (.followerExecute k) s = execFollowerExecute k s := rfl
theorem exec_stealProbe core (s : State) : exec (.stealProbe core) s = execStealProbe core s := rfl
theorem exec_stealClaim core (s : State) : exec (.stealClaim core) s = execStealClaim core s := rfl
theorem exec_claimIncrementDone core (s : State) : exec (.claimIncrementDone core) s = execClaimIncrementDone core s := rfl
theorem exec_stealDispatch core (s : State) : exec (.stealDispatch core) s = execStealDispatch core s := rfl
theorem exec_stealBackoff core (s : State) : exec (.stealBackoff core) s = execStealBackoff core s := rfl
theorem exec_rootDispatch slot (s : State) : exec (.rootDispatch slot) s = execRootDispatch slot s := rfl
theorem exec_donationEntry q (s : State) : exec (.donationEntry q) s = execDonationEntry q s := rfl
theorem exec_syncWake k (s : State) : exec (.syncWake k) s = execSyncWake k s := rfl
theorem exec_syncPoll k (s : State) : exec (.syncPoll k) s = execSyncPoll k s := rfl
theorem exec_overflowSpill core kind (s : State) : exec (.overflowSpill core kind) s = execOverflowSpill core kind s := rfl
theorem exec_overflowRefill core kind (s : State) : exec (.overflowRefill core kind) s = execOverflowRefill core kind s := rfl
theorem exec_teamTimeout core (s : State) : exec (.teamTimeout core) s = execTeamTimeout core s := rfl
theorem exec_barxRelease cluster team b (s : State) : exec (.barxRelease cluster team b) s = execBarxRelease cluster team b s := rfl
theorem exec_mbxwTimeout k (s : State) : exec (.mbxwTimeout k) s = execMbxwTimeout k s := rfl
theorem exec_ctrwTimeout k (s : State) : exec (.ctrwTimeout k) s = execCtrwTimeout k s := rfl
theorem exec_wfiTimeout k (s : State) : exec (.wfiTimeout k) s = execWfiTimeout k s := rfl
theorem exec_copySegment die unit (s : State) : exec (.copySegment die unit) s = execCopySegment die unit s := rfl
theorem exec_copymUnit die unit (s : State) : exec (.copymUnit die unit) s = execCopymUnit die unit s := rfl
theorem exec_getChunk die unit (s : State) : exec (.getChunk die unit) s = execGetChunk die unit s := rfl
theorem exec_putChunk die unit (s : State) : exec (.putChunk die unit) s = execPutChunk die unit s := rfl
theorem exec_denseShard die (s : State) : exec (.denseShard die) s = execDenseShard die s := rfl
theorem exec_byteAcknowledgement core (s : State) : exec (.byteAcknowledgement core) s = execByteAcknowledgement core s := rfl
theorem exec_engineResume die unit (s : State) : exec (.engineResume die unit) s = execEngineResume die unit s := rfl
theorem exec_completionInterrupt k (s : State) : exec (.completionInterrupt k) s = execCompletionInterrupt k s := rfl
theorem exec_residualHoldSend cluster (s : State) : exec (.residualHoldSend cluster) s = execResidualHoldSend cluster s := rfl
theorem exec_leaseGrant cluster (s : State) : exec (.leaseGrant cluster) s = execLeaseGrant cluster s := rfl
theorem exec_leaseSpent core (s : State) : exec (.leaseSpent core) s = execLeaseSpent core s := rfl
theorem exec_leasedCommandStart cluster (s : State) : exec (.leasedCommandStart cluster) s = execLeasedCommandStart cluster s := rfl
theorem exec_leasedCommandComplete core (s : State) : exec (.leasedCommandComplete core) s = execLeasedCommandComplete core s := rfl
theorem exec_slotFillComplete cluster slot (s : State) : exec (.slotFillComplete cluster slot) s = execSlotFillComplete cluster slot s := rfl
theorem exec_indexEngineEvent k (s : State) : exec (.indexEngineEvent k) s = execIndexEngineEvent k s := rfl
theorem exec_accumulatorSpill cluster im (s : State) : exec (.accumulatorSpill cluster im) s = execAccumulatorSpill cluster im s := rfl
theorem exec_partHomeEvent k (s : State) : exec (.partHomeEvent k) s = execPartHomeEvent k s := rfl
theorem exec_haloPush die (s : State) : exec (.haloPush die) s = execHaloPush die s := rfl
theorem exec_gridLoadTimeout k (s : State) : exec (.gridLoadTimeout k) s = execGridLoadTimeout k s := rfl
theorem exec_gwaitTimeout k (s : State) : exec (.gwaitTimeout k) s = execGwaitTimeout k s := rfl
theorem exec_ltsetWrite k x (s : State) : exec (.ltsetWrite k x) s = execLtsetWrite k x s := rfl
theorem exec_ltperiodWrite die x (s : State) : exec (.ltperiodWrite die x) s = execLtperiodWrite die x s := rfl
theorem exec_tepcWrite k x (s : State) : exec (.tepcWrite k x) s = execTepcWrite k x s := rfl
theorem exec_tailWrite q tail size (s : State) : exec (.tailWrite q tail size) s = execTailWrite q tail size s := rfl
theorem exec_queueEntryRead q (s : State) : exec (.queueEntryRead q) s = execQueueEntryRead q s := rfl
theorem exec_phaseReread q (s : State) : exec (.phaseReread q) s = execPhaseReread q s := rfl
theorem exec_queueBind (s : State) : exec .queueBind s = execQueueBind s := rfl
theorem exec_ageingQuantum q (s : State) : exec (.ageingQuantum q) s = execAgeingQuantum q s := rfl
theorem exec_notbeforePassed q (s : State) : exec (.notbeforePassed q) s = execNotbeforePassed q s := rfl
theorem exec_limitExpiry slot (s : State) : exec (.limitExpiry slot) s = execLimitExpiry slot s := rfl
theorem exec_eventVectorSignal evq (s : State) : exec (.eventVectorSignal evq) s = execEventVectorSignal evq s := rfl
theorem exec_eventHeadAdvance evq head (s : State) : exec (.eventHeadAdvance evq head) s = execEventHeadAdvance evq head s := rfl
theorem exec_createQueue seq q f (s : State) : exec (.createQueue seq q f) s = execCreateQueue seq q f s := rfl
theorem exec_destroyQueue seq q (s : State) : exec (.destroyQueue seq q) s = execDestroyQueue seq q s := rfl
theorem exec_createEvq seq evq base entries header vector (s : State) : exec (.createEvq seq evq base entries header vector) s = execCreateEvq seq evq base entries header vector s := rfl
theorem exec_setQuantum seq ns (s : State) : exec (.setQuantum seq ns) s = execSetQuantum seq ns s := rfl
theorem exec_setReserve seq die map (s : State) : exec (.setReserve seq die map) s = execSetReserve seq die map s := rfl
theorem exec_endLaunch seq slot (s : State) : exec (.endLaunch seq slot) s = execEndLaunch seq slot s := rfl
theorem exec_preempt seq slot area len (s : State) : exec (.preempt seq slot area len) s = execPreempt seq slot area len s := rfl
theorem exec_restore seq slot (s : State) : exec (.restore seq slot) s = execRestore seq slot s := rfl
theorem exec_biasflip seq page host (s : State) : exec (.biasflip seq page host) s = execBiasflip seq page host s := rfl
theorem exec_scrub seq page (s : State) : exec (.scrub seq page) s = execScrub seq page s := rfl
theorem exec_dieLost seq die (s : State) : exec (.dieLost seq die) s = execDieLost seq die s := rfl
theorem exec_setClock seq die mhz (s : State) : exec (.setClock seq die mhz) s = execSetClock seq die mhz s := rfl
theorem exec_setPower seq die state (s : State) : exec (.setPower seq die state) s = execSetPower seq die state s := rfl
theorem exec_warmReset seq die (s : State) : exec (.warmReset seq die) s = execWarmReset seq die s := rfl
theorem exec_clusterGate seq cluster gate (s : State) : exec (.clusterGate seq cluster gate) s = execClusterGate seq cluster gate s := rfl
theorem exec_setEnvelope seq watts (s : State) : exec (.setEnvelope seq watts) s = execSetEnvelope seq watts s := rfl
theorem exec_setPkgnum seq n (s : State) : exec (.setPkgnum seq n) s = execSetPkgnum seq n s := rfl
theorem exec_setRoute seq f (s : State) : exec (.setRoute seq f) s = execSetRoute seq f s := rfl
theorem exec_setGm seq die sysref (s : State) : exec (.setGm seq die sysref) s = execSetGm seq die sysref s := rfl
theorem exec_hostcmd seq core payload (s : State) : exec (.hostcmd seq core payload) s = execHostcmd seq core payload s := rfl
theorem exec_thermalTrip sensor (s : State) : exec (.thermalTrip sensor) s = execThermalTrip sensor s := rfl
theorem exec_coolantFlowTrip (s : State) : exec .coolantFlowTrip s = execCoolantFlowTrip s := rfl
theorem exec_bringUp (s : State) : exec .bringUp s = execBringUp s := rfl
theorem exec_attestationReport nonce (s : State) : exec (.attestationReport nonce) s = execAttestationReport nonce s := rfl
theorem exec_monitorControlWrite die unit x (s : State) : exec (.monitorControlWrite die unit x) s = execMonitorControlWrite die unit x s := rfl
theorem exec_monitorClear die unit (s : State) : exec (.monitorClear die unit) s = execMonitorClear die unit s := rfl
theorem exec_monitorLevelSample die unit (s : State) : exec (.monitorLevelSample die unit) s = execMonitorLevelSample die unit s := rfl
theorem exec_treutExchange die (s : State) : exec (.treutExchange die) s = execTreutExchange die s := rfl
theorem exec_treutSyncReceive die (s : State) : exec (.treutSyncReceive die) s = execTreutSyncReceive die s := rfl
theorem exec_followUpReceive die (s : State) : exec (.followUpReceive die) s = execFollowUpReceive die s := rfl
theorem exec_delayReqReceive die (s : State) : exec (.delayReqReceive die) s = execDelayReqReceive die s := rfl
theorem exec_delayRespReceive die (s : State) : exec (.delayRespReceive die) s = execDelayRespReceive die s := rfl
theorem exec_exchangeMissed die (s : State) : exec (.exchangeMissed die) s = execExchangeMissed die s := rfl
theorem exec_linkRetry link (s : State) : exec (.linkRetry link) s = execLinkRetry link s := rfl
theorem exec_hostCxlAccess store pa data (s : State) : exec (.hostCxlAccess store pa data) s = execHostCxlAccess store pa data s := rfl
theorem exec_hostWritebackCompletion page (s : State) : exec (.hostWritebackCompletion page) s = execHostWritebackCompletion page s := rfl

end Sys2Proof.Machine
end

