-- ==== Sys2Proof/Laws/Store.lean ====
section
/-! SUPPORT. Laws of the two stores: reading after writing a table or a memory, and the canonical form of a memory, which every memory
operation keeps. -/

namespace Sys2Proof.Machine

/-! ### Tables -/

theorem Tab.find_nil {α : Type} (k : Nat) : Tab.find ([] : Tab α) k = none := rfl

theorem Tab.get_eq_find {α : Type} (d : α) (t : Tab α) (k : Nat) : Tab.get d t k = (t.find k).getD d := rfl

theorem Tab.find_put_same {α : Type} (t : Tab α) (k : Nat) (v : α) : (t.put k v).find k = some v := by
  simp [Tab.put, Tab.find]

theorem Tab.find_del_ne {α : Type} (t : Tab α) (k j : Nat) (h : j ≠ k) : (t.del k).find j = t.find j := by
  induction t with
  | nil => rfl
  | cons e t ih =>
    simp only [Tab.del, Tab.find, List.filter_cons] at ih ⊢
    by_cases hk : e.1 = k
    · have hj : (e.1 == j) = false := by simp [hk]; exact fun h' => h h'.symm
      simp [hk, List.find?_cons] at ih ⊢
      rw [hk] at hj
      rw [hj]
      exact ih
    · have hb : (e.1 != k) = true := by simp [hk]
      rw [hb]
      simp only [if_true, List.find?_cons]
      cases e.1 == j
      · exact ih
      · rfl

theorem Tab.find_put_ne {α : Type} (t : Tab α) (k j : Nat) (v : α) (h : j ≠ k) : (t.put k v).find j = t.find j := by
  have hj : (k == j) = false := by simp; exact fun h' => h h'.symm
  have := Tab.find_del_ne t k j h
  simp only [Tab.put, Tab.find, List.find?_cons, hj] at this ⊢
  exact this

@[simp] theorem Tab.get_put_same {α : Type} (d : α) (t : Tab α) (k : Nat) (v : α) : Tab.get d (t.put k v) k = v := by
  rw [Tab.get_eq_find, Tab.find_put_same]; rfl

theorem Tab.get_put_ne {α : Type} (d : α) (t : Tab α) (k j : Nat) (v : α) (h : j ≠ k) : Tab.get d (t.put k v) j = Tab.get d t j := by
  rw [Tab.get_eq_find, Tab.find_put_ne t k j v h, Tab.get_eq_find]

theorem Tab.del_put_same {α : Type} (t : Tab α) (k : Nat) (v : α) : (t.put k v).del k = t.del k := by
  simp [Tab.put, Tab.del]

@[simp] theorem Tab.put_put_same {α : Type} (t : Tab α) (k : Nat) (v w : α) : (t.put k v).put k w = t.put k w := by
  rw [Tab.put, Tab.del_put_same]; rfl

/-- A table after a value has been put in it: that value at its number, the old ones elsewhere. -/
theorem Tab.get_put {α : Type} (d : α) (t : Tab α) (k j : Nat) (v : α) : Tab.get d (t.put k v) j = if j = k then v else Tab.get d t j := by
  by_cases h : j = k
  · rw [if_pos h, h, Tab.get_put_same]
  · rw [if_neg h, Tab.get_put_ne d t k j v h]

/-! ### Reading a memory after writing it -/

@[simp] theorem Mem.read_nil (a : Nat) : Mem.read [] a = 0 := rfl

theorem Mem.read_cons (e : Nat × Byte) (m : Mem) (a : Nat) : Mem.read (e :: m) a = if e.1 = a then e.2 else Mem.read m a := by
  by_cases h : e.1 = a
  · simp [Mem.read, h]
  · have : (e.1 == a) = false := by simp [h]
    simp [Mem.read, this, h]

/-- What reads as the old memory where a filter by address keeps it, and as blank elsewhere. -/
theorem Mem.read_filter (p : Nat → Bool) (m : Mem) (a : Nat) :
    Mem.read (m.filter fun e => p e.1) a = if p a then Mem.read m a else Mem.blank := by
  induction m with
  | nil => cases p a <;> rfl
  | cons e m ih =>
    rw [List.filter_cons]
    by_cases he : e.1 = a
    · subst he
      cases hp : p e.1
      · rw [hp] at ih; exact ih
      · simp [Mem.read_cons]
    · cases hp : p e.1
      · simp [ih, Mem.read_cons, he]
      · simp [ih, Mem.read_cons, he]

theorem Mem.read_insert (a b : Nat) (v : Byte) (m : Mem) (h : ∀ e ∈ m, e.1 ≠ a) :
    Mem.read (Mem.insert a v m) b = if b = a then v else Mem.read m b := by
  induction m with
  | nil => simp only [Mem.insert, Mem.read_cons, eq_comm]
  | cons e m ih =>
    have he : e.1 ≠ a := h e (by simp)
    have ih := ih fun x hx => h x (by simp [hx])
    simp only [Mem.insert]
    split
    · rw [Mem.read_cons]; simp only [eq_comm]
    · rw [Mem.read_cons, ih, Mem.read_cons]
      by_cases hb : b = a
      · simp [hb, he]
      · simp [hb]

/-- A byte after a write: the value at its address, the old bytes elsewhere. -/
theorem Mem.read_write (m : Mem) (a b : Nat) (v : Byte) : Mem.read (m.write a v) b = if b = a then v else Mem.read m b := by
  have hf := Mem.read_filter (fun x => x != a) m b
  simp only [Mem.write]
  split
  · rename_i hv
    rw [hf]
    by_cases hb : b = a <;> simp [hb, hv]
  · rw [Mem.read_insert, hf]
    · by_cases hb : b = a <;> simp [hb]
    · intro e he
      simpa using (List.mem_filter.mp he).2

@[simp] theorem Mem.read_write_same (m : Mem) (a : Nat) (v : Byte) : Mem.read (m.write a v) a = v := by
  simp [Mem.read_write]

theorem Mem.read_write_ne (m : Mem) (a b : Nat) (v : Byte) (h : b ≠ a) : Mem.read (m.write a v) b = Mem.read m b := by
  simp [Mem.read_write, h]

/-- A write of n bytes leaves every other byte alone. -/
theorem Mem.read_writeN_ne (m : Mem) (a n x b : Nat) (h : b < a ∨ a + n ≤ b) : Mem.read (m.writeN a n x) b = Mem.read m b := by
  induction n generalizing m a x with
  | zero => rfl
  | succ n ih =>
    rw [Mem.writeN, ih _ _ _ (by omega), Mem.read_write_ne _ _ _ _ (by omega)]

theorem Mem.readN_writeN_ne (m : Mem) (a n x b k : Nat) (h : b + k ≤ a ∨ a + n ≤ b) : Mem.readN (m.writeN a n x) b k = Mem.readN m b k := by
  induction k generalizing b with
  | zero => rfl
  | succ k ih => rw [Mem.readN, Mem.readN, ih _ (by omega), Mem.read_writeN_ne _ _ _ _ _ (by omega)]

/-- What has been written is read back, cut to the bytes written. -/
theorem Mem.readN_writeN_same (m : Mem) (a n x : Nat) : Mem.readN (m.writeN a n x) a n = x % 256 ^ n := by
  induction n generalizing m a x with
  | zero => simp [Mem.readN, Nat.mod_one]
  | succ n ih =>
    have hx : x % 256 ^ (n + 1) = x % 256 + 256 * (x / 256 % 256 ^ n) := by
      rw [Nat.pow_succ, Nat.mul_comm, Nat.mod_mul]
    rw [Mem.readN, Mem.writeN, ih, Mem.read_writeN_ne _ _ _ _ _ (by omega), Mem.read_write_same, BitVec.toNat_ofNat]
    exact hx.symm

theorem Mem.read_clear (m : Mem) (a n b : Nat) : Mem.read (m.clear a n) b = if a ≤ b ∧ b < a + n then Mem.blank else Mem.read m b := by
  have hf := Mem.read_filter (fun x => decide (x < a) || decide (a + n ≤ x)) m b
  rw [Mem.clear, hf]
  by_cases h : a ≤ b ∧ b < a + n
  · have : ¬(b < a ∨ a + n ≤ b) := by omega
    simp only [Bool.or_eq_true, decide_eq_true_eq, if_neg this, if_pos h]
  · have : b < a ∨ a + n ≤ b := by omega
    simp only [Bool.or_eq_true, decide_eq_true_eq, if_pos this, if_neg h]

/-! ### The canonical form -/

theorem Mem.sortedFrom_mono (lo lo' : Nat) (m : Mem) (h : lo' ≤ lo) (hs : Mem.sortedFrom lo m = true) : Mem.sortedFrom lo' m = true := by
  cases m with
  | nil => rfl
  | cons e m =>
    simp only [Mem.sortedFrom, Bool.and_eq_true, decide_eq_true_eq] at hs ⊢
    exact ⟨⟨by omega, hs.1.2⟩, hs.2⟩

theorem Mem.sortedFrom_filter (lo : Nat) (m : Mem) (p : Nat × Byte → Bool) (hs : Mem.sortedFrom lo m = true) :
    Mem.sortedFrom lo (m.filter p) = true := by
  induction m generalizing lo with
  | nil => rfl
  | cons e m ih =>
    have hs' := hs
    simp only [Mem.sortedFrom, Bool.and_eq_true, decide_eq_true_eq] at hs'
    rw [List.filter_cons]
    split
    · simp only [Mem.sortedFrom, Bool.and_eq_true, decide_eq_true_eq]
      exact ⟨hs'.1, ih _ hs'.2⟩
    · exact Mem.sortedFrom_mono (e.1 + 1) lo _ (by omega) (ih _ hs'.2)

theorem Mem.sortedFrom_insert (lo a : Nat) (v : Byte) (m : Mem) (hv : v ≠ Mem.blank) (ha : lo ≤ a) (hm : ∀ e ∈ m, e.1 ≠ a)
    (hs : Mem.sortedFrom lo m = true) : Mem.sortedFrom lo (Mem.insert a v m) = true := by
  induction m generalizing lo with
  | nil => simp [Mem.insert, Mem.sortedFrom, ha, hv]
  | cons e m ih =>
    have he : e.1 ≠ a := hm e (by simp)
    simp only [Mem.sortedFrom, Bool.and_eq_true, decide_eq_true_eq] at hs
    simp only [Mem.insert]
    split
    · simp only [Mem.sortedFrom, Bool.and_eq_true, decide_eq_true_eq, bne_iff_ne, ne_eq]
      exact ⟨⟨ha, hv⟩, ⟨by omega, by simpa using hs.1.2⟩, hs.2⟩
    · simp only [Mem.sortedFrom, Bool.and_eq_true, decide_eq_true_eq]
      exact ⟨hs.1, ih _ (by omega) (fun x hx => hm x (by simp [hx])) hs.2⟩

theorem Mem.wf_nil : Mem.wf [] = true := rfl

theorem Mem.wf_filter (m : Mem) (p : Nat × Byte → Bool) (h : m.wf = true) : Mem.wf (m.filter p) = true := Mem.sortedFrom_filter 0 m p h

/-- A write keeps the canonical form. -/
theorem Mem.wf_write (m : Mem) (a : Nat) (v : Byte) (h : m.wf = true) : (m.write a v).wf = true := by
  simp only [Mem.write]
  split
  · exact Mem.wf_filter m _ h
  · rename_i hv
    refine Mem.sortedFrom_insert 0 a v _ hv (Nat.zero_le _) (fun e he => ?_) (Mem.wf_filter m _ h)
    simpa using (List.mem_filter.mp he).2

theorem Mem.wf_writeN (m : Mem) (a n x : Nat) (h : m.wf = true) : (m.writeN a n x).wf = true := by
  induction n generalizing m a x with
  | zero => exact h
  | succ n ih => exact ih _ _ _ (Mem.wf_write m a _ h)

theorem Mem.wf_clear (m : Mem) (a n : Nat) (h : m.wf = true) : (m.clear a n).wf = true := Mem.wf_filter m _ h

/-- A fold of operations that keep the form keeps it. -/
theorem Mem.wf_foldl {α : Type} (f : Mem → α → Mem) (hf : ∀ m x, m.wf = true → (f m x).wf = true) (l : List α) (m : Mem)
    (h : m.wf = true) : Mem.wf (l.foldl f m) = true := by
  induction l generalizing m with
  | nil => exact h
  | cons x l ih => exact ih _ (hf m x h)

theorem Mem.wf_blit (m : Mem) (b : Nat) (src : Mem) (a n : Nat) (h : m.wf = true) : (m.blit b src a n).wf = true :=
  Mem.wf_foldl _ (fun m e h => Mem.wf_write m e.1 e.2 h) _ _ (Mem.wf_clear m b n h)

theorem Mem.wf_puts (m : Mem) (base : Nat) (l : List (Nat × Nat × Nat)) (h : m.wf = true) : (Mem.puts m base l).wf = true :=
  Mem.wf_foldl _ (fun m _ h => Mem.wf_writeN m _ _ _ h) _ _ h

theorem Mem.wf_doublewords (m : Mem) (l : List (Nat × Nat)) (h : m.wf = true) : (Mem.doublewords m l).wf = true :=
  Mem.wf_foldl _ (fun m _ h => Mem.wf_writeN m _ _ _ h) _ _ h

theorem Mem.wf_bytes (m : Mem) (a : Nat) (l : List Byte) (h : m.wf = true) : (m.bytes a l).wf = true := by
  induction l generalizing m a with
  | nil => exact h
  | cons x l ih => exact ih _ _ (Mem.wf_write m a x h)

end Sys2Proof.Machine
end

