-- ==== Sys2Proof/Laws/State.lean ====
section
/-! SUPPORT. What each update of the state leaves alone and what it writes: one lemma for each field and update, and reading a part after it
has been replaced. -/

namespace Sys2Proof.Machine

/-! ### setCtx -/

@[simp] theorem State.setCtx_ctxs (s : State) (k : Nat) (x : Ctx) : (s.setCtx k x).ctxs = s.ctxs.put k x := rfl
@[simp] theorem State.setCtx_cores (s : State) (k : Nat) (x : Ctx) : (s.setCtx k x).cores = s.cores := rfl
@[simp] theorem State.setCtx_clusters (s : State) (k : Nat) (x : Ctx) : (s.setCtx k x).clusters = s.clusters := rfl
@[simp] theorem State.setCtx_dies (s : State) (k : Nat) (x : Ctx) : (s.setCtx k x).dies = s.dies := rfl
@[simp] theorem State.setCtx_acc (s : State) (k : Nat) (x : Ctx) : (s.setCtx k x).acc = s.acc := rfl
@[simp] theorem State.setCtx_mem (s : State) (k : Nat) (x : Ctx) : (s.setCtx k x).mem = s.mem := rfl
@[simp] theorem State.setCtx_poison (s : State) (k : Nat) (x : Ctx) : (s.setCtx k x).poison = s.poison := rfl
@[simp] theorem State.setCtx_stamps (s : State) (k : Nat) (x : Ctx) : (s.setCtx k x).stamps = s.stamps := rfl
@[simp] theorem State.setCtx_launches (s : State) (k : Nat) (x : Ctx) : (s.setCtx k x).launches = s.launches := rfl
@[simp] theorem State.setCtx_regions (s : State) (k : Nat) (x : Ctx) : (s.setCtx k x).regions = s.regions := rfl
@[simp] theorem State.setCtx_grids (s : State) (k : Nat) (x : Ctx) : (s.setCtx k x).grids = s.grids := rfl
@[simp] theorem State.setCtx_parts (s : State) (k : Nat) (x : Ctx) : (s.setCtx k x).parts = s.parts := rfl
@[simp] theorem State.setCtx_pushes (s : State) (k : Nat) (x : Ctx) : (s.setCtx k x).pushes = s.pushes := rfl
@[simp] theorem State.setCtx_donq (s : State) (k : Nat) (x : Ctx) : (s.setCtx k x).donq = s.donq := rfl
@[simp] theorem State.setCtx_offers (s : State) (k : Nat) (x : Ctx) : (s.setCtx k x).offers = s.offers := rfl
@[simp] theorem State.setCtx_queues (s : State) (k : Nat) (x : Ctx) : (s.setCtx k x).queues = s.queues := rfl
@[simp] theorem State.setCtx_evqs (s : State) (k : Nat) (x : Ctx) : (s.setCtx k x).evqs = s.evqs := rfl
@[simp] theorem State.setCtx_flips (s : State) (k : Nat) (x : Ctx) : (s.setCtx k x).flips = s.flips := rfl
@[simp] theorem State.setCtx_net (s : State) (k : Nat) (x : Ctx) : (s.setCtx k x).net = s.net := rfl
@[simp] theorem State.setCtx_bounces (s : State) (k : Nat) (x : Ctx) : (s.setCtx k x).bounces = s.bounces := rfl
@[simp] theorem State.setCtx_acks (s : State) (k : Nat) (x : Ctx) : (s.setCtx k x).acks = s.acks := rfl
@[simp] theorem State.setCtx_answers (s : State) (k : Nat) (x : Ctx) : (s.setCtx k x).answers = s.answers := rfl
@[simp] theorem State.setCtx_replies (s : State) (k : Nat) (x : Ctx) : (s.setCtx k x).replies = s.replies := rfl
@[simp] theorem State.setCtx_pkg (s : State) (k : Nat) (x : Ctx) : (s.setCtx k x).pkg = s.pkg := rfl
@[simp] theorem State.setCtx_cur (s : State) (k : Nat) (x : Ctx) : (s.setCtx k x).cur = s.cur := rfl
@[simp] theorem State.setCtx_agenda (s : State) (k : Nat) (x : Ctx) : (s.setCtx k x).agenda = s.agenda := rfl
@[simp] theorem State.setCtx_pace (s : State) (k : Nat) (x : Ctx) : (s.setCtx k x).pace = s.pace := rfl
@[simp] theorem State.setCtx_turns (s : State) (k : Nat) (x : Ctx) : (s.setCtx k x).turns = s.turns := rfl
@[simp] theorem State.setCtx_ticks (s : State) (k : Nat) (x : Ctx) : (s.setCtx k x).ticks = s.ticks := rfl
@[simp] theorem State.setCtx_draws (s : State) (k : Nat) (x : Ctx) : (s.setCtx k x).draws = s.draws := rfl

/-! ### modCtx -/

@[simp] theorem State.modCtx_ctxs (s : State) (k : Nat) (f : Ctx → Ctx) : (s.modCtx k f).ctxs = s.ctxs.put k (f (s.ctx k)) := rfl
@[simp] theorem State.modCtx_cores (s : State) (k : Nat) (f : Ctx → Ctx) : (s.modCtx k f).cores = s.cores := rfl
@[simp] theorem State.modCtx_clusters (s : State) (k : Nat) (f : Ctx → Ctx) : (s.modCtx k f).clusters = s.clusters := rfl
@[simp] theorem State.modCtx_dies (s : State) (k : Nat) (f : Ctx → Ctx) : (s.modCtx k f).dies = s.dies := rfl
@[simp] theorem State.modCtx_acc (s : State) (k : Nat) (f : Ctx → Ctx) : (s.modCtx k f).acc = s.acc := rfl
@[simp] theorem State.modCtx_mem (s : State) (k : Nat) (f : Ctx → Ctx) : (s.modCtx k f).mem = s.mem := rfl
@[simp] theorem State.modCtx_poison (s : State) (k : Nat) (f : Ctx → Ctx) : (s.modCtx k f).poison = s.poison := rfl
@[simp] theorem State.modCtx_stamps (s : State) (k : Nat) (f : Ctx → Ctx) : (s.modCtx k f).stamps = s.stamps := rfl
@[simp] theorem State.modCtx_launches (s : State) (k : Nat) (f : Ctx → Ctx) : (s.modCtx k f).launches = s.launches := rfl
@[simp] theorem State.modCtx_regions (s : State) (k : Nat) (f : Ctx → Ctx) : (s.modCtx k f).regions = s.regions := rfl
@[simp] theorem State.modCtx_grids (s : State) (k : Nat) (f : Ctx → Ctx) : (s.modCtx k f).grids = s.grids := rfl
@[simp] theorem State.modCtx_parts (s : State) (k : Nat) (f : Ctx → Ctx) : (s.modCtx k f).parts = s.parts := rfl
@[simp] theorem State.modCtx_pushes (s : State) (k : Nat) (f : Ctx → Ctx) : (s.modCtx k f).pushes = s.pushes := rfl
@[simp] theorem State.modCtx_donq (s : State) (k : Nat) (f : Ctx → Ctx) : (s.modCtx k f).donq = s.donq := rfl
@[simp] theorem State.modCtx_offers (s : State) (k : Nat) (f : Ctx → Ctx) : (s.modCtx k f).offers = s.offers := rfl
@[simp] theorem State.modCtx_queues (s : State) (k : Nat) (f : Ctx → Ctx) : (s.modCtx k f).queues = s.queues := rfl
@[simp] theorem State.modCtx_evqs (s : State) (k : Nat) (f : Ctx → Ctx) : (s.modCtx k f).evqs = s.evqs := rfl
@[simp] theorem State.modCtx_flips (s : State) (k : Nat) (f : Ctx → Ctx) : (s.modCtx k f).flips = s.flips := rfl
@[simp] theorem State.modCtx_net (s : State) (k : Nat) (f : Ctx → Ctx) : (s.modCtx k f).net = s.net := rfl
@[simp] theorem State.modCtx_bounces (s : State) (k : Nat) (f : Ctx → Ctx) : (s.modCtx k f).bounces = s.bounces := rfl
@[simp] theorem State.modCtx_acks (s : State) (k : Nat) (f : Ctx → Ctx) : (s.modCtx k f).acks = s.acks := rfl
@[simp] theorem State.modCtx_answers (s : State) (k : Nat) (f : Ctx → Ctx) : (s.modCtx k f).answers = s.answers := rfl
@[simp] theorem State.modCtx_replies (s : State) (k : Nat) (f : Ctx → Ctx) : (s.modCtx k f).replies = s.replies := rfl
@[simp] theorem State.modCtx_pkg (s : State) (k : Nat) (f : Ctx → Ctx) : (s.modCtx k f).pkg = s.pkg := rfl
@[simp] theorem State.modCtx_cur (s : State) (k : Nat) (f : Ctx → Ctx) : (s.modCtx k f).cur = s.cur := rfl
@[simp] theorem State.modCtx_agenda (s : State) (k : Nat) (f : Ctx → Ctx) : (s.modCtx k f).agenda = s.agenda := rfl
@[simp] theorem State.modCtx_pace (s : State) (k : Nat) (f : Ctx → Ctx) : (s.modCtx k f).pace = s.pace := rfl
@[simp] theorem State.modCtx_turns (s : State) (k : Nat) (f : Ctx → Ctx) : (s.modCtx k f).turns = s.turns := rfl
@[simp] theorem State.modCtx_ticks (s : State) (k : Nat) (f : Ctx → Ctx) : (s.modCtx k f).ticks = s.ticks := rfl
@[simp] theorem State.modCtx_draws (s : State) (k : Nat) (f : Ctx → Ctx) : (s.modCtx k f).draws = s.draws := rfl

/-! ### setCore -/

@[simp] theorem State.setCore_ctxs (s : State) (c : Nat) (x : Core) : (s.setCore c x).ctxs = s.ctxs := rfl
@[simp] theorem State.setCore_cores (s : State) (c : Nat) (x : Core) : (s.setCore c x).cores = s.cores.put c x := rfl
@[simp] theorem State.setCore_clusters (s : State) (c : Nat) (x : Core) : (s.setCore c x).clusters = s.clusters := rfl
@[simp] theorem State.setCore_dies (s : State) (c : Nat) (x : Core) : (s.setCore c x).dies = s.dies := rfl
@[simp] theorem State.setCore_acc (s : State) (c : Nat) (x : Core) : (s.setCore c x).acc = s.acc := rfl
@[simp] theorem State.setCore_mem (s : State) (c : Nat) (x : Core) : (s.setCore c x).mem = s.mem := rfl
@[simp] theorem State.setCore_poison (s : State) (c : Nat) (x : Core) : (s.setCore c x).poison = s.poison := rfl
@[simp] theorem State.setCore_stamps (s : State) (c : Nat) (x : Core) : (s.setCore c x).stamps = s.stamps := rfl
@[simp] theorem State.setCore_launches (s : State) (c : Nat) (x : Core) : (s.setCore c x).launches = s.launches := rfl
@[simp] theorem State.setCore_regions (s : State) (c : Nat) (x : Core) : (s.setCore c x).regions = s.regions := rfl
@[simp] theorem State.setCore_grids (s : State) (c : Nat) (x : Core) : (s.setCore c x).grids = s.grids := rfl
@[simp] theorem State.setCore_parts (s : State) (c : Nat) (x : Core) : (s.setCore c x).parts = s.parts := rfl
@[simp] theorem State.setCore_pushes (s : State) (c : Nat) (x : Core) : (s.setCore c x).pushes = s.pushes := rfl
@[simp] theorem State.setCore_donq (s : State) (c : Nat) (x : Core) : (s.setCore c x).donq = s.donq := rfl
@[simp] theorem State.setCore_offers (s : State) (c : Nat) (x : Core) : (s.setCore c x).offers = s.offers := rfl
@[simp] theorem State.setCore_queues (s : State) (c : Nat) (x : Core) : (s.setCore c x).queues = s.queues := rfl
@[simp] theorem State.setCore_evqs (s : State) (c : Nat) (x : Core) : (s.setCore c x).evqs = s.evqs := rfl
@[simp] theorem State.setCore_flips (s : State) (c : Nat) (x : Core) : (s.setCore c x).flips = s.flips := rfl
@[simp] theorem State.setCore_net (s : State) (c : Nat) (x : Core) : (s.setCore c x).net = s.net := rfl
@[simp] theorem State.setCore_bounces (s : State) (c : Nat) (x : Core) : (s.setCore c x).bounces = s.bounces := rfl
@[simp] theorem State.setCore_acks (s : State) (c : Nat) (x : Core) : (s.setCore c x).acks = s.acks := rfl
@[simp] theorem State.setCore_answers (s : State) (c : Nat) (x : Core) : (s.setCore c x).answers = s.answers := rfl
@[simp] theorem State.setCore_replies (s : State) (c : Nat) (x : Core) : (s.setCore c x).replies = s.replies := rfl
@[simp] theorem State.setCore_pkg (s : State) (c : Nat) (x : Core) : (s.setCore c x).pkg = s.pkg := rfl
@[simp] theorem State.setCore_cur (s : State) (c : Nat) (x : Core) : (s.setCore c x).cur = s.cur := rfl
@[simp] theorem State.setCore_agenda (s : State) (c : Nat) (x : Core) : (s.setCore c x).agenda = s.agenda := rfl
@[simp] theorem State.setCore_pace (s : State) (c : Nat) (x : Core) : (s.setCore c x).pace = s.pace := rfl
@[simp] theorem State.setCore_turns (s : State) (c : Nat) (x : Core) : (s.setCore c x).turns = s.turns := rfl
@[simp] theorem State.setCore_ticks (s : State) (c : Nat) (x : Core) : (s.setCore c x).ticks = s.ticks := rfl
@[simp] theorem State.setCore_draws (s : State) (c : Nat) (x : Core) : (s.setCore c x).draws = s.draws := rfl

/-! ### modCore -/

@[simp] theorem State.modCore_ctxs (s : State) (c : Nat) (f : Core → Core) : (s.modCore c f).ctxs = s.ctxs := rfl
@[simp] theorem State.modCore_cores (s : State) (c : Nat) (f : Core → Core) : (s.modCore c f).cores = s.cores.put c (f (s.core c)) := rfl
@[simp] theorem State.modCore_clusters (s : State) (c : Nat) (f : Core → Core) : (s.modCore c f).clusters = s.clusters := rfl
@[simp] theorem State.modCore_dies (s : State) (c : Nat) (f : Core → Core) : (s.modCore c f).dies = s.dies := rfl
@[simp] theorem State.modCore_acc (s : State) (c : Nat) (f : Core → Core) : (s.modCore c f).acc = s.acc := rfl
@[simp] theorem State.modCore_mem (s : State) (c : Nat) (f : Core → Core) : (s.modCore c f).mem = s.mem := rfl
@[simp] theorem State.modCore_poison (s : State) (c : Nat) (f : Core → Core) : (s.modCore c f).poison = s.poison := rfl
@[simp] theorem State.modCore_stamps (s : State) (c : Nat) (f : Core → Core) : (s.modCore c f).stamps = s.stamps := rfl
@[simp] theorem State.modCore_launches (s : State) (c : Nat) (f : Core → Core) : (s.modCore c f).launches = s.launches := rfl
@[simp] theorem State.modCore_regions (s : State) (c : Nat) (f : Core → Core) : (s.modCore c f).regions = s.regions := rfl
@[simp] theorem State.modCore_grids (s : State) (c : Nat) (f : Core → Core) : (s.modCore c f).grids = s.grids := rfl
@[simp] theorem State.modCore_parts (s : State) (c : Nat) (f : Core → Core) : (s.modCore c f).parts = s.parts := rfl
@[simp] theorem State.modCore_pushes (s : State) (c : Nat) (f : Core → Core) : (s.modCore c f).pushes = s.pushes := rfl
@[simp] theorem State.modCore_donq (s : State) (c : Nat) (f : Core → Core) : (s.modCore c f).donq = s.donq := rfl
@[simp] theorem State.modCore_offers (s : State) (c : Nat) (f : Core → Core) : (s.modCore c f).offers = s.offers := rfl
@[simp] theorem State.modCore_queues (s : State) (c : Nat) (f : Core → Core) : (s.modCore c f).queues = s.queues := rfl
@[simp] theorem State.modCore_evqs (s : State) (c : Nat) (f : Core → Core) : (s.modCore c f).evqs = s.evqs := rfl
@[simp] theorem State.modCore_flips (s : State) (c : Nat) (f : Core → Core) : (s.modCore c f).flips = s.flips := rfl
@[simp] theorem State.modCore_net (s : State) (c : Nat) (f : Core → Core) : (s.modCore c f).net = s.net := rfl
@[simp] theorem State.modCore_bounces (s : State) (c : Nat) (f : Core → Core) : (s.modCore c f).bounces = s.bounces := rfl
@[simp] theorem State.modCore_acks (s : State) (c : Nat) (f : Core → Core) : (s.modCore c f).acks = s.acks := rfl
@[simp] theorem State.modCore_answers (s : State) (c : Nat) (f : Core → Core) : (s.modCore c f).answers = s.answers := rfl
@[simp] theorem State.modCore_replies (s : State) (c : Nat) (f : Core → Core) : (s.modCore c f).replies = s.replies := rfl
@[simp] theorem State.modCore_pkg (s : State) (c : Nat) (f : Core → Core) : (s.modCore c f).pkg = s.pkg := rfl
@[simp] theorem State.modCore_cur (s : State) (c : Nat) (f : Core → Core) : (s.modCore c f).cur = s.cur := rfl
@[simp] theorem State.modCore_agenda (s : State) (c : Nat) (f : Core → Core) : (s.modCore c f).agenda = s.agenda := rfl
@[simp] theorem State.modCore_pace (s : State) (c : Nat) (f : Core → Core) : (s.modCore c f).pace = s.pace := rfl
@[simp] theorem State.modCore_turns (s : State) (c : Nat) (f : Core → Core) : (s.modCore c f).turns = s.turns := rfl
@[simp] theorem State.modCore_ticks (s : State) (c : Nat) (f : Core → Core) : (s.modCore c f).ticks = s.ticks := rfl
@[simp] theorem State.modCore_draws (s : State) (c : Nat) (f : Core → Core) : (s.modCore c f).draws = s.draws := rfl

/-! ### setDie -/

@[simp] theorem State.setDie_ctxs (s : State) (d : Nat) (x : Die) : (s.setDie d x).ctxs = s.ctxs := rfl
@[simp] theorem State.setDie_cores (s : State) (d : Nat) (x : Die) : (s.setDie d x).cores = s.cores := rfl
@[simp] theorem State.setDie_clusters (s : State) (d : Nat) (x : Die) : (s.setDie d x).clusters = s.clusters := rfl
@[simp] theorem State.setDie_dies (s : State) (d : Nat) (x : Die) : (s.setDie d x).dies = s.dies.put d x := rfl
@[simp] theorem State.setDie_acc (s : State) (d : Nat) (x : Die) : (s.setDie d x).acc = s.acc := rfl
@[simp] theorem State.setDie_mem (s : State) (d : Nat) (x : Die) : (s.setDie d x).mem = s.mem := rfl
@[simp] theorem State.setDie_poison (s : State) (d : Nat) (x : Die) : (s.setDie d x).poison = s.poison := rfl
@[simp] theorem State.setDie_stamps (s : State) (d : Nat) (x : Die) : (s.setDie d x).stamps = s.stamps := rfl
@[simp] theorem State.setDie_launches (s : State) (d : Nat) (x : Die) : (s.setDie d x).launches = s.launches := rfl
@[simp] theorem State.setDie_regions (s : State) (d : Nat) (x : Die) : (s.setDie d x).regions = s.regions := rfl
@[simp] theorem State.setDie_grids (s : State) (d : Nat) (x : Die) : (s.setDie d x).grids = s.grids := rfl
@[simp] theorem State.setDie_parts (s : State) (d : Nat) (x : Die) : (s.setDie d x).parts = s.parts := rfl
@[simp] theorem State.setDie_pushes (s : State) (d : Nat) (x : Die) : (s.setDie d x).pushes = s.pushes := rfl
@[simp] theorem State.setDie_donq (s : State) (d : Nat) (x : Die) : (s.setDie d x).donq = s.donq := rfl
@[simp] theorem State.setDie_offers (s : State) (d : Nat) (x : Die) : (s.setDie d x).offers = s.offers := rfl
@[simp] theorem State.setDie_queues (s : State) (d : Nat) (x : Die) : (s.setDie d x).queues = s.queues := rfl
@[simp] theorem State.setDie_evqs (s : State) (d : Nat) (x : Die) : (s.setDie d x).evqs = s.evqs := rfl
@[simp] theorem State.setDie_flips (s : State) (d : Nat) (x : Die) : (s.setDie d x).flips = s.flips := rfl
@[simp] theorem State.setDie_net (s : State) (d : Nat) (x : Die) : (s.setDie d x).net = s.net := rfl
@[simp] theorem State.setDie_bounces (s : State) (d : Nat) (x : Die) : (s.setDie d x).bounces = s.bounces := rfl
@[simp] theorem State.setDie_acks (s : State) (d : Nat) (x : Die) : (s.setDie d x).acks = s.acks := rfl
@[simp] theorem State.setDie_answers (s : State) (d : Nat) (x : Die) : (s.setDie d x).answers = s.answers := rfl
@[simp] theorem State.setDie_replies (s : State) (d : Nat) (x : Die) : (s.setDie d x).replies = s.replies := rfl
@[simp] theorem State.setDie_pkg (s : State) (d : Nat) (x : Die) : (s.setDie d x).pkg = s.pkg := rfl
@[simp] theorem State.setDie_cur (s : State) (d : Nat) (x : Die) : (s.setDie d x).cur = s.cur := rfl
@[simp] theorem State.setDie_agenda (s : State) (d : Nat) (x : Die) : (s.setDie d x).agenda = s.agenda := rfl
@[simp] theorem State.setDie_pace (s : State) (d : Nat) (x : Die) : (s.setDie d x).pace = s.pace := rfl
@[simp] theorem State.setDie_turns (s : State) (d : Nat) (x : Die) : (s.setDie d x).turns = s.turns := rfl
@[simp] theorem State.setDie_ticks (s : State) (d : Nat) (x : Die) : (s.setDie d x).ticks = s.ticks := rfl
@[simp] theorem State.setDie_draws (s : State) (d : Nat) (x : Die) : (s.setDie d x).draws = s.draws := rfl

/-! ### modDie -/

@[simp] theorem State.modDie_ctxs (s : State) (d : Nat) (f : Die → Die) : (s.modDie d f).ctxs = s.ctxs := rfl
@[simp] theorem State.modDie_cores (s : State) (d : Nat) (f : Die → Die) : (s.modDie d f).cores = s.cores := rfl
@[simp] theorem State.modDie_clusters (s : State) (d : Nat) (f : Die → Die) : (s.modDie d f).clusters = s.clusters := rfl
@[simp] theorem State.modDie_dies (s : State) (d : Nat) (f : Die → Die) : (s.modDie d f).dies = s.dies.put d (f (s.die d)) := rfl
@[simp] theorem State.modDie_acc (s : State) (d : Nat) (f : Die → Die) : (s.modDie d f).acc = s.acc := rfl
@[simp] theorem State.modDie_mem (s : State) (d : Nat) (f : Die → Die) : (s.modDie d f).mem = s.mem := rfl
@[simp] theorem State.modDie_poison (s : State) (d : Nat) (f : Die → Die) : (s.modDie d f).poison = s.poison := rfl
@[simp] theorem State.modDie_stamps (s : State) (d : Nat) (f : Die → Die) : (s.modDie d f).stamps = s.stamps := rfl
@[simp] theorem State.modDie_launches (s : State) (d : Nat) (f : Die → Die) : (s.modDie d f).launches = s.launches := rfl
@[simp] theorem State.modDie_regions (s : State) (d : Nat) (f : Die → Die) : (s.modDie d f).regions = s.regions := rfl
@[simp] theorem State.modDie_grids (s : State) (d : Nat) (f : Die → Die) : (s.modDie d f).grids = s.grids := rfl
@[simp] theorem State.modDie_parts (s : State) (d : Nat) (f : Die → Die) : (s.modDie d f).parts = s.parts := rfl
@[simp] theorem State.modDie_pushes (s : State) (d : Nat) (f : Die → Die) : (s.modDie d f).pushes = s.pushes := rfl
@[simp] theorem State.modDie_donq (s : State) (d : Nat) (f : Die → Die) : (s.modDie d f).donq = s.donq := rfl
@[simp] theorem State.modDie_offers (s : State) (d : Nat) (f : Die → Die) : (s.modDie d f).offers = s.offers := rfl
@[simp] theorem State.modDie_queues (s : State) (d : Nat) (f : Die → Die) : (s.modDie d f).queues = s.queues := rfl
@[simp] theorem State.modDie_evqs (s : State) (d : Nat) (f : Die → Die) : (s.modDie d f).evqs = s.evqs := rfl
@[simp] theorem State.modDie_flips (s : State) (d : Nat) (f : Die → Die) : (s.modDie d f).flips = s.flips := rfl
@[simp] theorem State.modDie_net (s : State) (d : Nat) (f : Die → Die) : (s.modDie d f).net = s.net := rfl
@[simp] theorem State.modDie_bounces (s : State) (d : Nat) (f : Die → Die) : (s.modDie d f).bounces = s.bounces := rfl
@[simp] theorem State.modDie_acks (s : State) (d : Nat) (f : Die → Die) : (s.modDie d f).acks = s.acks := rfl
@[simp] theorem State.modDie_answers (s : State) (d : Nat) (f : Die → Die) : (s.modDie d f).answers = s.answers := rfl
@[simp] theorem State.modDie_replies (s : State) (d : Nat) (f : Die → Die) : (s.modDie d f).replies = s.replies := rfl
@[simp] theorem State.modDie_pkg (s : State) (d : Nat) (f : Die → Die) : (s.modDie d f).pkg = s.pkg := rfl
@[simp] theorem State.modDie_cur (s : State) (d : Nat) (f : Die → Die) : (s.modDie d f).cur = s.cur := rfl
@[simp] theorem State.modDie_agenda (s : State) (d : Nat) (f : Die → Die) : (s.modDie d f).agenda = s.agenda := rfl
@[simp] theorem State.modDie_pace (s : State) (d : Nat) (f : Die → Die) : (s.modDie d f).pace = s.pace := rfl
@[simp] theorem State.modDie_turns (s : State) (d : Nat) (f : Die → Die) : (s.modDie d f).turns = s.turns := rfl
@[simp] theorem State.modDie_ticks (s : State) (d : Nat) (f : Die → Die) : (s.modDie d f).ticks = s.ticks := rfl
@[simp] theorem State.modDie_draws (s : State) (d : Nat) (f : Die → Die) : (s.modDie d f).draws = s.draws := rfl

/-! ### modCluster -/

@[simp] theorem State.modCluster_ctxs (s : State) (n : Nat) (f : Cluster → Cluster) : (s.modCluster n f).ctxs = s.ctxs := rfl
@[simp] theorem State.modCluster_cores (s : State) (n : Nat) (f : Cluster → Cluster) : (s.modCluster n f).cores = s.cores := rfl
@[simp] theorem State.modCluster_clusters (s : State) (n : Nat) (f : Cluster → Cluster) : (s.modCluster n f).clusters = s.clusters.put n (f (s.cluster n)) := rfl
@[simp] theorem State.modCluster_dies (s : State) (n : Nat) (f : Cluster → Cluster) : (s.modCluster n f).dies = s.dies := rfl
@[simp] theorem State.modCluster_acc (s : State) (n : Nat) (f : Cluster → Cluster) : (s.modCluster n f).acc = s.acc := rfl
@[simp] theorem State.modCluster_mem (s : State) (n : Nat) (f : Cluster → Cluster) : (s.modCluster n f).mem = s.mem := rfl
@[simp] theorem State.modCluster_poison (s : State) (n : Nat) (f : Cluster → Cluster) : (s.modCluster n f).poison = s.poison := rfl
@[simp] theorem State.modCluster_stamps (s : State) (n : Nat) (f : Cluster → Cluster) : (s.modCluster n f).stamps = s.stamps := rfl
@[simp] theorem State.modCluster_launches (s : State) (n : Nat) (f : Cluster → Cluster) : (s.modCluster n f).launches = s.launches := rfl
@[simp] theorem State.modCluster_regions (s : State) (n : Nat) (f : Cluster → Cluster) : (s.modCluster n f).regions = s.regions := rfl
@[simp] theorem State.modCluster_grids (s : State) (n : Nat) (f : Cluster → Cluster) : (s.modCluster n f).grids = s.grids := rfl
@[simp] theorem State.modCluster_parts (s : State) (n : Nat) (f : Cluster → Cluster) : (s.modCluster n f).parts = s.parts := rfl
@[simp] theorem State.modCluster_pushes (s : State) (n : Nat) (f : Cluster → Cluster) : (s.modCluster n f).pushes = s.pushes := rfl
@[simp] theorem State.modCluster_donq (s : State) (n : Nat) (f : Cluster → Cluster) : (s.modCluster n f).donq = s.donq := rfl
@[simp] theorem State.modCluster_offers (s : State) (n : Nat) (f : Cluster → Cluster) : (s.modCluster n f).offers = s.offers := rfl
@[simp] theorem State.modCluster_queues (s : State) (n : Nat) (f : Cluster → Cluster) : (s.modCluster n f).queues = s.queues := rfl
@[simp] theorem State.modCluster_evqs (s : State) (n : Nat) (f : Cluster → Cluster) : (s.modCluster n f).evqs = s.evqs := rfl
@[simp] theorem State.modCluster_flips (s : State) (n : Nat) (f : Cluster → Cluster) : (s.modCluster n f).flips = s.flips := rfl
@[simp] theorem State.modCluster_net (s : State) (n : Nat) (f : Cluster → Cluster) : (s.modCluster n f).net = s.net := rfl
@[simp] theorem State.modCluster_bounces (s : State) (n : Nat) (f : Cluster → Cluster) : (s.modCluster n f).bounces = s.bounces := rfl
@[simp] theorem State.modCluster_acks (s : State) (n : Nat) (f : Cluster → Cluster) : (s.modCluster n f).acks = s.acks := rfl
@[simp] theorem State.modCluster_answers (s : State) (n : Nat) (f : Cluster → Cluster) : (s.modCluster n f).answers = s.answers := rfl
@[simp] theorem State.modCluster_replies (s : State) (n : Nat) (f : Cluster → Cluster) : (s.modCluster n f).replies = s.replies := rfl
@[simp] theorem State.modCluster_pkg (s : State) (n : Nat) (f : Cluster → Cluster) : (s.modCluster n f).pkg = s.pkg := rfl
@[simp] theorem State.modCluster_cur (s : State) (n : Nat) (f : Cluster → Cluster) : (s.modCluster n f).cur = s.cur := rfl
@[simp] theorem State.modCluster_agenda (s : State) (n : Nat) (f : Cluster → Cluster) : (s.modCluster n f).agenda = s.agenda := rfl
@[simp] theorem State.modCluster_pace (s : State) (n : Nat) (f : Cluster → Cluster) : (s.modCluster n f).pace = s.pace := rfl
@[simp] theorem State.modCluster_turns (s : State) (n : Nat) (f : Cluster → Cluster) : (s.modCluster n f).turns = s.turns := rfl
@[simp] theorem State.modCluster_ticks (s : State) (n : Nat) (f : Cluster → Cluster) : (s.modCluster n f).ticks = s.ticks := rfl
@[simp] theorem State.modCluster_draws (s : State) (n : Nat) (f : Cluster → Cluster) : (s.modCluster n f).draws = s.draws := rfl

/-! ### modLaunch -/

@[simp] theorem State.modLaunch_ctxs (s : State) (n : Nat) (f : Launch → Launch) : (s.modLaunch n f).ctxs = s.ctxs := rfl
@[simp] theorem State.modLaunch_cores (s : State) (n : Nat) (f : Launch → Launch) : (s.modLaunch n f).cores = s.cores := rfl
@[simp] theorem State.modLaunch_clusters (s : State) (n : Nat) (f : Launch → Launch) : (s.modLaunch n f).clusters = s.clusters := rfl
@[simp] theorem State.modLaunch_dies (s : State) (n : Nat) (f : Launch → Launch) : (s.modLaunch n f).dies = s.dies := rfl
@[simp] theorem State.modLaunch_acc (s : State) (n : Nat) (f : Launch → Launch) : (s.modLaunch n f).acc = s.acc := rfl
@[simp] theorem State.modLaunch_mem (s : State) (n : Nat) (f : Launch → Launch) : (s.modLaunch n f).mem = s.mem := rfl
@[simp] theorem State.modLaunch_poison (s : State) (n : Nat) (f : Launch → Launch) : (s.modLaunch n f).poison = s.poison := rfl
@[simp] theorem State.modLaunch_stamps (s : State) (n : Nat) (f : Launch → Launch) : (s.modLaunch n f).stamps = s.stamps := rfl
@[simp] theorem State.modLaunch_launches (s : State) (n : Nat) (f : Launch → Launch) : (s.modLaunch n f).launches = s.launches.put n (f (s.launch n)) := rfl
@[simp] theorem State.modLaunch_regions (s : State) (n : Nat) (f : Launch → Launch) : (s.modLaunch n f).regions = s.regions := rfl
@[simp] theorem State.modLaunch_grids (s : State) (n : Nat) (f : Launch → Launch) : (s.modLaunch n f).grids = s.grids := rfl
@[simp] theorem State.modLaunch_parts (s : State) (n : Nat) (f : Launch → Launch) : (s.modLaunch n f).parts = s.parts := rfl
@[simp] theorem State.modLaunch_pushes (s : State) (n : Nat) (f : Launch → Launch) : (s.modLaunch n f).pushes = s.pushes := rfl
@[simp] theorem State.modLaunch_donq (s : State) (n : Nat) (f : Launch → Launch) : (s.modLaunch n f).donq = s.donq := rfl
@[simp] theorem State.modLaunch_offers (s : State) (n : Nat) (f : Launch → Launch) : (s.modLaunch n f).offers = s.offers := rfl
@[simp] theorem State.modLaunch_queues (s : State) (n : Nat) (f : Launch → Launch) : (s.modLaunch n f).queues = s.queues := rfl
@[simp] theorem State.modLaunch_evqs (s : State) (n : Nat) (f : Launch → Launch) : (s.modLaunch n f).evqs = s.evqs := rfl
@[simp] theorem State.modLaunch_flips (s : State) (n : Nat) (f : Launch → Launch) : (s.modLaunch n f).flips = s.flips := rfl
@[simp] theorem State.modLaunch_net (s : State) (n : Nat) (f : Launch → Launch) : (s.modLaunch n f).net = s.net := rfl
@[simp] theorem State.modLaunch_bounces (s : State) (n : Nat) (f : Launch → Launch) : (s.modLaunch n f).bounces = s.bounces := rfl
@[simp] theorem State.modLaunch_acks (s : State) (n : Nat) (f : Launch → Launch) : (s.modLaunch n f).acks = s.acks := rfl
@[simp] theorem State.modLaunch_answers (s : State) (n : Nat) (f : Launch → Launch) : (s.modLaunch n f).answers = s.answers := rfl
@[simp] theorem State.modLaunch_replies (s : State) (n : Nat) (f : Launch → Launch) : (s.modLaunch n f).replies = s.replies := rfl
@[simp] theorem State.modLaunch_pkg (s : State) (n : Nat) (f : Launch → Launch) : (s.modLaunch n f).pkg = s.pkg := rfl
@[simp] theorem State.modLaunch_cur (s : State) (n : Nat) (f : Launch → Launch) : (s.modLaunch n f).cur = s.cur := rfl
@[simp] theorem State.modLaunch_agenda (s : State) (n : Nat) (f : Launch → Launch) : (s.modLaunch n f).agenda = s.agenda := rfl
@[simp] theorem State.modLaunch_pace (s : State) (n : Nat) (f : Launch → Launch) : (s.modLaunch n f).pace = s.pace := rfl
@[simp] theorem State.modLaunch_turns (s : State) (n : Nat) (f : Launch → Launch) : (s.modLaunch n f).turns = s.turns := rfl
@[simp] theorem State.modLaunch_ticks (s : State) (n : Nat) (f : Launch → Launch) : (s.modLaunch n f).ticks = s.ticks := rfl
@[simp] theorem State.modLaunch_draws (s : State) (n : Nat) (f : Launch → Launch) : (s.modLaunch n f).draws = s.draws := rfl

/-! ### post -/

@[simp] theorem State.post_ctxs (s : State) (e : Event) : (s.post e).ctxs = s.ctxs := rfl
@[simp] theorem State.post_cores (s : State) (e : Event) : (s.post e).cores = s.cores := rfl
@[simp] theorem State.post_clusters (s : State) (e : Event) : (s.post e).clusters = s.clusters := rfl
@[simp] theorem State.post_dies (s : State) (e : Event) : (s.post e).dies = s.dies := rfl
@[simp] theorem State.post_acc (s : State) (e : Event) : (s.post e).acc = s.acc := rfl
@[simp] theorem State.post_mem (s : State) (e : Event) : (s.post e).mem = s.mem := rfl
@[simp] theorem State.post_poison (s : State) (e : Event) : (s.post e).poison = s.poison := rfl
@[simp] theorem State.post_stamps (s : State) (e : Event) : (s.post e).stamps = s.stamps := rfl
@[simp] theorem State.post_launches (s : State) (e : Event) : (s.post e).launches = s.launches := rfl
@[simp] theorem State.post_regions (s : State) (e : Event) : (s.post e).regions = s.regions := rfl
@[simp] theorem State.post_grids (s : State) (e : Event) : (s.post e).grids = s.grids := rfl
@[simp] theorem State.post_parts (s : State) (e : Event) : (s.post e).parts = s.parts := rfl
@[simp] theorem State.post_pushes (s : State) (e : Event) : (s.post e).pushes = s.pushes := rfl
@[simp] theorem State.post_donq (s : State) (e : Event) : (s.post e).donq = s.donq := rfl
@[simp] theorem State.post_offers (s : State) (e : Event) : (s.post e).offers = s.offers := rfl
@[simp] theorem State.post_queues (s : State) (e : Event) : (s.post e).queues = s.queues := rfl
@[simp] theorem State.post_evqs (s : State) (e : Event) : (s.post e).evqs = s.evqs := rfl
@[simp] theorem State.post_flips (s : State) (e : Event) : (s.post e).flips = s.flips := rfl
@[simp] theorem State.post_net (s : State) (e : Event) : (s.post e).net = s.net := rfl
@[simp] theorem State.post_bounces (s : State) (e : Event) : (s.post e).bounces = s.bounces := rfl
@[simp] theorem State.post_acks (s : State) (e : Event) : (s.post e).acks = s.acks := rfl
@[simp] theorem State.post_answers (s : State) (e : Event) : (s.post e).answers = s.answers := rfl
@[simp] theorem State.post_replies (s : State) (e : Event) : (s.post e).replies = s.replies := rfl
@[simp] theorem State.post_pkg (s : State) (e : Event) : (s.post e).pkg = s.pkg := rfl
@[simp] theorem State.post_cur (s : State) (e : Event) : (s.post e).cur = s.cur := rfl
@[simp] theorem State.post_agenda (s : State) (e : Event) : (s.post e).agenda = s.agenda ++ [e] := rfl
@[simp] theorem State.post_pace (s : State) (e : Event) : (s.post e).pace = s.pace := rfl
@[simp] theorem State.post_turns (s : State) (e : Event) : (s.post e).turns = s.turns := rfl
@[simp] theorem State.post_ticks (s : State) (e : Event) : (s.post e).ticks = s.ticks := rfl
@[simp] theorem State.post_draws (s : State) (e : Event) : (s.post e).draws = s.draws := rfl

/-! ### Parts that an update does not reach -/

@[simp] theorem State.setCtx_core (s : State) (k : Nat) (x : Ctx) (j : Nat) : (s.setCtx k x).core j = s.core j := rfl
@[simp] theorem State.setCtx_die (s : State) (k : Nat) (x : Ctx) (j : Nat) : (s.setCtx k x).die j = s.die j := rfl
@[simp] theorem State.setCtx_cluster (s : State) (k : Nat) (x : Ctx) (j : Nat) : (s.setCtx k x).cluster j = s.cluster j := rfl
@[simp] theorem State.setCtx_launch (s : State) (k : Nat) (x : Ctx) (j : Nat) : (s.setCtx k x).launch j = s.launch j := rfl
@[simp] theorem State.setCtx_isService (s : State) (k : Nat) (x : Ctx) (j : Nat) : (s.setCtx k x).isService j = s.isService j := rfl
@[simp] theorem State.setCtx_now (s : State) (k : Nat) (x : Ctx) (j : Nat) : (s.setCtx k x).now j = s.now j := rfl
@[simp] theorem State.setCtx_local_ (s : State) (k : Nat) (x : Ctx) (j : Nat) : (s.setCtx k x).local_ j = s.local_ j := rfl
@[simp] theorem State.setCtx_lineStamps (s : State) (k : Nat) (x : Ctx) (j : Nat) : (s.setCtx k x).lineStamps j = s.lineStamps j := rfl
@[simp] theorem State.setCtx_poisoned (s : State) (k : Nat) (x : Ctx) (j : Nat) : (s.setCtx k x).poisoned j = s.poisoned j := rfl
@[simp] theorem State.modCtx_core (s : State) (k : Nat) (f : Ctx → Ctx) (j : Nat) : (s.modCtx k f).core j = s.core j := rfl
@[simp] theorem State.modCtx_die (s : State) (k : Nat) (f : Ctx → Ctx) (j : Nat) : (s.modCtx k f).die j = s.die j := rfl
@[simp] theorem State.modCtx_cluster (s : State) (k : Nat) (f : Ctx → Ctx) (j : Nat) : (s.modCtx k f).cluster j = s.cluster j := rfl
@[simp] theorem State.modCtx_launch (s : State) (k : Nat) (f : Ctx → Ctx) (j : Nat) : (s.modCtx k f).launch j = s.launch j := rfl
@[simp] theorem State.modCtx_isService (s : State) (k : Nat) (f : Ctx → Ctx) (j : Nat) : (s.modCtx k f).isService j = s.isService j := rfl
@[simp] theorem State.modCtx_now (s : State) (k : Nat) (f : Ctx → Ctx) (j : Nat) : (s.modCtx k f).now j = s.now j := rfl
@[simp] theorem State.modCtx_local_ (s : State) (k : Nat) (f : Ctx → Ctx) (j : Nat) : (s.modCtx k f).local_ j = s.local_ j := rfl
@[simp] theorem State.modCtx_lineStamps (s : State) (k : Nat) (f : Ctx → Ctx) (j : Nat) : (s.modCtx k f).lineStamps j = s.lineStamps j := rfl
@[simp] theorem State.modCtx_poisoned (s : State) (k : Nat) (f : Ctx → Ctx) (j : Nat) : (s.modCtx k f).poisoned j = s.poisoned j := rfl
@[simp] theorem State.setCore_ctx (s : State) (c : Nat) (x : Core) (j : Nat) : (s.setCore c x).ctx j = s.ctx j := rfl
@[simp] theorem State.setCore_die (s : State) (c : Nat) (x : Core) (j : Nat) : (s.setCore c x).die j = s.die j := rfl
@[simp] theorem State.setCore_cluster (s : State) (c : Nat) (x : Core) (j : Nat) : (s.setCore c x).cluster j = s.cluster j := rfl
@[simp] theorem State.setCore_launch (s : State) (c : Nat) (x : Core) (j : Nat) : (s.setCore c x).launch j = s.launch j := rfl
@[simp] theorem State.setCore_isService (s : State) (c : Nat) (x : Core) (j : Nat) : (s.setCore c x).isService j = s.isService j := rfl
@[simp] theorem State.setCore_now (s : State) (c : Nat) (x : Core) (j : Nat) : (s.setCore c x).now j = s.now j := rfl
@[simp] theorem State.setCore_local_ (s : State) (c : Nat) (x : Core) (j : Nat) : (s.setCore c x).local_ j = s.local_ j := rfl
@[simp] theorem State.setCore_lineStamps (s : State) (c : Nat) (x : Core) (j : Nat) : (s.setCore c x).lineStamps j = s.lineStamps j := rfl
@[simp] theorem State.setCore_poisoned (s : State) (c : Nat) (x : Core) (j : Nat) : (s.setCore c x).poisoned j = s.poisoned j := rfl
@[simp] theorem State.modCore_ctx (s : State) (c : Nat) (f : Core → Core) (j : Nat) : (s.modCore c f).ctx j = s.ctx j := rfl
@[simp] theorem State.modCore_die (s : State) (c : Nat) (f : Core → Core) (j : Nat) : (s.modCore c f).die j = s.die j := rfl
@[simp] theorem State.modCore_cluster (s : State) (c : Nat) (f : Core → Core) (j : Nat) : (s.modCore c f).cluster j = s.cluster j := rfl
@[simp] theorem State.modCore_launch (s : State) (c : Nat) (f : Core → Core) (j : Nat) : (s.modCore c f).launch j = s.launch j := rfl
@[simp] theorem State.modCore_isService (s : State) (c : Nat) (f : Core → Core) (j : Nat) : (s.modCore c f).isService j = s.isService j := rfl
@[simp] theorem State.modCore_now (s : State) (c : Nat) (f : Core → Core) (j : Nat) : (s.modCore c f).now j = s.now j := rfl
@[simp] theorem State.modCore_local_ (s : State) (c : Nat) (f : Core → Core) (j : Nat) : (s.modCore c f).local_ j = s.local_ j := rfl
@[simp] theorem State.modCore_lineStamps (s : State) (c : Nat) (f : Core → Core) (j : Nat) : (s.modCore c f).lineStamps j = s.lineStamps j := rfl
@[simp] theorem State.modCore_poisoned (s : State) (c : Nat) (f : Core → Core) (j : Nat) : (s.modCore c f).poisoned j = s.poisoned j := rfl
@[simp] theorem State.setDie_cluster (s : State) (d : Nat) (x : Die) (j : Nat) : (s.setDie d x).cluster j = s.cluster j := rfl
@[simp] theorem State.setDie_launch (s : State) (d : Nat) (x : Die) (j : Nat) : (s.setDie d x).launch j = s.launch j := rfl
@[simp] theorem State.setDie_local_ (s : State) (d : Nat) (x : Die) (j : Nat) : (s.setDie d x).local_ j = s.local_ j := rfl
@[simp] theorem State.setDie_poisoned (s : State) (d : Nat) (x : Die) (j : Nat) : (s.setDie d x).poisoned j = s.poisoned j := rfl
@[simp] theorem State.modDie_cluster (s : State) (d : Nat) (f : Die → Die) (j : Nat) : (s.modDie d f).cluster j = s.cluster j := rfl
@[simp] theorem State.modDie_launch (s : State) (d : Nat) (f : Die → Die) (j : Nat) : (s.modDie d f).launch j = s.launch j := rfl
@[simp] theorem State.modDie_local_ (s : State) (d : Nat) (f : Die → Die) (j : Nat) : (s.modDie d f).local_ j = s.local_ j := rfl
@[simp] theorem State.modDie_poisoned (s : State) (d : Nat) (f : Die → Die) (j : Nat) : (s.modDie d f).poisoned j = s.poisoned j := rfl
@[simp] theorem State.modCluster_ctx (s : State) (n : Nat) (f : Cluster → Cluster) (j : Nat) : (s.modCluster n f).ctx j = s.ctx j := rfl
@[simp] theorem State.modCluster_core (s : State) (n : Nat) (f : Cluster → Cluster) (j : Nat) : (s.modCluster n f).core j = s.core j := rfl
@[simp] theorem State.modCluster_die (s : State) (n : Nat) (f : Cluster → Cluster) (j : Nat) : (s.modCluster n f).die j = s.die j := rfl
@[simp] theorem State.modCluster_launch (s : State) (n : Nat) (f : Cluster → Cluster) (j : Nat) : (s.modCluster n f).launch j = s.launch j := rfl
@[simp] theorem State.modCluster_isService (s : State) (n : Nat) (f : Cluster → Cluster) (j : Nat) : (s.modCluster n f).isService j = s.isService j := rfl
@[simp] theorem State.modCluster_now (s : State) (n : Nat) (f : Cluster → Cluster) (j : Nat) : (s.modCluster n f).now j = s.now j := rfl
@[simp] theorem State.modCluster_local_ (s : State) (n : Nat) (f : Cluster → Cluster) (j : Nat) : (s.modCluster n f).local_ j = s.local_ j := rfl
@[simp] theorem State.modCluster_lineStamps (s : State) (n : Nat) (f : Cluster → Cluster) (j : Nat) : (s.modCluster n f).lineStamps j = s.lineStamps j := rfl
@[simp] theorem State.modCluster_poisoned (s : State) (n : Nat) (f : Cluster → Cluster) (j : Nat) : (s.modCluster n f).poisoned j = s.poisoned j := rfl
@[simp] theorem State.modLaunch_ctx (s : State) (n : Nat) (f : Launch → Launch) (j : Nat) : (s.modLaunch n f).ctx j = s.ctx j := rfl
@[simp] theorem State.modLaunch_core (s : State) (n : Nat) (f : Launch → Launch) (j : Nat) : (s.modLaunch n f).core j = s.core j := rfl
@[simp] theorem State.modLaunch_die (s : State) (n : Nat) (f : Launch → Launch) (j : Nat) : (s.modLaunch n f).die j = s.die j := rfl
@[simp] theorem State.modLaunch_cluster (s : State) (n : Nat) (f : Launch → Launch) (j : Nat) : (s.modLaunch n f).cluster j = s.cluster j := rfl
@[simp] theorem State.modLaunch_isService (s : State) (n : Nat) (f : Launch → Launch) (j : Nat) : (s.modLaunch n f).isService j = s.isService j := rfl
@[simp] theorem State.modLaunch_now (s : State) (n : Nat) (f : Launch → Launch) (j : Nat) : (s.modLaunch n f).now j = s.now j := rfl
@[simp] theorem State.modLaunch_local_ (s : State) (n : Nat) (f : Launch → Launch) (j : Nat) : (s.modLaunch n f).local_ j = s.local_ j := rfl
@[simp] theorem State.modLaunch_lineStamps (s : State) (n : Nat) (f : Launch → Launch) (j : Nat) : (s.modLaunch n f).lineStamps j = s.lineStamps j := rfl
@[simp] theorem State.modLaunch_poisoned (s : State) (n : Nat) (f : Launch → Launch) (j : Nat) : (s.modLaunch n f).poisoned j = s.poisoned j := rfl
@[simp] theorem State.post_ctx (s : State) (e : Event) (j : Nat) : (s.post e).ctx j = s.ctx j := rfl
@[simp] theorem State.post_core (s : State) (e : Event) (j : Nat) : (s.post e).core j = s.core j := rfl
@[simp] theorem State.post_die (s : State) (e : Event) (j : Nat) : (s.post e).die j = s.die j := rfl
@[simp] theorem State.post_cluster (s : State) (e : Event) (j : Nat) : (s.post e).cluster j = s.cluster j := rfl
@[simp] theorem State.post_launch (s : State) (e : Event) (j : Nat) : (s.post e).launch j = s.launch j := rfl
@[simp] theorem State.post_isService (s : State) (e : Event) (j : Nat) : (s.post e).isService j = s.isService j := rfl
@[simp] theorem State.post_now (s : State) (e : Event) (j : Nat) : (s.post e).now j = s.now j := rfl
@[simp] theorem State.post_local_ (s : State) (e : Event) (j : Nat) : (s.post e).local_ j = s.local_ j := rfl
@[simp] theorem State.post_lineStamps (s : State) (e : Event) (j : Nat) : (s.post e).lineStamps j = s.lineStamps j := rfl
@[simp] theorem State.post_poisoned (s : State) (e : Event) (j : Nat) : (s.post e).poisoned j = s.poisoned j := rfl

/-! ### Reading a part that has been replaced -/

@[simp] theorem State.ctx_setCtx_same (s : State) (k : Nat) (x : Ctx) : (s.setCtx k x).ctx k = x := by simp [State.ctx]

theorem State.ctx_setCtx_ne (s : State) (k j : Nat) (x : Ctx) (h : j ≠ k) : (s.setCtx k x).ctx j = s.ctx j := by
  simp only [State.ctx, State.setCtx]; rw [Tab.get_put_ne _ _ _ _ _ h]; rfl

@[simp] theorem State.ctx_modCtx_same (s : State) (k : Nat) (f : Ctx → Ctx) : (s.modCtx k f).ctx k = f (s.ctx k) := by simp [State.modCtx]

theorem State.ctx_modCtx_ne (s : State) (k j : Nat) (f : Ctx → Ctx) (h : j ≠ k) : (s.modCtx k f).ctx j = s.ctx j := by
  simp [State.modCtx, State.ctx_setCtx_ne _ _ _ _ h]

@[simp] theorem State.setCtx_setCtx (s : State) (k : Nat) (x y : Ctx) : (s.setCtx k x).setCtx k y = s.setCtx k y := by simp [State.setCtx]

@[simp] theorem State.modCtx_setCtx (s : State) (k : Nat) (x : Ctx) (f : Ctx → Ctx) : (s.setCtx k x).modCtx k f = s.setCtx k (f x) := by
  simp [State.modCtx]

theorem State.modCtx_eq (s : State) (k : Nat) (f : Ctx → Ctx) : s.modCtx k f = s.setCtx k (f (s.ctx k)) := rfl

@[simp] theorem State.core_setCore_same (s : State) (c : Nat) (x : Core) : (s.setCore c x).core c = x := by simp [State.core]

theorem State.core_setCore_ne (s : State) (c j : Nat) (x : Core) (h : j ≠ c) : (s.setCore c x).core j = s.core j := by
  simp only [State.core, State.setCore]; rw [Tab.get_put_ne _ _ _ _ _ h]; rfl

@[simp] theorem State.core_modCore_same (s : State) (c : Nat) (f : Core → Core) : (s.modCore c f).core c = f (s.core c) := by
  simp [State.modCore]

@[simp] theorem State.setCore_setCore (s : State) (c : Nat) (x y : Core) : (s.setCore c x).setCore c y = s.setCore c y := by
  simp [State.setCore]

@[simp] theorem State.die_setDie_same (s : State) (d : Nat) (x : Die) : (s.setDie d x).die d = x := by simp [State.die]

theorem State.die_setDie_ne (s : State) (d j : Nat) (x : Die) (h : j ≠ d) : (s.setDie d x).die j = s.die j := by
  simp [State.die, Tab.get_put_ne _ _ _ _ _ h]

@[simp] theorem State.die_modDie_same (s : State) (d : Nat) (f : Die → Die) : (s.modDie d f).die d = f (s.die d) := by simp [State.modDie]

theorem State.die_modDie_ne (s : State) (d j : Nat) (f : Die → Die) (h : j ≠ d) : (s.modDie d f).die j = s.die j := by
  simp [State.modDie, State.die_setDie_ne _ _ _ _ h]

@[simp] theorem State.launch_modLaunch_same (s : State) (n : Nat) (f : Launch → Launch) : (s.modLaunch n f).launch n = f (s.launch n) := by
  simp [State.launch, State.modLaunch]

@[simp] theorem State.cluster_modCluster_same (s : State) (n : Nat) (f : Cluster → Cluster) :
    (s.modCluster n f).cluster n = f (s.cluster n) := by
  simp [State.cluster, State.modCluster]

/-! ### Registers (R133, R161, R164) -/

/-- s0 reads zero whatever the registers hold. -/
@[simp] theorem Regs.rs_zero (g : Regs) : g.rs 0 = 0 := rfl

/-- k0 reads all ones. -/
@[simp] theorem Regs.rk_zero (g : Regs) : g.rk 0 = BitVec.allOnes 64 := rfl

@[simp] theorem Regs.ws_zero (g : Regs) (x : Word) : g.ws 0 x = g := rfl

@[simp] theorem Regs.wk_zero (g : Regs) (x : Word) : g.wk 0 x = g := rfl

theorem Regs.rs_ws (g : Regs) (r q : Reg) (x : Word) : (g.ws r x).rs q = if q = 0 then 0 else if q = r then x else g.rs q := by
  unfold Regs.ws Regs.rs
  by_cases hq : q = 0
  · rw [if_pos hq, if_pos hq]
  · rw [if_neg hq, if_neg hq, if_neg hq]
    by_cases hr : r = 0
    · rw [if_pos hr, if_neg (hr ▸ hq)]
    · rw [if_neg hr, Tab.get_put]
      simp only [BitVec.toNat_inj]

theorem Regs.rv_wv (g : Regs) (r q : Reg) (x : VReg) : (g.wv r x).rv q = if q = r then x else g.rv q := by
  by_cases h : q = r
  · simp [Regs.rv, Regs.wv, h]
  · have : q.toNat ≠ r.toNat := fun h' => h (BitVec.eq_of_toNat_eq h')
    simp [Regs.rv, Regs.wv, h, Tab.get_put_ne _ _ _ _ _ this]

theorem Regs.rk_wk (g : Regs) (r q : KReg) (x : Word) :
    (g.wk r x).rk q = if q = 0 then BitVec.allOnes 64 else if q = r then x else g.rk q := by
  unfold Regs.wk Regs.rk
  by_cases hq : q = 0
  · rw [if_pos hq, if_pos hq]
  · rw [if_neg hq, if_neg hq, if_neg hq]
    by_cases hr : r = 0
    · rw [if_pos hr, if_neg (hr ▸ hq)]
    · rw [if_neg hr, Tab.get_put]
      simp only [BitVec.toNat_inj]

@[simp] theorem Regs.rs_wv (g : Regs) (r : Reg) (x : VReg) (q : Reg) : (g.wv r x).rs q = g.rs q := rfl
@[simp] theorem Regs.rk_wv (g : Regs) (r : Reg) (x : VReg) (q : KReg) : (g.wv r x).rk q = g.rk q := rfl
@[simp] theorem Regs.rs_wk (g : Regs) (r : KReg) (x : Word) (q : Reg) : (g.wk r x).rs q = g.rs q := by unfold Regs.wk; split <;> rfl
@[simp] theorem Regs.rv_wk (g : Regs) (r : KReg) (x : Word) (q : Reg) : (g.wk r x).rv q = g.rv q := by unfold Regs.wk; split <;> rfl
@[simp] theorem Regs.rv_ws (g : Regs) (r : Reg) (x : Word) (q : Reg) : (g.ws r x).rv q = g.rv q := by unfold Regs.ws; split <;> rfl
@[simp] theorem Regs.rk_ws (g : Regs) (r : Reg) (x : Word) (q : KReg) : (g.ws r x).rk q = g.rk q := by unfold Regs.ws; split <;> rfl

end Sys2Proof.Machine
end

