-- ==== Sys2Proof/Laws/Ops.lean ====
section
/-! SUPPORT. What the shared operations of issue and of taking a trap can do, said once for each (R54 to R60, R498, R499). -/

namespace Sys2Proof.Machine

/-! ### Completing an instruction -/

theorem State.ctx_started (s : State) (i : Instr) : ((s.started i).ctx s.cur).regs = (s.ctx s.cur).regs := by simp [State.started]

@[simp] theorem State.env_k (s : State) (i : Instr) : (s.env i).k = s.cur := rfl
@[simp] theorem State.env_pc (s : State) (i : Instr) : (s.env i).pc = (s.ctx s.cur).pc := rfl
@[simp] theorem State.env_regs (s : State) (i : Instr) : (s.env i).regs = (s.ctx s.cur).regs := rfl
@[simp] theorem State.env_wait (s : State) (i : Instr) : (s.env i).wait = none := rfl
@[simp] theorem State.env_next (s : State) (i : Instr) : (s.env i).next = (s.ctx s.cur).pc + BitVec.ofNat 64 i.length := rfl

/-- Register writes of a context, none of them a tile, change the context alone. -/
theorem State.wrs_setCtx (s : State) (k : Nat) (c : Ctx) (ws : List Wr) (h : ∀ w ∈ ws, w.isTile = false) :
    (s.setCtx k c).wrs k ws = s.setCtx k { c with regs := c.regs.after ws } := by
  induction ws generalizing c with
  | nil => rfl
  | cons w ws ih =>
    have ih := fun c => ih c fun x hx => h x (by simp [hx])
    have hw := h w (by simp)
    cases w with
    | tile n x d => simp [Wr.isTile] at hw
    | s r x => simp [State.wrs, State.wr] at ih ⊢; rw [ih]; rfl
    | v r x => simp [State.wrs, State.wr] at ih ⊢; rw [ih]; rfl
    | k r x => simp [State.wrs, State.wr] at ih ⊢; rw [ih]; rfl

/-- An instruction's windows are settled: no result due, no fault, no wait. -/
theorem State.advance_quiet (s : State) (k : Nat) (hr : (s.ctx k).state = .running)
    (ho : ∀ o ∈ (s.ctx k).win.outst, o.due (s.ctx k).win.seq = false) : s.advance k = s.setCtx k (s.ctx k) := by
  have hf : ((s.ctx k).win.outst.any fun o => o.faulted && o.due (s.ctx k).win.seq) = false := by
    rw [List.any_eq_false]; intro o h; simp [ho o h]
  have hl : (s.ctx k).win.limit = (s.ctx k).win.seq := by simp only [Win.limit, hf]; rfl
  have hn : (s.ctx k).win.outst.filter (fun o => o.ripe (s.ctx k).win.seq) = [] := by
    rw [List.filter_eq_nil_iff]; intro o h; simp [Outst.ripe, ho o h]
  have hk : (s.ctx k).win.outst.filter (fun o => !o.ripe (s.ctx k).win.seq) = (s.ctx k).win.outst := by
    rw [List.filter_eq_self]; intro o h; simp [Outst.ripe, ho o h]
  have hp : (s.ctx k).win.outst.find? (fun o => o.due (s.ctx k).win.seq && o.pending) = none := by
    rw [List.find?_eq_none]; intro o h; simp [ho o h]
  have hc : s.close k = s.setCtx k (s.ctx k) := by
    simp only [State.close, hl, hn, List.foldl_nil, State.modCtx, hk]
  simp only [State.advance, hc, State.settleTraps, State.ctx_setCtx_same, hf, Bool.not_false, Bool.or_true, if_true]
  simp only [State.setWaitState, State.ctx_setCtx_same, hp, hr]
  simp

/-- The record of an instruction at place q with a result that is held. -/
theorem State.retire_held (s : State) (k q la : Nat) (pc next : Word) (ws : List Wr) (h : la ≠ 0) :
    s.retire k q la pc next ws = (s.setCtx k { s.ctx k with win := { (s.ctx k).win.count ws with outst := ((s.ctx k).win.count ws).outst ++
      [{ pos := q, la := la, pc := pc, next := next, dropped := [], res := .ok ws }] } }).advance k := by
  simp only [State.retire, if_neg h, State.modCtx_eq, State.ctx_setCtx_same, State.setCtx_setCtx]

/-- The record of an instruction whose result is written at once. -/
theorem State.retire_now (s : State) (k q : Nat) (pc next : Word) (ws : List Wr) (h : ∀ w ∈ ws, w.isTile = false) :
    s.retire k q 0 pc next ws =
      (s.setCtx k { s.ctx k with regs := (s.ctx k).regs.after ws, win := (s.ctx k).win.count ws }).advance k := by
  simp only [State.retire, if_true, State.modCtx_eq, State.wrs_setCtx _ _ _ _ h]

/-- With no result outstanding and its context running, an instruction that leaves the issue stage with a result has completed. -/
theorem State.retire_completes (s : State) (k la : Nat) (pc next : Word) (ws : List Wr) (hr : (s.ctx k).state = .running)
    (ho : (s.ctx k).win.outst = []) (ht : ∀ w ∈ ws, w.isTile = false) :
    s.Completes (s.retire k (s.ctx k).win.seq la pc next ws) k la pc next ws := by
  by_cases hl : la = 0
  · subst hl
    rw [State.retire_now _ _ _ _ _ _ ht, State.advance_quiet _ _ (by simpa using hr) (by simp [Win.count, Win.dropFor, ho])]
    refine ⟨by simp, ?_⟩
    simp only [State.ctx_setCtx_same, State.setCtx_setCtx]
    exact ⟨by simp, by simp [Win.count], by simp [Win.count, Win.dropFor], by simp [Win.count, Win.dropFor, ho]⟩
  · rw [State.retire_held _ _ _ _ _ _ _ hl, State.advance_quiet _ _ (by simpa using hr)
      (by simp [Win.count, Win.dropFor, ho, Outst.due]; omega)]
    refine ⟨by simp, ?_⟩
    simp only [State.ctx_setCtx_same, State.setCtx_setCtx]
    exact ⟨by simp [hl], by simp [Win.count], by simp [Win.count, Win.dropFor], by simp [hl, Win.count, Win.dropFor, ho]⟩

/-! ### Issue -/

/-- What an instruction that issues now comes to (R54 to R61): its attempt's outcome recorded. -/
theorem State.issue_ready (s : State) (i : Instr) (la : Nat) (f : Env → State → Att) (h : s.Ready) :
    s.issue i la f = .next (match f (s.env i) (s.started i) with
      | .done ws s2 => s2.retire s.cur (s.ctx s.cur).win.seq la (s.ctx s.cur).pc ((s.ctx s.cur).pc + BitVec.ofNat 64 i.length) ws
      | .trap late code val s2 =>
        s2.enter s.cur (s.ctx s.cur).win.seq (if late then la else 0) (s.ctx s.cur).pc ((s.ctx s.cur).pc + BitVec.ofNat 64 i.length) []
          (.trap code (BitVec.ofNat 64 val))
      | .wait x s2 => s2.enter s.cur (s.ctx s.cur).win.seq la (s.ctx s.cur).pc ((s.ctx s.cur).pc + BitVec.ofNat 64 i.length)
          (s.destsOf s.cur i) (.pend i (s.ctx s.cur).regs x)
      | .switch s2 => s2) := by
  have ho := h.2
  simp only [State.issue, Win.waiting, Win.stuck, mustWait, ho, List.any_nil, Bool.and_false, Bool.or_false, Bool.false_and]
  rfl

@[simp] theorem State.started_ctx (s : State) (i : Instr) : (s.started i).ctx s.cur =
    { s.ctx s.cur with pc := (s.ctx s.cur).pc + BitVec.ofNat 64 i.length,
                       win := { (s.ctx s.cur).win with path := (s.ctx s.cur).win.prune ((s.ctx s.cur).win.path.put (s.ctx s.cur).win.seq (s.ctx s.cur).pc) } } := by
  simp [State.started]

@[simp] theorem State.started_cur (s : State) (i : Instr) : (s.started i).cur = s.cur := rfl

/-- An attempt that is done, in a state whose context still runs with nothing outstanding, completes the instruction. -/
theorem State.issue_done (s s2 : State) (i : Instr) (la : Nat) (f : Env → State → Att) (ws : List Wr) (h : s.Ready)
    (hf : f (s.env i) (s.started i) = .done ws s2) (hr : (s2.ctx s.cur).state = .running) (ho : (s2.ctx s.cur).win.outst = [])
    (hq : (s2.ctx s.cur).win.seq = (s.ctx s.cur).win.seq) (ht : ∀ w ∈ ws, w.isTile = false) :
    ∃ t, s.issue i la f = .next t ∧ s2.Completes t s.cur la (s.ctx s.cur).pc ((s.ctx s.cur).pc + BitVec.ofNat 64 i.length) ws := by
  rw [State.issue_ready _ _ _ _ h, hf]
  exact ⟨_, rfl, hq ▸ s2.retire_completes s.cur la _ _ ws hr ho ht⟩

/-- An attempt that is done with nothing else changed gives the instruction's register writes. -/
theorem State.issue_gives (s : State) (i : Instr) (la : Nat) (f : Env → State → Att) (s2 : State) (ws : List Wr) (h : s.Ready)
    (he : exec i s = s.issue i la f) (hf : f (s.env i) (s.started i) = .done ws s2) (hr : (s2.ctx s.cur).state = .running)
    (ho : (s2.ctx s.cur).win.outst = []) (hq : (s2.ctx s.cur).win.seq = (s.ctx s.cur).win.seq) (ht : ∀ w ∈ ws, w.isTile = false) :
    s.Gives i s2 la ws := by
  rw [State.Gives, he]
  exact State.issue_done s s2 i la f ws h hf hr ho hq ht

/-- An attempt that only writes registers. -/
theorem State.issue_sets (s : State) (i : Instr) (la : Nat) (f : Env → State → Att) (ws : List Wr) (h : s.Ready)
    (he : exec i s = s.issue i la f) (hf : f (s.env i) (s.started i) = .done ws (s.started i)) (ht : ∀ w ∈ ws, w.isTile = false) :
    s.Sets i la ws :=
  State.issue_gives s i la f _ ws h he hf (by simpa using h.1) (by simpa using h.2) (by simp) ht

/-- How a context waits does not depend on its windows, and waiting at a stall point leaves a running context as it is. -/
theorem Ctx.waits_win (c : Ctx) (w : Win) (h : CtxState) : Ctx.waits { c with win := w } h = { c.waits h with win := w } := by
  unfold Ctx.waits; dsimp only; split <;> rfl

theorem Ctx.waits_running (c : Ctx) (h : c.state = .running) : c.waits .running = c := by
  have e : c.waits .running = { c with state := .running } := rfl
  rw [e, ← h]

/-- An instruction that waits, in a context that runs with nothing else outstanding. -/
theorem State.enter_waits (s : State) (k la : Nat) (pc next : Word) (i : Instr) (w : Wait) (ds : List Wr) (hr : (s.ctx k).state = .running)
    (ho : (s.ctx k).win.outst = []) :
    s.enter k (s.ctx k).win.seq la pc next ds (.pend i (s.ctx k).regs w) = s.setCtx k
      { (if la = 0 then (s.ctx k).waits w.how else s.ctx k) with win := { (s.ctx k).win.count ds with outst :=
        [{ pos := (s.ctx k).win.seq, la := la, pc := pc, next := next, dropped := [], res := .pend i (s.ctx k).regs w }] } } := by
  have hq : ∀ (t : State) (q : Nat), (t.ctx k).win.outst =
      [{ pos := q, la := la, pc := pc, next := next, dropped := [], res := .pend i (s.ctx k).regs w }] → (t.ctx k).win.seq = q + 1 →
      (t.close k).settleTraps k = t.setCtx k (t.ctx k) := by
    intro t q h1 h2
    have hf : ((t.ctx k).win.outst.any fun o => o.faulted && o.due (t.ctx k).win.seq) = false := by simp [h1, Outst.faulted]
    have hl : (t.ctx k).win.limit = (t.ctx k).win.seq := by simp only [Win.limit, hf]; rfl
    have hn : (t.ctx k).win.outst.filter (fun o => o.ripe (t.ctx k).win.seq) = [] := by simp [h1, Outst.ripe, Outst.pending]
    have hk : (t.ctx k).win.outst.filter (fun o => !o.ripe (t.ctx k).win.seq) = (t.ctx k).win.outst := by simp [h1, Outst.ripe, Outst.pending]
    have hc : t.close k = t.setCtx k (t.ctx k) := by simp only [State.close, hl, hn, List.foldl_nil, State.modCtx, hk]
    simp only [hc, State.settleTraps, State.ctx_setCtx_same, hf, Bool.not_false, Bool.or_true, if_true]
  unfold State.enter State.advance
  rw [hq _ (s.ctx k).win.seq (by simp [Win.count, Win.dropFor, ho]) (by simp [Win.count])]
  by_cases hl : la = 0
  · subst hl
    by_cases hw : w.how = .running
    · simp [State.setWaitState, State.modCtx_eq, Win.dropFor, Win.count, ho, Outst.due, Outst.pending, hw, Ctx.waits_running _ hr]
    · simp [State.setWaitState, State.modCtx_eq, Win.dropFor, Win.count, ho, Outst.due, Outst.pending, hw, Ctx.waits_win]
  · have : ¬((s.ctx k).win.seq + la < (s.ctx k).win.seq + 1) := by omega
    simp [State.setWaitState, State.modCtx_eq, Win.dropFor, Win.count, ho, Outst.due, Outst.pending, hr, hl]

/-- An attempt that waits, in a state whose context runs with nothing outstanding. -/
theorem State.issue_waits (s s2 : State) (i : Instr) (la : Nat) (f : Env → State → Att) (w : Wait) (h : s.Ready)
    (hf : f (s.env i) (s.started i) = .wait w s2) (hr : (s2.ctx s.cur).state = .running) (ho : (s2.ctx s.cur).win.outst = [])
    (hq : (s2.ctx s.cur).win.seq = (s.ctx s.cur).win.seq) (hg : (s2.ctx s.cur).regs = (s.ctx s.cur).regs) :
    ∃ t, s.issue i la f = .next t ∧ t = s2.setCtx s.cur (t.ctx s.cur) ∧
      (s2.ctx s.cur).Waiting (t.ctx s.cur) la (s.ctx s.cur).pc ((s.ctx s.cur).pc + BitVec.ofNat 64 i.length) i w := by
  rw [State.issue_ready _ _ _ _ h, hf]
  refine ⟨_, rfl, ?_⟩
  simp only []
  rw [← hq, ← hg, State.enter_waits _ _ _ _ _ _ _ _ hr ho]
  refine ⟨by simp, by simp, by simp [Win.count], by simp⟩

/-! ### Traps -/

/-- An enabled trap that is entered writes the registers of its mode, freezes the windows and goes to the vector (R498). -/
theorem State.enterTrap_enabled (s : State) (k p code : Nat) (val epc : Word) (done : List Nat) (h : (s.ctx k).Enabled) :
    s.enterTrap k p code val epc done = s.setCtx k
      { ((s.ctx k).setTrap (BitVec.ofNat 64 (2 ^ 63 + skipMask done p * 2 ^ 32 + code)) val (epc &&& ~~~1)) with
        pc := (s.ctx k).vec &&& ~~~1, state := .running, member := false, latch := none,
        frozenT := some ((s.ctx k).win.frozenAt p (s.ctx k).pc done), win := Win.reset } := by
  have h1 : ¬((s.ctx k).vec.toNat % 2 = 0 ∨ bit (s.ctx k).cause.toNat 63 = true) := by
    rw [h.1, h.2]; simp
  simp only [State.enterTrap, Bool.or_eq_true, decide_eq_true_eq, if_neg h1]

/-- A trap that is not enabled escalates (R499). -/
theorem State.enterTrap_disabled (s : State) (k p code : Nat) (val epc : Word) (done : List Nat)
    (h : (s.ctx k).vec.toNat % 2 = 0 ∨ bit (s.ctx k).cause.toNat 63 = true) :
    s.enterTrap k p code val epc done = s.escalate k code := by
  simp only [State.enterTrap, Bool.or_eq_true, decide_eq_true_eq, if_pos h]

/-- A context whose only outstanding instruction has faulted at place q, the one just before the next, takes the trap. -/
theorem State.advance_trap (s : State) (k q : Nat) (pc next : Word) (code : Nat) (val : Word) (dr : List Wr)
    (ho : (s.ctx k).win.outst = [{ pos := q, la := 0, pc := pc, next := next, dropped := dr, res := .trap code val }])
    (hs : (s.ctx k).win.seq = q + 1) :
    s.advance k = (((s.setCtx k (s.ctx k)).enterTrap k q code val pc
      ((s.ctx k).win.done.filter fun p => decide (q + 1 ≤ p))).setWaitState k) := by
  have hl : (s.ctx k).win.limit = q := by
    simp [Win.limit, ho, hs, List.filter_cons, Outst.faulted, Outst.due]
  have hcl : s.close k = s.setCtx k (s.ctx k) := by
    have h1 : (s.ctx k).win.outst.filter (fun o => o.ripe q) = [] := by simp [ho, Outst.ripe, Outst.faulted]
    have h2 : (s.ctx k).win.outst.filter (fun o => !o.ripe q) = (s.ctx k).win.outst := by simp [ho, Outst.ripe, Outst.faulted]
    simp only [State.close, hl, State.modCtx_eq, h1, h2, List.foldl_nil]
  have hd : (s.ctx k).win.doneAfter q = (s.ctx k).win.done.filter fun p => decide (q + 1 ≤ p) := by
    simp [Win.doneAfter, hs]
  have hw : ((s.ctx k).win.waiting || !((s.ctx k).win.outst.any fun o => o.faulted && o.due (s.ctx k).win.seq)) = false := by
    simp [ho, hs, Win.waiting, Outst.pending, Outst.faulted, Outst.due]
  have hf : (s.ctx k).win.outst.find? Outst.faulted =
      some { pos := q, la := 0, pc := pc, next := next, dropped := dr, res := .trap code val } := by
    simp [ho, Outst.faulted]
  simp only [State.advance, hcl, State.settleTraps, State.ctx_setCtx_same, hw, State.trapOldest, State.takeTrap, hf, hd]
  rfl

/-- A fault without lookahead at the next place of a context with nothing outstanding is taken at once. -/
theorem State.enter_trap (s : State) (k : Nat) (pc next : Word) (code : Nat) (val : Word) (ho : (s.ctx k).win.outst = []) :
    s.enter k (s.ctx k).win.seq 0 pc next [] (.trap code val) =
      (((s.setCtx k { s.ctx k with win := { (s.ctx k).win.count [] with outst :=
        [{ pos := (s.ctx k).win.seq, la := 0, pc := pc, next := next, dropped := [], res := .trap code val }] } }).enterTrap k
          (s.ctx k).win.seq code val pc ((s.ctx k).win.done.filter fun q => decide ((s.ctx k).win.seq + 1 ≤ q))).setWaitState k) := by
  unfold State.enter
  rw [State.advance_trap _ k (s.ctx k).win.seq pc next code val [] (by simp [Win.count, Win.dropFor, ho]) (by simp [Win.count])]
  simp [State.modCtx_eq, Win.count, Win.dropFor, ho]

/-- A context that runs and has nothing outstanding counts as running. -/
theorem State.setWaitState_quiet (s : State) (k : Nat) (x : Ctx) (hr : x.state = .running) (ho : x.win.outst = []) :
    (s.setCtx k x).setWaitState k = s.setCtx k x := by
  simp [State.setWaitState, ho, hr]

/-- An attempt that traps without other effect takes the trap, where it is enabled. -/
theorem State.issue_trap (s : State) (i : Instr) (la : Nat) (f : Env → State → Att) (late : Bool) (code val : Nat) (h : s.Ready)
    (he : (s.ctx s.cur).Enabled) (hf : f (s.env i) (s.started i) = .trap late code val (s.started i)) (hl : late = true → la = 0) :
    ∃ t, s.issue i la f = .next t ∧ t = s.setCtx s.cur (t.ctx s.cur) ∧
      (s.ctx s.cur).Trapped (t.ctx s.cur) code (BitVec.ofNat 64 val) := by
  have h0 : (if late then la else 0) = 0 := by cases late <;> simp; exact hl rfl
  rw [State.issue_ready _ _ _ _ h, hf]
  simp only [h0]
  refine ⟨_, rfl, ?_⟩
  have hq : (s.ctx s.cur).win.seq = ((s.started i).ctx s.cur).win.seq := by simp
  rw [hq, State.enter_trap _ _ _ _ _ _ (by simp [h.2])]
  rw [State.enterTrap_enabled _ _ _ _ _ _ _ (by simpa [Ctx.Enabled, Ctx.vec, Ctx.cause] using he), State.setCtx_setCtx,
    State.setWaitState_quiet _ _ _ rfl rfl]
  refine ⟨by simp [State.started], ?_⟩
  rw [State.ctx_setCtx_same]
  refine ⟨?_, _, rfl, ?_, ?_⟩
  · simp only [State.ctx_setCtx_same, State.started_ctx, Ctx.setTrap, Ctx.causeWord, Ctx.vec]
    split <;> rfl
  · simp [Win.frozenAt, Outst.faulted]
  · simp [Win.frozenAt]

/-- An attempt that traps late with lookahead leaves its fault for the end of the window. -/
theorem State.issue_defers (s : State) (i : Instr) (la : Nat) (f : Env → State → Att) (code val : Nat) (h : s.Ready)
    (he : exec i s = s.issue i la f) (hl : la ≠ 0) (hf : f (s.env i) (s.started i) = .trap true code val (s.started i)) :
    s.Defers i la code (BitVec.ofNat 64 val) := by
  rw [State.Defers, he, State.issue_ready _ _ _ _ h, hf]
  refine ⟨_, rfl, ?_⟩
  have hd : ¬((s.ctx s.cur).win.seq + la < (s.ctx s.cur).win.seq + 1) := by omega
  simp only [if_true, State.enter]
  rw [State.advance_quiet _ _ (by simpa [State.modCtx_eq] using h.1) (by simp [State.modCtx_eq, Win.dropFor, Win.count, h.2, Outst.due]; omega)]
  refine ⟨by simp [State.modCtx_eq, State.started], ?_⟩
  refine ⟨by simp [State.modCtx_eq, State.started], by simp [State.modCtx_eq, State.started, Win.count],
    by simp [State.modCtx_eq, State.started, Win.dropFor, h.2]⟩

/-- An attempt that traps at once, or without lookahead. -/
theorem State.issue_traps (s : State) (i : Instr) (la : Nat) (f : Env → State → Att) (late : Bool) (code val : Nat) (h : s.Ready)
    (he : (s.ctx s.cur).Enabled) (hx : exec i s = s.issue i la f) (hf : f (s.env i) (s.started i) = .trap late code val (s.started i))
    (hl : late = true → la = 0) : s.Traps i code (BitVec.ofNat 64 val) := by
  rw [State.Traps, hx]
  exact State.issue_trap s i la f late code val h he hf hl

end Sys2Proof.Machine
end

