-- ==== Sys2Proof/Laws/Issue.lean ====
section
/-! SUPPORT. Every encoded instruction is issued: its effect is an attempt made under the rules of issue (R54 to R61). -/

namespace Sys2Proof.Machine

/-- What `exec` does with an instruction that some word encodes. -/
theorem exec_issues (i : Instr) (s : State) (hw : i.wellFormed = true) : ∃ la f, exec i s = s.issue i la f := by
  cases i with
  | add l d a b => exact ⟨_, _, (exec_add l d a b s).trans (by simp only [execAdd, aluOp, State.compute]; exact rfl)⟩
  | sub l d a b => exact ⟨_, _, (exec_sub l d a b s).trans (by simp only [execSub, aluOp, State.compute]; exact rfl)⟩
  | mul l d a b => exact ⟨_, _, (exec_mul l d a b s).trans (by simp only [execMul, aluOp, State.compute]; exact rfl)⟩
  | mulh l d a b => exact ⟨_, _, (exec_mulh l d a b s).trans (by simp only [execMulh, aluOp, State.compute]; exact rfl)⟩
  | mulhu l d a b => exact ⟨_, _, (exec_mulhu l d a b s).trans (by simp only [execMulhu, aluOp, State.compute]; exact rfl)⟩
  | div l d a b => exact ⟨_, _, (exec_div l d a b s).trans (by simp only [execDiv, divOp]; exact rfl)⟩
  | divu l d a b => exact ⟨_, _, (exec_divu l d a b s).trans (by simp only [execDivu, divOp]; exact rfl)⟩
  | rem l d a b => exact ⟨_, _, (exec_rem l d a b s).trans (by simp only [execRem, divOp]; exact rfl)⟩
  | remu l d a b => exact ⟨_, _, (exec_remu l d a b s).trans (by simp only [execRemu, divOp]; exact rfl)⟩
  | and l d a b => exact ⟨_, _, (exec_and l d a b s).trans (by simp only [execAnd, aluOp, State.compute]; exact rfl)⟩
  | or l d a b => exact ⟨_, _, (exec_or l d a b s).trans (by simp only [execOr, aluOp, State.compute]; exact rfl)⟩
  | xor l d a b => exact ⟨_, _, (exec_xor l d a b s).trans (by simp only [execXor, aluOp, State.compute]; exact rfl)⟩
  | andn l d a b => exact ⟨_, _, (exec_andn l d a b s).trans (by simp only [execAndn, aluOp, State.compute]; exact rfl)⟩
  | shl l d a b => exact ⟨_, _, (exec_shl l d a b s).trans (by simp only [execShl, aluOp, State.compute]; exact rfl)⟩
  | shr l d a b => exact ⟨_, _, (exec_shr l d a b s).trans (by simp only [execShr, aluOp, State.compute]; exact rfl)⟩
  | sar l d a b => exact ⟨_, _, (exec_sar l d a b s).trans (by simp only [execSar, aluOp, State.compute]; exact rfl)⟩
  | rotr l d a b => exact ⟨_, _, (exec_rotr l d a b s).trans (by simp only [execRotr, aluOp, State.compute]; exact rfl)⟩
  | min l d a b => exact ⟨_, _, (exec_min l d a b s).trans (by simp only [execMin, aluOp, State.compute]; exact rfl)⟩
  | max l d a b => exact ⟨_, _, (exec_max l d a b s).trans (by simp only [execMax, aluOp, State.compute]; exact rfl)⟩
  | minu l d a b => exact ⟨_, _, (exec_minu l d a b s).trans (by simp only [execMinu, aluOp, State.compute]; exact rfl)⟩
  | maxu l d a b => exact ⟨_, _, (exec_maxu l d a b s).trans (by simp only [execMaxu, aluOp, State.compute]; exact rfl)⟩
  | slt l d a b => exact ⟨_, _, (exec_slt l d a b s).trans (by simp only [execSlt, aluOp, State.compute]; exact rfl)⟩
  | sltu l d a b => exact ⟨_, _, (exec_sltu l d a b s).trans (by simp only [execSltu, aluOp, State.compute]; exact rfl)⟩
  | seq l d a b => exact ⟨_, _, (exec_seq l d a b s).trans (by simp only [execSeq, aluOp, State.compute]; exact rfl)⟩
  | clz l d a => exact ⟨_, _, (exec_clz l d a s).trans (by simp only [execClz, aluOp, State.compute]; exact rfl)⟩
  | ctz l d a => exact ⟨_, _, (exec_ctz l d a s).trans (by simp only [execCtz, aluOp, State.compute]; exact rfl)⟩
  | popc l d a => exact ⟨_, _, (exec_popc l d a s).trans (by simp only [execPopc, aluOp, State.compute]; exact rfl)⟩
  | sext l d a w => exact ⟨_, _, (exec_sext l d a w s).trans (by simp only [execSext, aluOp, State.compute]; exact rfl)⟩
  | zext l d a w => exact ⟨_, _, (exec_zext l d a w s).trans (by simp only [execZext, aluOp, State.compute]; exact rfl)⟩
  | bfx l d a b => exact ⟨_, _, (exec_bfx l d a b s).trans (by simp only [execBfx, aluOp, State.compute]; exact rfl)⟩
  | bfi l d a b => exact ⟨_, _, (exec_bfi l d a b s).trans (by simp only [execBfi, aluOp, State.compute]; exact rfl)⟩
  | addsat l d a b => exact ⟨_, _, (exec_addsat l d a b s).trans (by simp only [execAddsat, aluOp, State.compute]; exact rfl)⟩
  | addi d a im => exact ⟨_, _, (exec_addi d a im s).trans (by simp only [execAddi, aluOp, State.compute]; exact rfl)⟩
  | andi d a im => exact ⟨_, _, (exec_andi d a im s).trans (by simp only [execAndi, aluOp, State.compute]; exact rfl)⟩
  | ori d a im => exact ⟨_, _, (exec_ori d a im s).trans (by simp only [execOri, aluOp, State.compute]; exact rfl)⟩
  | xori d a im => exact ⟨_, _, (exec_xori d a im s).trans (by simp only [execXori, aluOp, State.compute]; exact rfl)⟩
  | slti d a im => exact ⟨_, _, (exec_slti d a im s).trans (by simp only [execSlti, aluOp, State.compute]; exact rfl)⟩
  | sltiu d a im => exact ⟨_, _, (exec_sltiu d a im s).trans (by simp only [execSltiu, aluOp, State.compute]; exact rfl)⟩
  | shifti k d a n => exact ⟨_, _, (exec_shifti k d a n s).trans (by simp only [execShifti, aluOp, State.compute]; exact rfl)⟩
  | muli d a im => exact ⟨_, _, (exec_muli d a im s).trans (by simp only [execMuli, aluOp, State.compute]; exact rfl)⟩
  | lui d im => exact ⟨_, _, (exec_lui d im s).trans (by simp only [execLui, aluOp, State.compute]; exact rfl)⟩
  | auipc d im => exact ⟨_, _, (exec_auipc d im s).trans (by simp only [execAuipc, aluOp, State.compute]; exact rfl)⟩
  | ldB l d a p => exact ⟨_, _, exec_ldB l d a p s⟩
  | ldBu l d a p => exact ⟨_, _, exec_ldBu l d a p s⟩
  | ldH l d a p => exact ⟨_, _, exec_ldH l d a p s⟩
  | ldHu l d a p => exact ⟨_, _, exec_ldHu l d a p s⟩
  | ldW l d a p => exact ⟨_, _, exec_ldW l d a p s⟩
  | ldWu l d a p => exact ⟨_, _, exec_ldWu l d a p s⟩
  | ldD l d a p => exact ⟨_, _, exec_ldD l d a p s⟩
  | stB a src p => exact ⟨_, _, exec_stB a src p s⟩
  | stH a src p => exact ⟨_, _, exec_stH a src p s⟩
  | stW a src p => exact ⟨_, _, exec_stW a src p s⟩
  | stD a src p => exact ⟨_, _, exec_stD a src p s⟩
  | beq a b p => exact ⟨_, _, (exec_beq a b p s).trans (by simp only [execBeq, branchOp]; exact rfl)⟩
  | bne a b p => exact ⟨_, _, (exec_bne a b p s).trans (by simp only [execBne, branchOp]; exact rfl)⟩
  | blt a b p => exact ⟨_, _, (exec_blt a b p s).trans (by simp only [execBlt, branchOp]; exact rfl)⟩
  | bge a b p => exact ⟨_, _, (exec_bge a b p s).trans (by simp only [execBge, branchOp]; exact rfl)⟩
  | bltu a b p => exact ⟨_, _, (exec_bltu a b p s).trans (by simp only [execBltu, branchOp]; exact rfl)⟩
  | bgeu a b p => exact ⟨_, _, (exec_bgeu a b p s).trans (by simp only [execBgeu, branchOp]; exact rfl)⟩
  | bkany k p => exact ⟨_, _, (exec_bkany k p s).trans (by simp only [execBkany, branchOp]; exact rfl)⟩
  | bknone k p => exact ⟨_, _, (exec_bknone k p s).trans (by simp only [execBknone, branchOp]; exact rfl)⟩
  | jl d im => exact ⟨_, _, exec_jl d im s⟩
  | jlr d a => exact ⟨_, _, exec_jlr d a s⟩
  | follow d a => exact ⟨_, _, exec_follow d a s⟩
  | rejoin d p => exact ⟨_, _, exec_rejoin d p s⟩
  | amoAdd l d a b => exact ⟨_, _, exec_amoAdd l d a b s⟩
  | amoAnd l d a b => exact ⟨_, _, exec_amoAnd l d a b s⟩
  | amoOr l d a b => exact ⟨_, _, exec_amoOr l d a b s⟩
  | amoXor l d a b => exact ⟨_, _, exec_amoXor l d a b s⟩
  | amoMin l d a b => exact ⟨_, _, exec_amoMin l d a b s⟩
  | amoMax l d a b => exact ⟨_, _, exec_amoMax l d a b s⟩
  | amoMinu l d a b => exact ⟨_, _, exec_amoMinu l d a b s⟩
  | amoMaxu l d a b => exact ⟨_, _, exec_amoMaxu l d a b s⟩
  | amoSwap l d a b => exact ⟨_, _, exec_amoSwap l d a b s⟩
  | amoCas l d a b => exact ⟨_, _, exec_amoCas l d a b s⟩
  | amoAddn l d a b => exact ⟨_, _, exec_amoAddn l d a b s⟩
  | ldAcq l d a => exact ⟨_, _, exec_ldAcq l d a s⟩
  | stRel a b => exact ⟨_, _, exec_stRel a b s⟩
  | ldSc l d a => exact ⟨_, _, exec_ldSc l d a s⟩
  | stSc a b => exact ⟨_, _, exec_stSc a b s⟩
  | fence src => exact ⟨_, _, exec_fence src s⟩
  | csrr d c => exact ⟨_, _, (exec_csrr d c s).trans (by simp only [execCsrr, csrOp]; exact rfl)⟩
  | csrw d a c => exact ⟨_, _, (exec_csrw d a c s).trans (by simp only [execCsrw, csrOp]; exact rfl)⟩
  | csrset d a c => exact ⟨_, _, (exec_csrset d a c s).trans (by simp only [execCsrset, csrOp]; exact rfl)⟩
  | csrclr d a c => exact ⟨_, _, (exec_csrclr d a c s).trans (by simp only [execCsrclr, csrOp]; exact rfl)⟩
  | trap a => exact ⟨_, _, exec_trap a s⟩
  | sreplyResume a => exact ⟨_, _, exec_sreplyResume a s⟩
  | sreplySignal a => exact ⟨_, _, exec_sreplySignal a s⟩
  | sreplyKill a => exact ⟨_, _, exec_sreplyKill a s⟩
  | biasflipHost a => exact ⟨_, _, exec_biasflipHost a s⟩
  | biasflipDevice a => exact ⟨_, _, exec_biasflipDevice a s⟩
  | spawn a => exact ⟨_, _, exec_spawn a s⟩
  | pubf a => exact ⟨_, _, exec_pubf a s⟩
  | donate d a b => exact ⟨_, _, exec_donate d a b s⟩
  | jinit a b => exact ⟨_, _, exec_jinit a b s⟩
  | jdec d a => exact ⟨_, _, exec_jdec d a s⟩
  | send a b v => exact ⟨_, _, exec_send a b v s⟩
  | sendm a b v => exact ⟨_, _, exec_sendm a b v s⟩
  | hset d a b => exact ⟨_, _, exec_hset d a b s⟩
  | hclr a => exact ⟨_, _, exec_hclr a s⟩
  | hold d a => exact ⟨_, _, exec_hold d a s⟩
  | rels d a => exact ⟨_, _, exec_rels d a s⟩
  | hmask d a b => exact ⟨_, _, exec_hmask d a b s⟩
  | mbxw d a b => exact ⟨_, _, exec_mbxw d a b s⟩
  | bara d n m => exact ⟨_, _, exec_bara d n m s⟩
  | barw d n m => exact ⟨_, _, exec_barw d n m s⟩
  | barx d n m => exact ⟨_, _, exec_barx d n m s⟩
  | team d a b => exact ⟨_, _, exec_team d a b s⟩
  | geosub d a b => exact ⟨_, _, exec_geosub d a b s⟩
  | vld t k d a => exact ⟨_, _, exec_vld t k d a s⟩
  | vst t k d a => exact ⟨_, _, exec_vst t k d a s⟩
  | vlds t k d a b => exact ⟨_, _, exec_vlds t k d a b s⟩
  | vsts t k d a b => exact ⟨_, _, exec_vsts t k d a b s⟩
  | vldb t k d a => exact ⟨_, _, exec_vldb t k d a s⟩
  | vldi t k d a b => exact ⟨_, _, exec_vldi t k d a b s⟩
  | vsti t k d a b => exact ⟨_, _, exec_vsti t k d a b s⟩
  | vadd t k d a b => exact ⟨_, _, (exec_vadd t k d a b s).trans (by simp only [execVadd, vintBin, vecBin, vecOp]; exact rfl)⟩
  | vsub t k d a b => exact ⟨_, _, (exec_vsub t k d a b s).trans (by simp only [execVsub, vintBin, vecBin, vecOp]; exact rfl)⟩
  | vmul t k d a b => exact ⟨_, _, (exec_vmul t k d a b s).trans (by simp only [execVmul, vintBin, vecBin, vecOp]; exact rfl)⟩
  | vmulh t k d a b => exact ⟨_, _, (exec_vmulh t k d a b s).trans (by simp only [execVmulh, vintBin, vecBin, vecOp]; exact rfl)⟩
  | vmin t k d a b => exact ⟨_, _, (exec_vmin t k d a b s).trans (by simp only [execVmin, vintBin, vecBin, vecOp]; exact rfl)⟩
  | vmax t k d a b => exact ⟨_, _, (exec_vmax t k d a b s).trans (by simp only [execVmax, vintBin, vecBin, vecOp]; exact rfl)⟩
  | vminu t k d a b => exact ⟨_, _, (exec_vminu t k d a b s).trans (by simp only [execVminu, vintBin, vecBin, vecOp]; exact rfl)⟩
  | vmaxu t k d a b => exact ⟨_, _, (exec_vmaxu t k d a b s).trans (by simp only [execVmaxu, vintBin, vecBin, vecOp]; exact rfl)⟩
  | vabs t k d a => exact ⟨_, _, (exec_vabs t k d a s).trans (by simp only [execVabs, vecUn, vecOp]; exact rfl)⟩
  | vand t k d a b => exact ⟨_, _, (exec_vand t k d a b s).trans (by simp only [execVand, vintBin, vecBin, vecOp]; exact rfl)⟩
  | vor t k d a b => exact ⟨_, _, (exec_vor t k d a b s).trans (by simp only [execVor, vintBin, vecBin, vecOp]; exact rfl)⟩
  | vxor t k d a b => exact ⟨_, _, (exec_vxor t k d a b s).trans (by simp only [execVxor, vintBin, vecBin, vecOp]; exact rfl)⟩
  | vshl t k d a b => exact ⟨_, _, (exec_vshl t k d a b s).trans (by simp only [execVshl, vintBin, vecBin, vecOp]; exact rfl)⟩
  | vshr t k d a b => exact ⟨_, _, (exec_vshr t k d a b s).trans (by simp only [execVshr, vintBin, vecBin, vecOp]; exact rfl)⟩
  | vsar t k d a b => exact ⟨_, _, (exec_vsar t k d a b s).trans (by simp only [execVsar, vintBin, vecBin, vecOp]; exact rfl)⟩
  | vcmp t k a b c => exact ⟨_, _, (exec_vcmp t k a b c s).trans (by simp only [execVcmp, vecCmp]; exact rfl)⟩
  | vfadd t k d a b => exact ⟨_, _, (exec_vfadd t k d a b s).trans (by simp only [execVfadd, vecBin, vecOp]; exact rfl)⟩
  | vfsub t k d a b => exact ⟨_, _, (exec_vfsub t k d a b s).trans (by simp only [execVfsub, vecBin, vecOp]; exact rfl)⟩
  | vfmul t k d a b => exact ⟨_, _, (exec_vfmul t k d a b s).trans (by simp only [execVfmul, vecBin, vecOp]; exact rfl)⟩
  | vfdiv t k d a b => exact ⟨_, _, (exec_vfdiv t k d a b s).trans (by simp only [execVfdiv, vecBin, vecOp]; exact rfl)⟩
  | vfsqrt t k d a => exact ⟨_, _, (exec_vfsqrt t k d a s).trans (by simp only [execVfsqrt, vecUn, vecOp]; exact rfl)⟩
  | vfmin t k d a b => exact ⟨_, _, (exec_vfmin t k d a b s).trans (by simp only [execVfmin, vecBin, vecOp]; exact rfl)⟩
  | vfmax t k d a b => exact ⟨_, _, (exec_vfmax t k d a b s).trans (by simp only [execVfmax, vecBin, vecOp]; exact rfl)⟩
  | vfabs t k d a => exact ⟨_, _, (exec_vfabs t k d a s).trans (by simp only [execVfabs, vecUn, vecOp]; exact rfl)⟩
  | vfneg t k d a => exact ⟨_, _, (exec_vfneg t k d a s).trans (by simp only [execVfneg, vecUn, vecOp]; exact rfl)⟩
  | vfcmp t k a b c => exact ⟨_, _, (exec_vfcmp t k a b c s).trans (by simp only [execVfcmp, vecCmp]; exact rfl)⟩
  | vfrsq t k d a => exact ⟨_, _, (exec_vfrsq t k d a s).trans (by simp only [execVfrsq, vecUn, vecOp]; exact rfl)⟩
  | vfexp2 t k d a => exact ⟨_, _, (exec_vfexp2 t k d a s).trans (by simp only [execVfexp2, vecUn, vecOp]; exact rfl)⟩
  | vflog2 t k d a => exact ⟨_, _, (exec_vflog2 t k d a s).trans (by simp only [execVflog2, vecUn, vecOp]; exact rfl)⟩
  | vflse t k d a b => exact ⟨_, _, (exec_vflse t k d a b s).trans (by simp only [execVflse, vecBin, vecOp]; exact rfl)⟩
  | vfrnd t k d a r => exact ⟨_, _, (exec_vfrnd t k d a r s).trans (by simp only [execVfrnd, vecUn, vecOp]; exact rfl)⟩
  | vfclass t k d a => exact ⟨_, _, (exec_vfclass t k d a s).trans (by simp only [execVfclass, vecUn, vecOp]; exact rfl)⟩
  | vcvt t k d a b => exact ⟨_, _, exec_vcvt t k d a b s⟩
  | vbcast t k d a => exact ⟨_, _, (exec_vbcast t k d a s).trans (by simp only [execVbcast, vecOp]; exact rfl)⟩
  | vext t d a b => exact ⟨_, _, exec_vext t d a b s⟩
  | vins t d a b => exact ⟨_, _, exec_vins t d a b s⟩
  | viota t k d => exact ⟨_, _, (exec_viota t k d s).trans (by simp only [execViota, vecOp]; exact rfl)⟩
  | vpack t k d a b =>
    by_cases ht : t = .l6
    · exact ⟨_, _, (exec_vpack t k d a b s).trans (by unfold execVpack; rw [if_pos ht])⟩
    · exact ⟨_, _, (exec_vpack t k d a b s).trans (by unfold execVpack; rw [if_neg ht]; unfold vecOp; exact rfl)⟩
  | vunpk t k d a h =>
    by_cases ht : t = .l6
    · exact ⟨_, _, (exec_vunpk t k d a h s).trans (by unfold execVunpk; rw [if_pos ht])⟩
    · exact ⟨_, _, (exec_vunpk t k d a h s).trans (by unfold execVunpk; rw [if_neg ht]; unfold vecOp; exact rfl)⟩
  | vperm t k d a b => exact ⟨_, _, (exec_vperm t k d a b s).trans (by simp only [execVperm, vecOp]; exact rfl)⟩
  | vslide t k d a b => exact ⟨_, _, (exec_vslide t k d a b s).trans (by simp only [execVslide, vecOp]; exact rfl)⟩
  | vsel t k d a b => exact ⟨_, _, exec_vsel t k d a b s⟩
  | vredadd t k d a => exact ⟨_, _, (exec_vredadd t k d a s).trans (by simp only [execVredadd, reduceOp]; exact rfl)⟩
  | vredmin t k d a => exact ⟨_, _, (exec_vredmin t k d a s).trans (by simp only [execVredmin, reduceOp]; exact rfl)⟩
  | vredmax t k d a => exact ⟨_, _, (exec_vredmax t k d a s).trans (by simp only [execVredmax, reduceOp]; exact rfl)⟩
  | vfredadd t k d a => exact ⟨_, _, (exec_vfredadd t k d a s).trans (by simp only [execVfredadd, reduceOp]; exact rfl)⟩
  | vscan t k d a => exact ⟨_, _, exec_vscan t k d a s⟩
  | vcompr t k d a => exact ⟨_, _, exec_vcompr t k d a s⟩
  | vexpnd t k d a => exact ⟨_, _, (exec_vexpnd t k d a s).trans (by simp only [execVexpnd, vecOp]; exact rfl)⟩
  | kand d a b => exact ⟨_, _, (exec_kand d a b s).trans (by simp only [execKand, maskOp, State.compute]; exact rfl)⟩
  | kor d a b => exact ⟨_, _, (exec_kor d a b s).trans (by simp only [execKor, maskOp, State.compute]; exact rfl)⟩
  | kxor d a b => exact ⟨_, _, (exec_kxor d a b s).trans (by simp only [execKxor, maskOp, State.compute]; exact rfl)⟩
  | kandn d a b => exact ⟨_, _, (exec_kandn d a b s).trans (by simp only [execKandn, maskOp, State.compute]; exact rfl)⟩
  | knot d a => exact ⟨_, _, (exec_knot d a s).trans (by simp only [execKnot, maskOp, State.compute]; exact rfl)⟩
  | kfrom d a => exact ⟨_, _, (exec_kfrom d a s).trans (by simp only [execKfrom, maskOp, State.compute]; exact rfl)⟩
  | kto d a => exact ⟨_, _, (exec_kto d a s).trans (by simp only [execKto, maskTo, State.compute]; exact rfl)⟩
  | kpop d a => exact ⟨_, _, (exec_kpop d a s).trans (by simp only [execKpop, maskTo, State.compute]; exact rfl)⟩
  | kfirst d a => exact ⟨_, _, (exec_kfirst d a s).trans (by simp only [execKfirst, maskTo, State.compute]; exact rfl)⟩
  | kfill d a => exact ⟨_, _, (exec_kfill d a s).trans (by simp only [execKfill, maskOp, State.compute]; exact rfl)⟩
  | mlease l d a => exact ⟨_, _, exec_mlease l d a s⟩
  | mclaim l d a => exact ⟨_, _, exec_mclaim l d a s⟩
  | mfree a => exact ⟨_, _, exec_mfree a s⟩
  | mzero l d => exact ⟨_, _, exec_mzero l d s⟩
  | mstat l d a => exact ⟨_, _, exec_mstat l d a s⟩
  | mwait l d a => exact ⟨_, _, exec_mwait l d a s⟩
  | sld l d a b => exact ⟨_, _, exec_sld l d a b s⟩
  | sst d a b => exact ⟨_, _, exec_sst d a b s⟩
  | sadd d a b => exact ⟨_, _, exec_sadd d a b s⟩
  | sclose a => exact ⟨_, _, exec_sclose a s⟩
  | sstat l d a b => exact ⟨_, _, exec_sstat l d a b s⟩
  | ldg l d a b => exact ⟨_, _, exec_ldg l d a b s⟩
  | stg d a b => exact ⟨_, _, exec_stg d a b s⟩
  | gstep l d a b => exact ⟨_, _, exec_gstep l d a b s⟩
  | gwait l d a b => exact ⟨_, _, exec_gwait l d a b s⟩
  | gstat l d a b => exact ⟨_, _, exec_gstat l d a b s⟩
  | pref a b => exact ⟨_, _, exec_pref a b s⟩
  | res a b => exact ⟨_, _, exec_res a b s⟩
  | unres a b => exact ⟨_, _, exec_unres a b s⟩
  | flush a b => exact ⟨_, _, exec_flush a b s⟩
  | inv a b => exact ⟨_, _, exec_inv a b s⟩
  | dinv a => exact ⟨_, _, exec_dinv a s⟩
  | copy l d a n => exact ⟨_, _, exec_copy l d a n s⟩
  | copym l d a n => exact ⟨_, _, exec_copym l d a n s⟩
  | get l d a n => exact ⟨_, _, exec_get l d a n s⟩
  | put l d a n => exact ⟨_, _, exec_put l d a n s⟩
  | dense l d a n => exact ⟨_, _, exec_dense l d a n s⟩
  | ctrx l d a n => exact ⟨_, _, exec_ctrx l d a n s⟩
  | ctrw l d a n => exact ⟨_, _, exec_ctrw l d a n s⟩
  | ctrr l d n => exact ⟨_, _, exec_ctrr l d n s⟩
  | ctrrClear l d n => exact ⟨_, _, exec_ctrrClear l d n s⟩
  | mfmt a => exact ⟨_, _, exec_mfmt a s⟩
  | mlda a b c n => exact ⟨_, _, exec_mlda a b c n s⟩
  | mldb a b c n => exact ⟨_, _, exec_mldb a b c n s⟩
  | mldc l d a b => exact ⟨_, _, exec_mldc l d a b s⟩
  | mma l d a b => exact ⟨_, _, exec_mma l d a b s⟩
  | mstc d a b c r => exact ⟨_, _, exec_mstc d a b c r s⟩
  | mprog a => exact ⟨_, _, exec_mprog a s⟩
  | mrun l d a b => exact ⟨_, _, exec_mrun l d a b s⟩
  | vfma l t k d a b c => exact ⟨_, _, (exec_vfma l t k d a b c s).trans (by simp only [execVfma, vecX]; exact rfl)⟩
  | vfms l t k d a b c => exact ⟨_, _, (exec_vfms l t k d a b c s).trans (by simp only [execVfms, vecX]; exact rfl)⟩
  | vmad l t k d a b c r => exact ⟨_, _, (exec_vmad l t k d a b c r s).trans (by simp only [execVmad, vecX]; exact rfl)⟩
  | vtopk l t k d a c n => exact ⟨_, _, exec_vtopk l t k d a c n s⟩
  | vgather l t k d a b => exact ⟨_, _, exec_vgather l t k d a b s⟩
  | vscatter t k d a b => exact ⟨_, _, exec_vscatter t k d a b s⟩
  | vdotl l k d a b c => exact ⟨_, _, exec_vdotl l k d a b c s⟩
  | vdotb l k d a b c => exact ⟨_, _, exec_vdotb l k d a b c s⟩
  | sdecl l d a => exact ⟨_, _, exec_sdecl l d a s⟩
  | sdeclFree a => exact ⟨_, _, exec_sdeclFree a s⟩
  | siter l d a b => exact ⟨_, _, exec_siter l d a b s⟩
  | snext l d a b c => exact ⟨_, _, exec_snext l d a b c s⟩
  | gdecl l d a => exact ⟨_, _, exec_gdecl l d a s⟩
  | gdeclFree a => exact ⟨_, _, exec_gdeclFree a s⟩
  | addiN d im => exact ⟨_, _, (exec_addiN d im s).trans (by simp only [execAddiN, aluOp, State.compute]; exact rfl)⟩
  | liN d im => exact ⟨_, _, (exec_liN d im s).trans (by simp only [execLiN, aluOp, State.compute]; exact rfl)⟩
  | shliN d im => exact ⟨_, _, (exec_shliN d im s).trans (by simp only [execShliN, aluOp, State.compute]; exact rfl)⟩
  | addN d a => exact ⟨_, _, (exec_addN d a s).trans (by simp only [execAddN, aluOp, State.compute]; exact rfl)⟩
  | subN d a => exact ⟨_, _, (exec_subN d a s).trans (by simp only [execSubN, aluOp, State.compute]; exact rfl)⟩
  | mvN d a => exact ⟨_, _, (exec_mvN d a s).trans (by simp only [execMvN, aluOp, State.compute]; exact rfl)⟩
  | lddN d a im => exact ⟨_, _, exec_lddN d a im s⟩
  | stdN d a im => exact ⟨_, _, exec_stdN d a im s⟩
  | ldwN d a im => exact ⟨_, _, exec_ldwN d a im s⟩
  | stwN d a im => exact ⟨_, _, exec_stwN d a im s⟩
  | beqzN a p => exact ⟨_, _, (exec_beqzN a p s).trans (by simp only [execBeqzN, branchOp]; exact rfl)⟩
  | bnezN a p => exact ⟨_, _, (exec_bnezN a p s).trans (by simp only [execBnezN, branchOp]; exact rfl)⟩
  | jN p => exact ⟨_, _, exec_jN p s⟩
  | jrN a => exact ⟨_, _, exec_jrN a s⟩
  | ldspN d im => exact ⟨_, _, exec_ldspN d im s⟩
  | stspN d im => exact ⟨_, _, exec_stspN d im s⟩
  | leave => exact ⟨_, _, exec_leave s⟩
  | yield => exact ⟨_, _, exec_yield s⟩
  | nop => exact ⟨_, _, exec_nop s⟩
  | hint => exact ⟨_, _, exec_hint s⟩
  | fenceSc => exact ⟨_, _, exec_fenceSc s⟩
  | eret => exact ⟨_, _, exec_eret s⟩
  | uiret => exact ⟨_, _, exec_uiret s⟩
  | wfi => exact ⟨_, _, exec_wfi s⟩
  | sync => exact ⟨_, _, exec_sync s⟩
  | taskend => exact ⟨_, _, exec_taskend s⟩
  | hret => exact ⟨_, _, exec_hret s⟩
  | mrel => exact ⟨_, _, exec_mrel s⟩
  | resultArrival k im => cases hw
  | trapEntry k => cases hw
  | translatedAccess r => cases hw
  | pageWalk die asid va => cases hw
  | pageFaultAnswer k => cases hw
  | replyResume k => cases hw
  | replySignal k => cases hw
  | replyKill k => cases hw
  | unitFaultReply handle code => cases hw
  | rangeLockGrant die => cases hw
  | renewal k pa => cases hw
  | writeBack die line => cases hw
  | recallLine line => cases hw
  | ownedLineTimeout die line => cases hw
  | tokenReturn home src => cases hw
  | tokenArrival home src => cases hw
  | ltimeTick die => cases hw
  | lineTimestampVisit line => cases hw
  | scWindowClose die => cases hw
  | scCompletion k => cases hw
  | messageArrival core => cases hw
  | bounce core => cases hw
  | handlerStart core => cases hw
  | distributorOffer die => cases hw
  | hostMessage evq => cases hw
  | followerExecute k => cases hw
  | stealProbe core => cases hw
  | stealClaim core => cases hw
  | claimIncrementDone core => cases hw
  | stealDispatch core => cases hw
  | stealBackoff core => cases hw
  | rootDispatch slot => cases hw
  | donationEntry q => cases hw
  | syncWake k => cases hw
  | syncPoll k => cases hw
  | overflowSpill core kind => cases hw
  | overflowRefill core kind => cases hw
  | teamTimeout core => cases hw
  | barxRelease cluster team b => cases hw
  | mbxwTimeout k => cases hw
  | ctrwTimeout k => cases hw
  | wfiTimeout k => cases hw
  | copySegment die unit => cases hw
  | copymUnit die unit => cases hw
  | getChunk die unit => cases hw
  | putChunk die unit => cases hw
  | denseShard die => cases hw
  | byteAcknowledgement core => cases hw
  | engineResume die unit => cases hw
  | completionInterrupt k => cases hw
  | residualHoldSend cluster => cases hw
  | leaseGrant cluster => cases hw
  | leaseSpent core => cases hw
  | leasedCommandStart cluster => cases hw
  | leasedCommandComplete core => cases hw
  | slotFillComplete cluster slot => cases hw
  | indexEngineEvent k => cases hw
  | accumulatorSpill cluster im => cases hw
  | partHomeEvent k => cases hw
  | haloPush die => cases hw
  | gridLoadTimeout k => cases hw
  | gwaitTimeout k => cases hw
  | ltsetWrite k x => cases hw
  | ltperiodWrite die x => cases hw
  | tepcWrite k x => cases hw
  | tailWrite q tail size => cases hw
  | queueEntryRead q => cases hw
  | phaseReread q => cases hw
  | queueBind => cases hw
  | ageingQuantum q => cases hw
  | notbeforePassed q => cases hw
  | limitExpiry slot => cases hw
  | eventVectorSignal evq => cases hw
  | eventHeadAdvance evq head => cases hw
  | createQueue seq q f => cases hw
  | destroyQueue seq q => cases hw
  | createEvq seq evq base entries header vector => cases hw
  | setQuantum seq ns => cases hw
  | setReserve seq die map => cases hw
  | endLaunch seq slot => cases hw
  | preempt seq slot area len => cases hw
  | restore seq slot => cases hw
  | biasflip seq page host => cases hw
  | scrub seq page => cases hw
  | dieLost seq die => cases hw
  | setClock seq die mhz => cases hw
  | setPower seq die state => cases hw
  | warmReset seq die => cases hw
  | clusterGate seq cluster gate => cases hw
  | setEnvelope seq watts => cases hw
  | setPkgnum seq n => cases hw
  | setRoute seq f => cases hw
  | setGm seq die sysref => cases hw
  | hostcmd seq core payload => cases hw
  | thermalTrip sensor => cases hw
  | coolantFlowTrip => cases hw
  | bringUp => cases hw
  | attestationReport nonce => cases hw
  | monitorControlWrite die unit x => cases hw
  | monitorClear die unit => cases hw
  | monitorLevelSample die unit => cases hw
  | treutExchange die => cases hw
  | treutSyncReceive die => cases hw
  | followUpReceive die => cases hw
  | delayReqReceive die => cases hw
  | delayRespReceive die => cases hw
  | exchangeMissed die => cases hw
  | linkRetry link => cases hw
  | hostCxlAccess store pa data => cases hw
  | hostWritebackCompletion page => cases hw

end Sys2Proof.Machine
end

