-- ==== Sys2Proof/Laws/Memory.lean ====
section
/-! SUPPORT. What the shared memory operations do to memory: every one keeps its canonical form, the updates beside it leave it alone, and a
plain read leaves the bytes where they were. -/

namespace Sys2Proof.Machine

/-! ### Updates that leave memory alone -/

@[simp] theorem State.runTo_mem (s : State) (d t : Nat) : (s.runTo d t).mem = s.mem := by
  unfold State.runTo
  extract_lets n
  split
  · rfl
  · have h : ∀ (m : Nat) (l : List Nat) (s : State), (l.foldl (fun s e => s.modDie e fun x => x.ran m 0) s).mem = s.mem := by
      intro m l
      induction l with
      | nil => exact fun _ => rfl
      | cons e l ih => exact fun s => by rw [List.foldl_cons, ih]; rfl
    exact h _ _ s

@[simp] theorem State.runToDeadline_mem (s : State) (d : Nat) (t : Option Nat) : (s.runToDeadline d t).mem = s.mem := by
  cases t <;> simp [State.runToDeadline]

@[simp] theorem State.free_mem (s : State) : s.free.2.mem = s.mem := rfl
@[simp] theorem State.raisePts_mem (s : State) (k p : Nat) : (s.raisePts k p).mem = s.mem := rfl
@[simp] theorem State.raiseHome_mem (s : State) (d p : Nat) : (s.raiseHome d p).mem = s.mem := rfl
@[simp] theorem State.writeTile_mem (s : State) (c n : Nat) (m : Mem) (b : Bool) : (s.writeTile c n m b).mem = s.mem := rfl

@[simp] theorem State.wr_mem (s : State) (k : Nat) (w : Wr) : (s.wr k w).mem = s.mem := by cases w <;> rfl

@[simp] theorem State.wrs_mem (s : State) (k : Nat) (ws : List Wr) : (s.wrs k ws).mem = s.mem := by
  unfold State.wrs
  induction ws generalizing s with
  | nil => rfl
  | cons w ws ih => rw [List.foldl_cons, ih]; exact State.wr_mem s k w

@[simp] theorem State.latency_mem (s : State) (d source arg : Nat) : (s.latency d source arg).mem = s.mem := by
  unfold State.latency
  split <;> rfl

@[simp] theorem State.served_mem (s : State) (d asid va pa pte : Nat) (home : Bool) : (s.served d asid va pa pte home).mem = s.mem := by
  unfold State.served
  simp only
  split <;> simp

@[simp] theorem State.writeShare_mem (s : State) (c o n x : Nat) : (s.writeShare c o n x).mem = s.mem := by
  induction n generalizing s o x with
  | zero => rfl
  | succ n ih => unfold State.writeShare; rw [ih]; rfl

@[simp] theorem State.writeScratch_mem (s : State) (c va n x : Nat) : (s.writeScratch c va n x).mem = s.mem := by
  unfold State.writeScratch
  split <;> simp

@[simp] theorem State.stampRead_mem (s : State) (l p : Nat) : (s.stampRead l p).1.mem = s.mem := rfl
@[simp] theorem State.stampWrite_mem (s : State) (l p : Nat) : (s.stampWrite l p).1.mem = s.mem := rfl
@[simp] theorem State.stampReadIf_mem (s : State) (b : Bool) (l p : Nat) : (if b = true then s.stampRead l p else (s, p)).1.mem = s.mem := by
  cases b <;> rfl
@[simp] theorem State.stampWriteIf_mem (s : State) (b : Bool) (l p : Nat) : (if b = true then s.stampWrite l p else (s, p)).1.mem = s.mem := by
  cases b <;> rfl
@[simp] theorem State.renew_mem (s : State) (d l p : Nat) : (s.renew d l p).1.mem = s.mem := rfl
@[simp] theorem State.dropL1_mem (s : State) (l : Nat) (keep : Nat → L1Line → Bool) : (s.dropL1 l keep).mem = s.mem := rfl
@[simp] theorem State.updateL1_mem (s : State) (c l m x : Nat) (b : Bool) : (s.updateL1 c l m x b).mem = s.mem := rfl
@[simp] theorem State.own_mem (s : State) (d l : Nat) (f : Nat → Nat) (ks : List Nat) (p : Nat) : (s.own d l f ks p).mem = s.mem := rfl
@[simp] theorem State.cleaned_mem (s : State) (c l : Nat) : (s.cleaned c l).mem = s.mem := rfl
@[simp] theorem State.holdBytes_mem (s : State) (b : HeldBytes) : (s.holdBytes b).mem = s.mem := rfl
@[simp] theorem State.dropGuest_mem (s : State) (d l : Nat) : (s.dropGuest d l).mem = s.mem := rfl
@[simp] theorem State.refresh_mem (s : State) (c : Nat) : (s.refresh c).mem = s.mem := rfl
@[simp] theorem State.met_mem (s : State) (c l : Nat) : (s.met c l).mem = s.mem := by
  unfold State.met
  extract_lets
  split <;> rfl

@[simp] theorem State.foldl_modCtx_mem (s : State) (ks : List Nat) (f : Ctx → Ctx) :
    (ks.foldl (fun s k => s.modCtx k f) s).mem = s.mem := by
  induction ks generalizing s with
  | nil => rfl
  | cons k ks ih => rw [List.foldl_cons, ih]; rfl

@[simp] theorem State.notePacket_mem (s : State) (d pa cls : Nat) (ks : List Nat) (wts : Nat) (r : Bool) :
    (s.notePacket d pa cls ks wts r).mem = s.mem := by
  simp [State.notePacket]

@[simp] theorem State.wrote_mem (s : State) (k pa wts : Nat) (a : Bool) : (s.wrote k pa wts a).mem = s.mem := by
  unfold State.wrote
  simp only
  split
  · simp
  · split <;> simp

@[simp] theorem State.sliceRead_mem (s : State) (d l p : Nat) (b : Bool) : (s.sliceRead d l p b).2.1.mem = s.mem := by
  unfold State.sliceRead
  simp only
  split
  · rfl
  · split
    · rfl
    · split
      · rfl
      · split
        · split <;> simp
        · simp

@[simp] theorem State.readPiece_mem (s : State) (w : Who) (va n n0 : Nat) (a : Acc) : (s.readPiece w va n n0 a).2.mem = s.mem := by
  unfold State.readPiece
  simp only
  split <;> simp

@[simp] theorem State.readPieces_mem (s : State) (w : Who) (n0 : Nat) (a : Acc) (l : List (Nat × Nat)) :
    (s.readPieces w n0 a l).2.mem = s.mem := by
  induction l generalizing s with
  | nil => rfl
  | cons p l ih => unfold State.readPieces; simp [ih]

/-! ### The canonical form -/

/-- A state with the memory of a state in canonical form is in canonical form. -/
theorem State.MemOk.of_mem_eq {s t : State} (h : s.MemOk) (e : t.mem = s.mem) : t.MemOk := by unfold State.MemOk; rw [e]; exact h

/-- Steps that each keep the canonical form keep it together. -/
theorem State.MemOk.foldl {α : Type} {f : State → α → State} (hf : ∀ s x, s.MemOk → (f s x).MemOk) {s : State} (l : List α) (h : s.MemOk) :
    (l.foldl f s).MemOk := by
  induction l generalizing s with
  | nil => exact h
  | cons x l ih => exact ih (hf s x h)

theorem State.MemOk.writeBack {s : State} (h : s.MemOk) (d l : Nat) : (s.writeBack d l).MemOk := by
  unfold State.writeBack
  split
  · exact h
  · split
    · unfold State.MemOk
      simp only [State.dropL1_mem, State.notePacket_mem, State.modDie_mem, State.stampWrite_mem]
      exact Mem.wf_writeN _ _ _ _ h
    · exact h

theorem State.MemOk.soak {s : State} (h : s.MemOk) (d l : Nat) : (s.soak d l).MemOk := by
  unfold State.soak
  refine h.foldl (fun s c h => ?_) _
  split
  · exact h
  · simp only
    split <;> exact h

theorem State.MemOk.recall {s : State} (h : s.MemOk) (l : Nat) : (s.recall l).MemOk := by
  unfold State.recall
  refine h.foldl (fun s d h => ?_) _
  split
  · exact ((h.soak d l).writeBack d l).of_mem_eq (by simp)
  · exact h

theorem State.MemOk.recallIf {s : State} (h : s.MemOk) (b : Bool) (l : Nat) : (if b = true then s.recall l else s).MemOk := by
  cases b
  · exact h
  · exact h.recall l

/-- Raising the pts of some contexts leaves the memory. -/
theorem State.foldl_raisePts_mem (s : State) (ks : List Nat) (w : Nat) : (ks.foldl (fun s k => s.raisePts k w) s).mem = s.mem :=
  State.foldl_modCtx_mem s ks _

theorem State.MemOk.reach {s : State} (h : s.MemOk) (b : HeldBytes) : (s.reach b).MemOk := by
  unfold State.reach
  simp only
  split
  · unfold State.MemOk
    rw [State.foldl_raisePts_mem]
    simp only [State.updateL1_mem, State.stampWrite_mem]
    exact Mem.wf_writeN _ _ _ _ (h.recall _)
  · split
    · exact h
    · exact (h.recall b.line).of_mem_eq (by rw [State.updateL1_mem, State.own_mem])

theorem State.MemOk.spill {s : State} (h : s.MemOk) (c l : Nat) : (s.spill c l).MemOk := by
  unfold State.spill
  split
  · exact h
  · simp only
    split
    · exact h
    · split
      · exact h
      · exact State.MemOk.reach (s := s.cleaned c l) h _

theorem State.MemOk.spillIf {s : State} (h : s.MemOk) (c : Nat) (p : Nat → L1Line → Bool) : (s.spillIf c p).MemOk :=
  h.foldl (fun _ l h => h.spill c l) _

theorem State.MemOk.spillAll {s : State} (h : s.MemOk) (p : Nat → Nat → Bool) : (s.spillAll p).MemOk :=
  h.foldl (fun _ c h => h.spillIf c _) _

theorem State.MemOk.spillCluster {s : State} (h : s.MemOk) (c l : Nat) (but : Option Nat) : (s.spillCluster c l but).MemOk := by
  unfold State.spillCluster
  refine h.foldl (fun s i h => ?_) _
  split
  · exact h
  · exact h.spill _ l

theorem State.MemOk.freeHeld {s : State} (h : s.MemOk) (d : Nat) : (s.freeHeld d).MemOk :=
  State.MemOk.foldl (fun _ b h => h.reach b) _ (h.of_mem_eq rfl)

theorem State.MemOk.acquire {s : State} (h : s.MemOk) (c : Nat) : (s.acquire c).MemOk := (h.spillIf c _).of_mem_eq rfl

theorem State.MemOk.homeWrite {s : State} (h : s.MemOk) (c l o n x p : Nat) : (s.homeWrite c l o n x p).1.MemOk := by
  unfold State.homeWrite
  simp only
  split
  · exact Mem.wf_writeN _ _ _ _ h
  · unfold State.MemOk
    simp only [State.updateL1_mem, State.stampWrite_mem]
    exact Mem.wf_writeN _ _ _ _ (h.recall l)

theorem State.MemOk.sliceStore {s : State} (h : s.MemOk) (k l o n x : Nat) (b : Bool) : (s.sliceStore k l o n x b).MemOk := by
  unfold State.sliceStore
  simp only
  split
  · exact (h.homeWrite (coreOf k) l o n x (s.ctx k).ltime).of_mem_eq (by simp)
  · split
    · exact h.of_mem_eq (by simp)
    · exact (h.recall l).of_mem_eq (by simp)

theorem State.MemOk.hitStore {s : State} (h : s.MemOk) (k l o n x : Nat) : (s.hitStore k l o n x).MemOk := by
  unfold State.hitStore
  simp only
  split
  · exact h.spillCluster _ _ _
  · split
    · exact (h.spillCluster _ _ _).of_mem_eq (by rw [State.modCore_mem, State.updateL1_mem])
    · exact State.MemOk.spill ((h.spillCluster _ _ _).of_mem_eq (by rw [State.modCore_mem, State.updateL1_mem])) _ _

theorem State.MemOk.storePiece {s : State} (h : s.MemOk) (w : Who) (va n n0 : Nat) (a : Acc) (x : Nat) : (s.storePiece w va n n0 a x).MemOk := by
  unfold State.storePiece
  simp only
  split
  · exact State.MemOk.hitStore (h.of_mem_eq (by simp)) _ _ _ _ _
  · exact State.MemOk.sliceStore (State.MemOk.spillCluster (h.of_mem_eq (by simp)) _ _ _) _ _ _ _ _ _

theorem State.MemOk.storePieces {s : State} (h : s.MemOk) (w : Who) (n0 : Nat) (a : Acc) (l : List (Nat × Nat)) (x : Nat) :
    (s.storePieces w n0 a l x).MemOk := by
  induction l generalizing s x with
  | nil => exact h
  | cons p l ih =>
    unfold State.storePieces
    exact ih (h.storePiece _ _ _ _ _ _) _

theorem State.MemOk.release {s : State} (h : s.MemOk) (k : Nat) : (s.release k).MemOk := by
  unfold State.release
  exact (h.spillIf _ _).foldl (fun s l h => h.writeBack _ l) _

theorem State.MemOk.released {s : State} (h : s.MemOk) (k : Nat) : (s.released k).2.MemOk := by
  unfold State.released
  exact (h.release k).foldl (f := fun s t => s.post (.tokenReturn t (dieOf (coreOf k)))) (fun s _ h => h) _

theorem State.MemOk.engReadPiece {s : State} (h : s.MemOk) (pa n p : Nat) : (s.engReadPiece pa n p).2.MemOk := by
  unfold State.engReadPiece
  exact (h.recallIf (s.local_ pa) (pa / 64)).of_mem_eq (by simp)

theorem State.MemOk.engRead {s : State} (h : s.MemOk) (w : Who) (p : Nat) (l : List (Nat × Nat)) : (s.engRead w p l).2.MemOk := by
  induction l generalizing s with
  | nil => exact h
  | cons q l ih => unfold State.engRead; exact ih ((h.of_mem_eq (by simp)).engReadPiece _ _ _)

theorem State.MemOk.engWrite {s : State} (h : s.MemOk) (w : Who) (p : Nat) (l : List (Nat × Nat)) (x t : Nat) :
    (s.engWrite w p l x t).1.MemOk := by
  induction l generalizing s x t with
  | nil => exact h
  | cons q l ih =>
    unfold State.engWrite
    simp only
    refine ih ?_ _ _
    unfold State.MemOk
    simp only [State.dropL1_mem]
    refine Mem.wf_writeN _ _ _ _ ?_
    rw [State.stampWriteIf_mem]
    exact State.MemOk.recallIf (h.of_mem_eq (State.served_mem ..)) _ _

/-! ### Accesses -/

theorem State.MemOk.putEvent {s : State} (h : s.MemOk) (n : Nat) (q : EvQ) (e : HostEvent) : (s.putEvent n q e).MemOk :=
  Mem.wf_writeN _ _ _ _ (Mem.wf_writeN _ _ _ _ h)

theorem State.MemOk.hostEvent {s : State} (h : s.MemOk) (n : Nat) (e : HostEvent) : (s.hostEvent n e).MemOk := by
  unfold State.hostEvent
  split
  · exact h
  · split
    · exact h.putEvent _ _ _
    · exact h

theorem State.MemOk.tellPoison {s : State} (h : s.MemOk) (slot pa : Nat) : (s.tellPoison slot pa).MemOk := h.hostEvent _ _

/-- Every state that an access answers keeps the canonical form. -/
def MemRes.MemOk : MemRes → Prop
  | .ok _ s | .trap _ _ _ s => s.MemOk
  | .fault _ _ _ _ | .stall => True

theorem State.MemOk.firstStop {s : State} (h : s.MemOk) (w : Who) (a : Acc) (whole n0 : Nat) (locks : Bool) (l : List (Nat × Nat)) :
    ∀ r, s.firstStop w a whole n0 locks l = some r → r.MemOk := by
  induction l with
  | nil => intro r hr; cases hr
  | cons p l ih =>
    intro r hr
    unfold State.firstStop at hr
    split at hr
    · cases hr; trivial
    · cases hr; exact h
    · cases hr; trivial
    · split at hr
      · cases hr; exact h
      · split at hr
        · cases hr; exact h.tellPoison _ _
        · exact ih r hr

theorem State.MemOk.plainRead {s : State} (h : s.MemOk) (w : Who) (a : Acc) (va n : Nat) : (s.plainRead w a va n).MemOk := by
  unfold State.plainRead
  simp only
  split
  · exact h
  · split
    · split
      · exact h.firstStop _ _ _ _ _ _ _ ‹_›
      · exact h.of_mem_eq (State.readPieces_mem ..)
    · split <;> exact h

theorem State.MemOk.acquireRead {s : State} (h : s.MemOk) (w : Who) (va : Nat) (fresh : Bool) : (s.acquireRead w va fresh).MemOk := by
  unfold State.acquireRead
  split
  · split
    · exact h.firstStop _ _ _ _ _ _ _ ‹_›
    · exact State.MemOk.of_mem_eq (t := (State.readPieces _ w 8 .acq (piecesOf va 8)).2) h (by rw [State.readPieces_mem]; split <;> rfl)
  · exact h

theorem State.MemOk.plainStore {s : State} (h : s.MemOk) (w : Who) (va n x : Nat) : (s.plainStore w va n x).MemOk := by
  unfold State.plainStore
  simp only
  split
  · exact h
  · split
    · split
      · exact h.firstStop _ _ _ _ _ _ _ ‹_›
      · exact h.storePieces _ _ _ _ _
    · split
      · exact h.of_mem_eq (by simp)
      · exact h

theorem State.MemOk.atomic {s : State} (h : s.MemOk) (w : Who) (a : Acc) (va : Nat) (f : Nat → Option Nat) : (s.atomic w a va f).MemOk := by
  unfold State.atomic
  split
  · exact h
  · split
    · split
      · exact h.firstStop _ _ _ _ _ _ _ ‹_›
      · have h1 : ((s.met w.core ((s.pieceAt w a va 8).1 / 64)).served (dieOf w.core) w.asid va (s.pieceAt w a va 8).1 (s.pieceAt w a va 8).2 true).MemOk :=
          h.of_mem_eq (by simp)
        simp only
        generalize (s.met w.core ((s.pieceAt w a va 8).1 / 64)).served (dieOf w.core) w.asid va (s.pieceAt w a va 8).1 (s.pieceAt w a va 8).2 true = s1 at h1 ⊢
        have h2 : (if s1.local_ (s.pieceAt w a va 8).1 = true then
            (s1.spillCluster w.core ((s.pieceAt w a va 8).1 / 64) none).recall ((s.pieceAt w a va 8).1 / 64) else s1).MemOk := by
          split
          · exact (h1.spillCluster _ _ _).recall _
          · exact h1
        generalize (if s1.local_ (s.pieceAt w a va 8).1 = true then
            (s1.spillCluster w.core ((s.pieceAt w a va 8).1 / 64) none).recall ((s.pieceAt w a va 8).1 / 64) else s1) = s2 at h2 ⊢
        split
        · exact (h2.homeWrite _ _ _ _ _ _).of_mem_eq (State.wrote_mem ..)
        · exact h2.of_mem_eq (by rw [State.modCtx_mem]; exact State.stampReadIf_mem ..)
    · simp only
      split
      · exact h.of_mem_eq (by simp)
      · exact h

/-- What stops an access is a trap, a fault or a wait. -/
theorem State.firstStop_ne_ok (s : State) (w : Who) (a : Acc) (whole n0 : Nat) (locks : Bool) (l : List (Nat × Nat)) (x : Nat) (t : State) :
    s.firstStop w a whole n0 locks l ≠ some (.ok x t) := by
  induction l with
  | nil => intro h; cases h
  | cons p l ih =>
    intro h
    unfold State.firstStop at h
    split at h
    · cases h
    · cases h
    · cases h
    · split at h
      · cases h
      · split at h
        · cases h
        · exact ih h

/-- A plain read leaves every byte of memory where it was. -/
theorem State.plainRead_mem (s t : State) (w : Who) (a : Acc) (va n x : Nat) (h : s.plainRead w a va n = .ok x t) : t.mem = s.mem := by
  unfold State.plainRead at h
  simp only at h
  split at h
  · cases h
  · split at h
    · split at h
      · rename_i hs
        exact absurd (h ▸ hs) (s.firstStop_ne_ok w a va n true (piecesOf va n) x t)
      · injection h with _ h; rw [← h]; exact State.readPieces_mem ..
    · split at h
      · injection h with _ h; rw [← h]
      · cases h

/-- So does an acquiring read. -/
theorem State.acquireRead_mem (s t : State) (w : Who) (va x : Nat) (fresh : Bool) (h : s.acquireRead w va fresh = .ok x t) : t.mem = s.mem := by
  unfold State.acquireRead at h
  split at h
  · split at h
    · rename_i hs
      exact absurd (h ▸ hs) (s.firstStop_ne_ok w .acq va 8 true (piecesOf va 8) x t)
    · injection h with _ h; rw [← h]; refine (State.readPieces_mem (if fresh = true then _ else s) w 8 .acq (piecesOf va 8)).trans ?_; cases fresh <;> rfl
  · injection h with _ h; rw [← h]

end Sys2Proof.Machine
end

