-- ==== Sys2Proof/Laws/PerInstr.lean ====
section
/-! SUPPORT. Statements made of every instruction, one lemma a constructor: an instruction that is well-formed is what the decoder reads from
the bytes that the encoder writes for it (R34 to R50). -/

set_option linter.unusedSimpArgs false
set_option Elab.async false

namespace Sys2Proof.Laws

/-- A field is the number in its bits. -/
theorem fld_eq (n l w : Nat) (h : 0 < n) : fld n l w = BitVec.ofNat n (bits w (l + n - 1) l) := by
  have : l + n - 1 + 1 - l = n := by omega
  apply BitVec.eq_of_toNat_eq
  simp [fld, bits, this]

theorem tyFld_eq (l w : Nat) : tyFld l w = ElTy.ofCode (BitVec.ofNat 3 (bits w (l + 2) l)) := by
  simp [tyFld, fld_eq]

theorem code_lt (t : ElTy) : t.code < 8 := by cases t <;> decide

theorem ofCode_code (t : ElTy) : ElTy.ofCode (BitVec.ofNat 3 t.code) = t := by cases t <;> rfl

theorem ofCode_code_add (t : ElTy) (n : Nat) : ElTy.ofCode (BitVec.ofNat 3 (t.code + n * 8)) = t := by
  have : BitVec.ofNat 3 (t.code + n * 8) = BitVec.ofNat 3 t.code := by
    apply BitVec.eq_of_toNat_eq; simp
  rw [this, ofCode_code]

theorem ofBytes_toBytes (n x : Nat) : ofBytes (toBytes n x) = x % 256 ^ n := by
  induction n generalizing x with
  | zero => simp [toBytes, ofBytes, Nat.mod_one]
  | succ n ih =>
    rw [toBytes, ofBytes, ih, BitVec.toNat_ofNat, show 256 ^ (n + 1) = 256 * 256 ^ n by rw [Nat.pow_succ, Nat.mul_comm], Nat.mod_mul]

theorem toBytes_length (n x : Nat) : (toBytes n x).length = n := by
  induction n generalizing x with
  | zero => rfl
  | succ n ih => simp [toBytes, ih]

theorem toBytes_take (n x : Nat) : (toBytes (n + 2) x).take 2 = toBytes 2 x := rfl

/-- What the decoder reads from the bytes of a number, from what it reads from its bits. -/
theorem decode_toBytes (n w : Nat) (i : Instr) (hn : 2 ≤ n) (hw : w < 256 ^ n) (hl : instrLen (w % 65536) = n)
    (hd : decodeBits n w = some i) : decode (toBytes n w) = .ok (i, n) := by
  obtain ⟨m, rfl⟩ : ∃ m, n = m + 2 := ⟨n - 2, by omega⟩
  have h2 : ofBytes ((toBytes (m + 2) w).take 2) = w % 65536 := (toBytes_take m w).symm ▸ ofBytes_toBytes 2 w
  have h3 : (toBytes (m + 2) w).take (m + 2) = toBytes (m + 2) w := List.take_of_length_le (Nat.le_of_eq (toBytes_length _ _))
  have h4 : ¬ m + 2 < 2 := by omega
  simp only [decode, toBytes_length, h2, hl, h3, ofBytes_toBytes, Nat.mod_eq_of_lt hw, hd, if_neg h4, Nat.lt_irrefl, if_false]

/-- A well-formed instruction is read back from its own bytes, with its length. -/
def Roundtrip.Statement (i : Instr) : Prop := i.wellFormed = true → decode (encode i) = .ok (i, i.length)

/-- From the length, the word and what the decoder of its length makes of the word. -/
theorem roundtrip_of (i : Instr) (n w : Nat) (hn : i.length = n) (hi : i.word = w) (h2 : 2 ≤ n) (hw : w < 256 ^ n)
    (hl : instrLen (w % 65536) = n) (hd : (if n = 2 then decodeCompact w else if n = 4 then decodeWord w else decodeX w) = some i) :
    Roundtrip.Statement i := by
  intro hf
  rw [encode, hn, hi]
  exact decode_toBytes n w i h2 hw hl (by simp only [decodeBits, hd, Option.filter, hf, if_true])

/-! ### wordRR -/

theorem wordRR_lt (major la fn b a d : Nat) (hmajor : major < 32) (hla : la < 16) (hfn : fn < 64) (hb : b < 32) (ha : a < 32) (hd : d < 32) : wordRR major la fn b a d < 256 ^ 4 := by
  unfold wordRR; omega

theorem wordRR_len (major la fn b a d : Nat) (hm : major ≤ 0x1B) : instrLen (wordRR major la fn b a d % 65536) = 4 := by
  have h1 : wordRR major la fn b a d % 65536 % 4 = 3 := by unfold wordRR; omega
  have h2 : wordRR major la fn b a d % 65536 / 4 % 32 ≤ 0x1B := by unfold wordRR; omega
  simp [instrLen, h1, h2]

@[simp] theorem wordRR_6_2 (major la fn b a d : Nat) (hmajor : major < 32) :
    bits (wordRR major la fn b a d) 6 2 = major := by
  simp only [bits, wordRR]; omega

@[simp] theorem wordRR_11_7 (major la fn b a d : Nat) (hmajor : major < 32) (hd : d < 32) :
    bits (wordRR major la fn b a d) 11 7 = d := by
  simp only [bits, wordRR]; omega

@[simp] theorem wordRR_12_12 (major la fn b a d : Nat) (hmajor : major < 32) (hd : d < 32) :
    bits (wordRR major la fn b a d) 12 12 = a % 2 := by
  simp only [bits, wordRR]; omega

@[simp] theorem wordRR_16_7 (major la fn b a d : Nat) (hmajor : major < 32) (ha : a < 32) (hd : d < 32) :
    bits (wordRR major la fn b a d) 16 7 = a * 32 + d := by
  simp only [bits, wordRR]; omega

@[simp] theorem wordRR_16_12 (major la fn b a d : Nat) (hmajor : major < 32) (ha : a < 32) (hd : d < 32) :
    bits (wordRR major la fn b a d) 16 12 = a := by
  simp only [bits, wordRR]; omega

@[simp] theorem wordRR_16_13 (major la fn b a d : Nat) (hmajor : major < 32) (ha : a < 32) (hd : d < 32) :
    bits (wordRR major la fn b a d) 16 13 = a / 2 := by
  simp only [bits, wordRR]; omega

@[simp] theorem wordRR_21_7 (major la fn b a d : Nat) (hmajor : major < 32) (hb : b < 32) (ha : a < 32) (hd : d < 32) :
    bits (wordRR major la fn b a d) 21 7 = b * 1024 + a * 32 + d := by
  simp only [bits, wordRR]; omega

@[simp] theorem wordRR_21_12 (major la fn b a d : Nat) (hmajor : major < 32) (hb : b < 32) (ha : a < 32) (hd : d < 32) :
    bits (wordRR major la fn b a d) 21 12 = b * 32 + a := by
  simp only [bits, wordRR]; omega

@[simp] theorem wordRR_21_17 (major la fn b a d : Nat) (hmajor : major < 32) (hb : b < 32) (ha : a < 32) (hd : d < 32) :
    bits (wordRR major la fn b a d) 21 17 = b := by
  simp only [bits, wordRR]; omega

@[simp] theorem wordRR_27_22 (major la fn b a d : Nat) (hmajor : major < 32) (hfn : fn < 64) (hb : b < 32) (ha : a < 32) (hd : d < 32) :
    bits (wordRR major la fn b a d) 27 22 = fn := by
  simp only [bits, wordRR]; omega

@[simp] theorem wordRR_31_28 (major la fn b a d : Nat) (hmajor : major < 32) (hla : la < 16) (hfn : fn < 64) (hb : b < 32) (ha : a < 32) (hd : d < 32) :
    bits (wordRR major la fn b a d) 31 28 = la := by
  simp only [bits, wordRR]; omega

/-! ### wordRI -/

theorem wordRI_lt (major imm fn a d : Nat) (hmajor : major < 32) (himm : imm < 4096) (hfn : fn < 8) (ha : a < 32) (hd : d < 32) : wordRI major imm fn a d < 256 ^ 4 := by
  unfold wordRI; omega

theorem wordRI_len (major imm fn a d : Nat) (hm : major ≤ 0x1B) : instrLen (wordRI major imm fn a d % 65536) = 4 := by
  have h1 : wordRI major imm fn a d % 65536 % 4 = 3 := by unfold wordRI; omega
  have h2 : wordRI major imm fn a d % 65536 / 4 % 32 ≤ 0x1B := by unfold wordRI; omega
  simp [instrLen, h1, h2]

@[simp] theorem wordRI_6_2 (major imm fn a d : Nat) (hmajor : major < 32) :
    bits (wordRI major imm fn a d) 6 2 = major := by
  simp only [bits, wordRI]; omega

@[simp] theorem wordRI_11_7 (major imm fn a d : Nat) (hmajor : major < 32) (hd : d < 32) :
    bits (wordRI major imm fn a d) 11 7 = d := by
  simp only [bits, wordRI]; omega

@[simp] theorem wordRI_14_12 (major imm fn a d : Nat) (hmajor : major < 32) (hd : d < 32) :
    bits (wordRI major imm fn a d) 14 12 = a % 8 := by
  simp only [bits, wordRI]; omega

@[simp] theorem wordRI_16_7 (major imm fn a d : Nat) (hmajor : major < 32) (ha : a < 32) (hd : d < 32) :
    bits (wordRI major imm fn a d) 16 7 = a * 32 + d := by
  simp only [bits, wordRI]; omega

@[simp] theorem wordRI_16_12 (major imm fn a d : Nat) (hmajor : major < 32) (ha : a < 32) (hd : d < 32) :
    bits (wordRI major imm fn a d) 16 12 = a := by
  simp only [bits, wordRI]; omega

@[simp] theorem wordRI_16_15 (major imm fn a d : Nat) (hmajor : major < 32) (ha : a < 32) (hd : d < 32) :
    bits (wordRI major imm fn a d) 16 15 = a / 8 := by
  simp only [bits, wordRI]; omega

@[simp] theorem wordRI_19_17 (major imm fn a d : Nat) (hmajor : major < 32) (hfn : fn < 8) (ha : a < 32) (hd : d < 32) :
    bits (wordRI major imm fn a d) 19 17 = fn := by
  simp only [bits, wordRI]; omega

@[simp] theorem wordRI_25_20 (major imm fn a d : Nat) (hmajor : major < 32) (hfn : fn < 8) (ha : a < 32) (hd : d < 32) :
    bits (wordRI major imm fn a d) 25 20 = imm % 64 := by
  simp only [bits, wordRI]; omega

@[simp] theorem wordRI_27_26 (major imm fn a d : Nat) (hmajor : major < 32) (hfn : fn < 8) (ha : a < 32) (hd : d < 32) :
    bits (wordRI major imm fn a d) 27 26 = imm / 64 % 4 := by
  simp only [bits, wordRI]; omega

@[simp] theorem wordRI_31_20 (major imm fn a d : Nat) (hmajor : major < 32) (himm : imm < 4096) (hfn : fn < 8) (ha : a < 32) (hd : d < 32) :
    bits (wordRI major imm fn a d) 31 20 = imm := by
  simp only [bits, wordRI]; omega

@[simp] theorem wordRI_31_28 (major imm fn a d : Nat) (hmajor : major < 32) (himm : imm < 4096) (hfn : fn < 8) (ha : a < 32) (hd : d < 32) :
    bits (wordRI major imm fn a d) 31 28 = imm / 256 := by
  simp only [bits, wordRI]; omega

/-! ### wordM -/

theorem wordM_lt (major la disp fn a d : Nat) (hmajor : major < 32) (hla : la < 16) (hdisp : disp < 256) (hfn : fn < 8) (ha : a < 32) (hd : d < 32) : wordM major la disp fn a d < 256 ^ 4 := by
  unfold wordM; omega

theorem wordM_len (major la disp fn a d : Nat) (hm : major ≤ 0x1B) : instrLen (wordM major la disp fn a d % 65536) = 4 := by
  have h1 : wordM major la disp fn a d % 65536 % 4 = 3 := by unfold wordM; omega
  have h2 : wordM major la disp fn a d % 65536 / 4 % 32 ≤ 0x1B := by unfold wordM; omega
  simp [instrLen, h1, h2]

@[simp] theorem wordM_6_2 (major la disp fn a d : Nat) (hmajor : major < 32) :
    bits (wordM major la disp fn a d) 6 2 = major := by
  simp only [bits, wordM]; omega

@[simp] theorem wordM_11_7 (major la disp fn a d : Nat) (hmajor : major < 32) (hd : d < 32) :
    bits (wordM major la disp fn a d) 11 7 = d := by
  simp only [bits, wordM]; omega

@[simp] theorem wordM_16_12 (major la disp fn a d : Nat) (hmajor : major < 32) (ha : a < 32) (hd : d < 32) :
    bits (wordM major la disp fn a d) 16 12 = a := by
  simp only [bits, wordM]; omega

@[simp] theorem wordM_19_17 (major la disp fn a d : Nat) (hmajor : major < 32) (hfn : fn < 8) (ha : a < 32) (hd : d < 32) :
    bits (wordM major la disp fn a d) 19 17 = fn := by
  simp only [bits, wordM]; omega

@[simp] theorem wordM_27_20 (major la disp fn a d : Nat) (hmajor : major < 32) (hdisp : disp < 256) (hfn : fn < 8) (ha : a < 32) (hd : d < 32) :
    bits (wordM major la disp fn a d) 27 20 = disp := by
  simp only [bits, wordM]; omega

@[simp] theorem wordM_31_28 (major la disp fn a d : Nat) (hmajor : major < 32) (hla : la < 16) (hdisp : disp < 256) (hfn : fn < 8) (ha : a < 32) (hd : d < 32) :
    bits (wordM major la disp fn a d) 31 28 = la := by
  simp only [bits, wordM]; omega

/-! ### wordU -/

theorem wordU_lt (major imm d : Nat) (hmajor : major < 32) (himm : imm < 1048576) (hd : d < 32) : wordU major imm d < 256 ^ 4 := by
  unfold wordU; omega

theorem wordU_len (major imm d : Nat) (hm : major ≤ 0x1B) : instrLen (wordU major imm d % 65536) = 4 := by
  have h1 : wordU major imm d % 65536 % 4 = 3 := by unfold wordU; omega
  have h2 : wordU major imm d % 65536 / 4 % 32 ≤ 0x1B := by unfold wordU; omega
  simp [instrLen, h1, h2]

@[simp] theorem wordU_6_2 (major imm d : Nat) (hmajor : major < 32) :
    bits (wordU major imm d) 6 2 = major := by
  simp only [bits, wordU]; omega

@[simp] theorem wordU_11_7 (major imm d : Nat) (hmajor : major < 32) (hd : d < 32) :
    bits (wordU major imm d) 11 7 = d := by
  simp only [bits, wordU]; omega

@[simp] theorem wordU_31_12 (major imm d : Nat) (hmajor : major < 32) (himm : imm < 1048576) (hd : d < 32) :
    bits (wordU major imm d) 31 12 = imm := by
  simp only [bits, wordU]; omega

/-! ### wordV -/

theorem wordV_lt (major fn t k b a d : Nat) (hmajor : major < 32) (hfn : fn < 16) (ht : t < 8) (hk : k < 8) (hb : b < 32) (ha : a < 32) (hd : d < 32) : wordV major fn t k b a d < 256 ^ 4 := by
  unfold wordV; omega

theorem wordV_len (major fn t k b a d : Nat) (hm : major ≤ 0x1B) : instrLen (wordV major fn t k b a d % 65536) = 4 := by
  have h1 : wordV major fn t k b a d % 65536 % 4 = 3 := by unfold wordV; omega
  have h2 : wordV major fn t k b a d % 65536 / 4 % 32 ≤ 0x1B := by unfold wordV; omega
  simp [instrLen, h1, h2]

@[simp] theorem wordV_6_2 (major fn t k b a d : Nat) (hmajor : major < 32) :
    bits (wordV major fn t k b a d) 6 2 = major := by
  simp only [bits, wordV]; omega

@[simp] theorem wordV_9_7 (major fn t k b a d : Nat) (hmajor : major < 32) :
    bits (wordV major fn t k b a d) 9 7 = d % 8 := by
  simp only [bits, wordV]; omega

@[simp] theorem wordV_11_7 (major fn t k b a d : Nat) (hmajor : major < 32) (hd : d < 32) :
    bits (wordV major fn t k b a d) 11 7 = d := by
  simp only [bits, wordV]; omega

@[simp] theorem wordV_11_10 (major fn t k b a d : Nat) (hmajor : major < 32) (hd : d < 32) :
    bits (wordV major fn t k b a d) 11 10 = d / 8 := by
  simp only [bits, wordV]; omega

@[simp] theorem wordV_14_12 (major fn t k b a d : Nat) (hmajor : major < 32) (hd : d < 32) :
    bits (wordV major fn t k b a d) 14 12 = a % 8 := by
  simp only [bits, wordV]; omega

@[simp] theorem wordV_16_12 (major fn t k b a d : Nat) (hmajor : major < 32) (ha : a < 32) (hd : d < 32) :
    bits (wordV major fn t k b a d) 16 12 = a := by
  simp only [bits, wordV]; omega

@[simp] theorem wordV_16_15 (major fn t k b a d : Nat) (hmajor : major < 32) (ha : a < 32) (hd : d < 32) :
    bits (wordV major fn t k b a d) 16 15 = a / 8 := by
  simp only [bits, wordV]; omega

@[simp] theorem wordV_18_17 (major fn t k b a d : Nat) (hmajor : major < 32) (ha : a < 32) (hd : d < 32) :
    bits (wordV major fn t k b a d) 18 17 = b % 4 := by
  simp only [bits, wordV]; omega

@[simp] theorem wordV_19_17 (major fn t k b a d : Nat) (hmajor : major < 32) (ha : a < 32) (hd : d < 32) :
    bits (wordV major fn t k b a d) 19 17 = b % 8 := by
  simp only [bits, wordV]; omega

@[simp] theorem wordV_21_12 (major fn t k b a d : Nat) (hmajor : major < 32) (hb : b < 32) (ha : a < 32) (hd : d < 32) :
    bits (wordV major fn t k b a d) 21 12 = b * 32 + a := by
  simp only [bits, wordV]; omega

@[simp] theorem wordV_21_17 (major fn t k b a d : Nat) (hmajor : major < 32) (hb : b < 32) (ha : a < 32) (hd : d < 32) :
    bits (wordV major fn t k b a d) 21 17 = b := by
  simp only [bits, wordV]; omega

@[simp] theorem wordV_21_19 (major fn t k b a d : Nat) (hmajor : major < 32) (hb : b < 32) (ha : a < 32) (hd : d < 32) :
    bits (wordV major fn t k b a d) 21 19 = b / 4 := by
  simp only [bits, wordV]; omega

@[simp] theorem wordV_24_22 (major fn t k b a d : Nat) (hmajor : major < 32) (hk : k < 8) (hb : b < 32) (ha : a < 32) (hd : d < 32) :
    bits (wordV major fn t k b a d) 24 22 = k := by
  simp only [bits, wordV]; omega

@[simp] theorem wordV_27_15 (major fn t k b a d : Nat) (hmajor : major < 32) (ht : t < 8) (hk : k < 8) (hb : b < 32) (ha : a < 32) (hd : d < 32) :
    bits (wordV major fn t k b a d) 27 15 = t * 1024 + k * 128 + b * 4 + a / 8 := by
  simp only [bits, wordV]; omega

@[simp] theorem wordV_27_17 (major fn t k b a d : Nat) (hmajor : major < 32) (ht : t < 8) (hk : k < 8) (hb : b < 32) (ha : a < 32) (hd : d < 32) :
    bits (wordV major fn t k b a d) 27 17 = t * 256 + k * 32 + b := by
  simp only [bits, wordV]; omega

@[simp] theorem wordV_27_20 (major fn t k b a d : Nat) (hmajor : major < 32) (ht : t < 8) (hk : k < 8) (hb : b < 32) (ha : a < 32) (hd : d < 32) :
    bits (wordV major fn t k b a d) 27 20 = t * 32 + k * 4 + b / 8 := by
  simp only [bits, wordV]; omega

@[simp] theorem wordV_27_25 (major fn t k b a d : Nat) (hmajor : major < 32) (ht : t < 8) (hk : k < 8) (hb : b < 32) (ha : a < 32) (hd : d < 32) :
    bits (wordV major fn t k b a d) 27 25 = t := by
  simp only [bits, wordV]; omega

@[simp] theorem wordV_31_28 (major fn t k b a d : Nat) (hmajor : major < 32) (hfn : fn < 16) (ht : t < 8) (hk : k < 8) (hb : b < 32) (ha : a < 32) (hd : d < 32) :
    bits (wordV major fn t k b a d) 31 28 = fn := by
  simp only [bits, wordV]; omega

/-! ### wordX -/

theorem wordX_lt (major imm flags la fn c b a d : Nat) (hmajor : major < 32) (himm : imm < 16777216) (hflags : flags < 16) (hla : la < 16) (hfn : fn < 32) (hc : c < 32) (hb : b < 32) (ha : a < 32) (hd : d < 32) : wordX major imm flags la fn c b a d < 256 ^ 8 := by
  unfold wordX; omega

theorem wordX_len (major imm flags la fn c b a d : Nat) (hm : 0x1C ≤ major) (hm2 : major < 32) : instrLen (wordX major imm flags la fn c b a d % 65536) = 8 := by
  have h1 : wordX major imm flags la fn c b a d % 65536 % 4 = 3 := by unfold wordX; omega
  have h2 : ¬ wordX major imm flags la fn c b a d % 65536 / 4 % 32 ≤ 0x1B := by unfold wordX; omega
  simp [instrLen, h1, h2]

@[simp] theorem wordX_6_2 (major imm flags la fn c b a d : Nat) (hmajor : major < 32) :
    bits (wordX major imm flags la fn c b a d) 6 2 = major := by
  simp only [bits, wordX]; omega

@[simp] theorem wordX_11_7 (major imm flags la fn c b a d : Nat) (hmajor : major < 32) (hd : d < 32) :
    bits (wordX major imm flags la fn c b a d) 11 7 = d := by
  simp only [bits, wordX]; omega

@[simp] theorem wordX_16_12 (major imm flags la fn c b a d : Nat) (hmajor : major < 32) (ha : a < 32) (hd : d < 32) :
    bits (wordX major imm flags la fn c b a d) 16 12 = a := by
  simp only [bits, wordX]; omega

@[simp] theorem wordX_21_17 (major imm flags la fn c b a d : Nat) (hmajor : major < 32) (hb : b < 32) (ha : a < 32) (hd : d < 32) :
    bits (wordX major imm flags la fn c b a d) 21 17 = b := by
  simp only [bits, wordX]; omega

@[simp] theorem wordX_26_12 (major imm flags la fn c b a d : Nat) (hmajor : major < 32) (hc : c < 32) (hb : b < 32) (ha : a < 32) (hd : d < 32) :
    bits (wordX major imm flags la fn c b a d) 26 12 = c * 1024 + b * 32 + a := by
  simp only [bits, wordX]; omega

@[simp] theorem wordX_26_17 (major imm flags la fn c b a d : Nat) (hmajor : major < 32) (hc : c < 32) (hb : b < 32) (ha : a < 32) (hd : d < 32) :
    bits (wordX major imm flags la fn c b a d) 26 17 = c * 32 + b := by
  simp only [bits, wordX]; omega

@[simp] theorem wordX_26_22 (major imm flags la fn c b a d : Nat) (hmajor : major < 32) (hc : c < 32) (hb : b < 32) (ha : a < 32) (hd : d < 32) :
    bits (wordX major imm flags la fn c b a d) 26 22 = c := by
  simp only [bits, wordX]; omega

@[simp] theorem wordX_31_27 (major imm flags la fn c b a d : Nat) (hmajor : major < 32) (hfn : fn < 32) (hc : c < 32) (hb : b < 32) (ha : a < 32) (hd : d < 32) :
    bits (wordX major imm flags la fn c b a d) 31 27 = fn := by
  simp only [bits, wordX]; omega

@[simp] theorem wordX_35_32 (major imm flags la fn c b a d : Nat) (hmajor : major < 32) (hla : la < 16) (hfn : fn < 32) (hc : c < 32) (hb : b < 32) (ha : a < 32) (hd : d < 32) :
    bits (wordX major imm flags la fn c b a d) 35 32 = la := by
  simp only [bits, wordX]; omega

@[simp] theorem wordX_36_36 (major imm flags la fn c b a d : Nat) (hmajor : major < 32) (hla : la < 16) (hfn : fn < 32) (hc : c < 32) (hb : b < 32) (ha : a < 32) (hd : d < 32) :
    bits (wordX major imm flags la fn c b a d) 36 36 = flags % 2 := by
  simp only [bits, wordX]; omega

@[simp] theorem wordX_38_36 (major imm flags la fn c b a d : Nat) (hmajor : major < 32) (hla : la < 16) (hfn : fn < 32) (hc : c < 32) (hb : b < 32) (ha : a < 32) (hd : d < 32) :
    bits (wordX major imm flags la fn c b a d) 38 36 = flags % 8 := by
  simp only [bits, wordX]; omega

@[simp] theorem wordX_39_32 (major imm flags la fn c b a d : Nat) (hmajor : major < 32) (hflags : flags < 16) (hla : la < 16) (hfn : fn < 32) (hc : c < 32) (hb : b < 32) (ha : a < 32) (hd : d < 32) :
    bits (wordX major imm flags la fn c b a d) 39 32 = flags * 16 + la := by
  simp only [bits, wordX]; omega

@[simp] theorem wordX_39_36 (major imm flags la fn c b a d : Nat) (hmajor : major < 32) (hflags : flags < 16) (hla : la < 16) (hfn : fn < 32) (hc : c < 32) (hb : b < 32) (ha : a < 32) (hd : d < 32) :
    bits (wordX major imm flags la fn c b a d) 39 36 = flags := by
  simp only [bits, wordX]; omega

@[simp] theorem wordX_39_39 (major imm flags la fn c b a d : Nat) (hmajor : major < 32) (hflags : flags < 16) (hla : la < 16) (hfn : fn < 32) (hc : c < 32) (hb : b < 32) (ha : a < 32) (hd : d < 32) :
    bits (wordX major imm flags la fn c b a d) 39 39 = flags / 8 := by
  simp only [bits, wordX]; omega

@[simp] theorem wordX_42_40 (major imm flags la fn c b a d : Nat) (hmajor : major < 32) (hflags : flags < 16) (hla : la < 16) (hfn : fn < 32) (hc : c < 32) (hb : b < 32) (ha : a < 32) (hd : d < 32) :
    bits (wordX major imm flags la fn c b a d) 42 40 = imm % 8 := by
  simp only [bits, wordX]; omega

@[simp] theorem wordX_43_40 (major imm flags la fn c b a d : Nat) (hmajor : major < 32) (hflags : flags < 16) (hla : la < 16) (hfn : fn < 32) (hc : c < 32) (hb : b < 32) (ha : a < 32) (hd : d < 32) :
    bits (wordX major imm flags la fn c b a d) 43 40 = imm % 16 := by
  simp only [bits, wordX]; omega

@[simp] theorem wordX_43_43 (major imm flags la fn c b a d : Nat) (hmajor : major < 32) (hflags : flags < 16) (hla : la < 16) (hfn : fn < 32) (hc : c < 32) (hb : b < 32) (ha : a < 32) (hd : d < 32) :
    bits (wordX major imm flags la fn c b a d) 43 43 = imm / 8 % 2 := by
  simp only [bits, wordX]; omega

@[simp] theorem wordX_46_40 (major imm flags la fn c b a d : Nat) (hmajor : major < 32) (hflags : flags < 16) (hla : la < 16) (hfn : fn < 32) (hc : c < 32) (hb : b < 32) (ha : a < 32) (hd : d < 32) :
    bits (wordX major imm flags la fn c b a d) 46 40 = imm % 128 := by
  simp only [bits, wordX]; omega

@[simp] theorem wordX_49_43 (major imm flags la fn c b a d : Nat) (hmajor : major < 32) (hflags : flags < 16) (hla : la < 16) (hfn : fn < 32) (hc : c < 32) (hb : b < 32) (ha : a < 32) (hd : d < 32) :
    bits (wordX major imm flags la fn c b a d) 49 43 = imm / 8 % 128 := by
  simp only [bits, wordX]; omega

@[simp] theorem wordX_63_32 (major imm flags la fn c b a d : Nat) (hmajor : major < 32) (himm : imm < 16777216) (hflags : flags < 16) (hla : la < 16) (hfn : fn < 32) (hc : c < 32) (hb : b < 32) (ha : a < 32) (hd : d < 32) :
    bits (wordX major imm flags la fn c b a d) 63 32 = imm * 256 + flags * 16 + la := by
  simp only [bits, wordX]; omega

@[simp] theorem wordX_63_36 (major imm flags la fn c b a d : Nat) (hmajor : major < 32) (himm : imm < 16777216) (hflags : flags < 16) (hla : la < 16) (hfn : fn < 32) (hc : c < 32) (hb : b < 32) (ha : a < 32) (hd : d < 32) :
    bits (wordX major imm flags la fn c b a d) 63 36 = imm * 16 + flags := by
  simp only [bits, wordX]; omega

@[simp] theorem wordX_63_37 (major imm flags la fn c b a d : Nat) (hmajor : major < 32) (himm : imm < 16777216) (hflags : flags < 16) (hla : la < 16) (hfn : fn < 32) (hc : c < 32) (hb : b < 32) (ha : a < 32) (hd : d < 32) :
    bits (wordX major imm flags la fn c b a d) 63 37 = imm * 8 + flags / 2 := by
  simp only [bits, wordX]; omega

@[simp] theorem wordX_63_39 (major imm flags la fn c b a d : Nat) (hmajor : major < 32) (himm : imm < 16777216) (hflags : flags < 16) (hla : la < 16) (hfn : fn < 32) (hc : c < 32) (hb : b < 32) (ha : a < 32) (hd : d < 32) :
    bits (wordX major imm flags la fn c b a d) 63 39 = imm * 2 + flags / 8 := by
  simp only [bits, wordX]; omega

@[simp] theorem wordX_63_43 (major imm flags la fn c b a d : Nat) (hmajor : major < 32) (himm : imm < 16777216) (hflags : flags < 16) (hla : la < 16) (hfn : fn < 32) (hc : c < 32) (hb : b < 32) (ha : a < 32) (hd : d < 32) :
    bits (wordX major imm flags la fn c b a d) 63 43 = imm / 8 := by
  simp only [bits, wordX]; omega

@[simp] theorem wordX_63_44 (major imm flags la fn c b a d : Nat) (hmajor : major < 32) (himm : imm < 16777216) (hflags : flags < 16) (hla : la < 16) (hfn : fn < 32) (hc : c < 32) (hb : b < 32) (ha : a < 32) (hd : d < 32) :
    bits (wordX major imm flags la fn c b a d) 63 44 = imm / 16 := by
  simp only [bits, wordX]; omega

@[simp] theorem wordX_63_47 (major imm flags la fn c b a d : Nat) (hmajor : major < 32) (himm : imm < 16777216) (hflags : flags < 16) (hla : la < 16) (hfn : fn < 32) (hc : c < 32) (hb : b < 32) (ha : a < 32) (hd : d < 32) :
    bits (wordX major imm flags la fn c b a d) 63 47 = imm / 128 := by
  simp only [bits, wordX]; omega

@[simp] theorem wordX_63_50 (major imm flags la fn c b a d : Nat) (hmajor : major < 32) (himm : imm < 16777216) (hflags : flags < 16) (hla : la < 16) (hfn : fn < 32) (hc : c < 32) (hb : b < 32) (ha : a < 32) (hd : d < 32) :
    bits (wordX major imm flags la fn c b a d) 63 50 = imm / 1024 := by
  simp only [bits, wordX]; omega

/-! ### wordNI -/

theorem wordNI_lt (bank f imm d : Nat) (hbank : bank < 4) (hf : f < 8) (himm : imm < 64) (hd : d < 32) : wordNI bank f imm d < 256 ^ 2 := by
  unfold wordNI; omega

theorem wordNI_len (bank f imm d : Nat) (hb : bank < 3) : instrLen (wordNI bank f imm d % 65536) = 2 := by
  have : wordNI bank f imm d % 65536 % 4 ≠ 3 := by unfold wordNI; omega
  rw [instrLen, if_pos this]

@[simp] theorem wordNI_1_0 (bank f imm d : Nat) (hbank : bank < 4) :
    bits (wordNI bank f imm d) 1 0 = bank := by
  simp only [bits, wordNI]; omega

@[simp] theorem wordNI_4_2 (bank f imm d : Nat) (hbank : bank < 4) (hf : f < 8) :
    bits (wordNI bank f imm d) 4 2 = f := by
  simp only [bits, wordNI]; omega

@[simp] theorem wordNI_9_5 (bank f imm d : Nat) (hbank : bank < 4) (hf : f < 8) (hd : d < 32) :
    bits (wordNI bank f imm d) 9 5 = d := by
  simp only [bits, wordNI]; omega

@[simp] theorem wordNI_15_10 (bank f imm d : Nat) (hbank : bank < 4) (hf : f < 8) (himm : imm < 64) (hd : d < 32) :
    bits (wordNI bank f imm d) 15 10 = imm := by
  simp only [bits, wordNI]; omega

/-! ### wordNR -/

theorem wordNR_lt (bank f a x d : Nat) (hbank : bank < 4) (hf : f < 8) (ha : a < 32) (hx : x < 2) (hd : d < 32) : wordNR bank f a x d < 256 ^ 2 := by
  unfold wordNR; omega

theorem wordNR_len (bank f a x d : Nat) (hb : bank < 3) : instrLen (wordNR bank f a x d % 65536) = 2 := by
  have : wordNR bank f a x d % 65536 % 4 ≠ 3 := by unfold wordNR; omega
  rw [instrLen, if_pos this]

@[simp] theorem wordNR_1_0 (bank f a x d : Nat) (hbank : bank < 4) :
    bits (wordNR bank f a x d) 1 0 = bank := by
  simp only [bits, wordNR]; omega

@[simp] theorem wordNR_4_2 (bank f a x d : Nat) (hbank : bank < 4) (hf : f < 8) :
    bits (wordNR bank f a x d) 4 2 = f := by
  simp only [bits, wordNR]; omega

@[simp] theorem wordNR_9_5 (bank f a x d : Nat) (hbank : bank < 4) (hf : f < 8) (hd : d < 32) :
    bits (wordNR bank f a x d) 9 5 = d := by
  simp only [bits, wordNR]; omega

@[simp] theorem wordNR_10_5 (bank f a x d : Nat) (hbank : bank < 4) (hf : f < 8) (hx : x < 2) (hd : d < 32) :
    bits (wordNR bank f a x d) 10 5 = x * 32 + d := by
  simp only [bits, wordNR]; omega

@[simp] theorem wordNR_10_10 (bank f a x d : Nat) (hbank : bank < 4) (hf : f < 8) (hx : x < 2) (hd : d < 32) :
    bits (wordNR bank f a x d) 10 10 = x := by
  simp only [bits, wordNR]; omega

@[simp] theorem wordNR_15_11 (bank f a x d : Nat) (hbank : bank < 4) (hf : f < 8) (ha : a < 32) (hx : x < 2) (hd : d < 32) :
    bits (wordNR bank f a x d) 15 11 = a := by
  simp only [bits, wordNR]; omega

/-! ### wordNM -/

theorem wordNM_lt (bank f imm a d : Nat) (hbank : bank < 4) (hf : f < 8) (himm : imm < 32) (ha : a < 8) (hd : d < 8) : wordNM bank f imm a d < 256 ^ 2 := by
  unfold wordNM; omega

theorem wordNM_len (bank f imm a d : Nat) (hb : bank < 3) : instrLen (wordNM bank f imm a d % 65536) = 2 := by
  have : wordNM bank f imm a d % 65536 % 4 ≠ 3 := by unfold wordNM; omega
  rw [instrLen, if_pos this]

@[simp] theorem wordNM_1_0 (bank f imm a d : Nat) (hbank : bank < 4) :
    bits (wordNM bank f imm a d) 1 0 = bank := by
  simp only [bits, wordNM]; omega

@[simp] theorem wordNM_4_2 (bank f imm a d : Nat) (hbank : bank < 4) (hf : f < 8) :
    bits (wordNM bank f imm a d) 4 2 = f := by
  simp only [bits, wordNM]; omega

@[simp] theorem wordNM_7_5 (bank f imm a d : Nat) (hbank : bank < 4) (hf : f < 8) (hd : d < 8) :
    bits (wordNM bank f imm a d) 7 5 = d := by
  simp only [bits, wordNM]; omega

@[simp] theorem wordNM_10_8 (bank f imm a d : Nat) (hbank : bank < 4) (hf : f < 8) (ha : a < 8) (hd : d < 8) :
    bits (wordNM bank f imm a d) 10 8 = a := by
  simp only [bits, wordNM]; omega

@[simp] theorem wordNM_15_11 (bank f imm a d : Nat) (hbank : bank < 4) (hf : f < 8) (himm : imm < 32) (ha : a < 8) (hd : d < 8) :
    bits (wordNM bank f imm a d) 15 11 = imm := by
  simp only [bits, wordNM]; omega

/-! ### wordNB -/

theorem wordNB_lt (bank f disp a : Nat) (hbank : bank < 4) (hf : f < 8) (hdisp : disp < 256) (ha : a < 8) : wordNB bank f disp a < 256 ^ 2 := by
  unfold wordNB; omega

theorem wordNB_len (bank f disp a : Nat) (hb : bank < 3) : instrLen (wordNB bank f disp a % 65536) = 2 := by
  have : wordNB bank f disp a % 65536 % 4 ≠ 3 := by unfold wordNB; omega
  rw [instrLen, if_pos this]

@[simp] theorem wordNB_1_0 (bank f disp a : Nat) (hbank : bank < 4) :
    bits (wordNB bank f disp a) 1 0 = bank := by
  simp only [bits, wordNB]; omega

@[simp] theorem wordNB_4_2 (bank f disp a : Nat) (hbank : bank < 4) (hf : f < 8) :
    bits (wordNB bank f disp a) 4 2 = f := by
  simp only [bits, wordNB]; omega

@[simp] theorem wordNB_7_5 (bank f disp a : Nat) (hbank : bank < 4) (hf : f < 8) (ha : a < 8) :
    bits (wordNB bank f disp a) 7 5 = a := by
  simp only [bits, wordNB]; omega

@[simp] theorem wordNB_15_8 (bank f disp a : Nat) (hbank : bank < 4) (hf : f < 8) (hdisp : disp < 256) (ha : a < 8) :
    bits (wordNB bank f disp a) 15 8 = disp := by
  simp only [bits, wordNB]; omega

/-! ### wordNJ -/

theorem wordNJ_lt (bank f disp : Nat) (hbank : bank < 4) (hf : f < 8) (hdisp : disp < 2048) : wordNJ bank f disp < 256 ^ 2 := by
  unfold wordNJ; omega

theorem wordNJ_len (bank f disp : Nat) (hb : bank < 3) : instrLen (wordNJ bank f disp % 65536) = 2 := by
  have : wordNJ bank f disp % 65536 % 4 ≠ 3 := by unfold wordNJ; omega
  rw [instrLen, if_pos this]

@[simp] theorem wordNJ_1_0 (bank f disp : Nat) (hbank : bank < 4) :
    bits (wordNJ bank f disp) 1 0 = bank := by
  simp only [bits, wordNJ]; omega

@[simp] theorem wordNJ_4_2 (bank f disp : Nat) (hbank : bank < 4) (hf : f < 8) :
    bits (wordNJ bank f disp) 4 2 = f := by
  simp only [bits, wordNJ]; omega

@[simp] theorem wordNJ_15_5 (bank f disp : Nat) (hbank : bank < 4) (hf : f < 8) (hdisp : disp < 2048) :
    bits (wordNJ bank f disp) 15 5 = disp := by
  simp only [bits, wordNJ]; omega

namespace Roundtrip

theorem add (l : La) (d : Reg) (a : Reg) (b : Reg) : Statement (.add l d a b) := by
  refine roundtrip_of _ 4 (wordRR 0 l.toNat 0 b.toNat a.toNat d.toNat) rfl rfl (by decide) ?_ ?_ ?_
  · exact wordRR_lt _ _ _ _ _ _ (by omega) (by omega) (by omega) (by omega) (by omega) (by omega)
  · exact wordRR_len _ _ _ _ _ _ (by decide)
  · simp (disch := omega) [decodeWord, decodeIntrr, fld_eq, tyFld_eq, ofCode_code, ofCode_code_add, Nat.mod_eq_of_lt]

theorem sub (l : La) (d : Reg) (a : Reg) (b : Reg) : Statement (.sub l d a b) := by
  refine roundtrip_of _ 4 (wordRR 0 l.toNat 1 b.toNat a.toNat d.toNat) rfl rfl (by decide) ?_ ?_ ?_
  · exact wordRR_lt _ _ _ _ _ _ (by omega) (by omega) (by omega) (by omega) (by omega) (by omega)
  · exact wordRR_len _ _ _ _ _ _ (by decide)
  · simp (disch := omega) [decodeWord, decodeIntrr, fld_eq, tyFld_eq, ofCode_code, ofCode_code_add, Nat.mod_eq_of_lt]

theorem mul (l : La) (d : Reg) (a : Reg) (b : Reg) : Statement (.mul l d a b) := by
  refine roundtrip_of _ 4 (wordRR 0 l.toNat 2 b.toNat a.toNat d.toNat) rfl rfl (by decide) ?_ ?_ ?_
  · exact wordRR_lt _ _ _ _ _ _ (by omega) (by omega) (by omega) (by omega) (by omega) (by omega)
  · exact wordRR_len _ _ _ _ _ _ (by decide)
  · simp (disch := omega) [decodeWord, decodeIntrr, fld_eq, tyFld_eq, ofCode_code, ofCode_code_add, Nat.mod_eq_of_lt]

theorem mulh (l : La) (d : Reg) (a : Reg) (b : Reg) : Statement (.mulh l d a b) := by
  refine roundtrip_of _ 4 (wordRR 0 l.toNat 3 b.toNat a.toNat d.toNat) rfl rfl (by decide) ?_ ?_ ?_
  · exact wordRR_lt _ _ _ _ _ _ (by omega) (by omega) (by omega) (by omega) (by omega) (by omega)
  · exact wordRR_len _ _ _ _ _ _ (by decide)
  · simp (disch := omega) [decodeWord, decodeIntrr, fld_eq, tyFld_eq, ofCode_code, ofCode_code_add, Nat.mod_eq_of_lt]

theorem mulhu (l : La) (d : Reg) (a : Reg) (b : Reg) : Statement (.mulhu l d a b) := by
  refine roundtrip_of _ 4 (wordRR 0 l.toNat 4 b.toNat a.toNat d.toNat) rfl rfl (by decide) ?_ ?_ ?_
  · exact wordRR_lt _ _ _ _ _ _ (by omega) (by omega) (by omega) (by omega) (by omega) (by omega)
  · exact wordRR_len _ _ _ _ _ _ (by decide)
  · simp (disch := omega) [decodeWord, decodeIntrr, fld_eq, tyFld_eq, ofCode_code, ofCode_code_add, Nat.mod_eq_of_lt]

theorem div (l : La) (d : Reg) (a : Reg) (b : Reg) : Statement (.div l d a b) := by
  refine roundtrip_of _ 4 (wordRR 0 l.toNat 5 b.toNat a.toNat d.toNat) rfl rfl (by decide) ?_ ?_ ?_
  · exact wordRR_lt _ _ _ _ _ _ (by omega) (by omega) (by omega) (by omega) (by omega) (by omega)
  · exact wordRR_len _ _ _ _ _ _ (by decide)
  · simp (disch := omega) [decodeWord, decodeIntrr, fld_eq, tyFld_eq, ofCode_code, ofCode_code_add, Nat.mod_eq_of_lt]

theorem divu (l : La) (d : Reg) (a : Reg) (b : Reg) : Statement (.divu l d a b) := by
  refine roundtrip_of _ 4 (wordRR 0 l.toNat 6 b.toNat a.toNat d.toNat) rfl rfl (by decide) ?_ ?_ ?_
  · exact wordRR_lt _ _ _ _ _ _ (by omega) (by omega) (by omega) (by omega) (by omega) (by omega)
  · exact wordRR_len _ _ _ _ _ _ (by decide)
  · simp (disch := omega) [decodeWord, decodeIntrr, fld_eq, tyFld_eq, ofCode_code, ofCode_code_add, Nat.mod_eq_of_lt]

theorem rem (l : La) (d : Reg) (a : Reg) (b : Reg) : Statement (.rem l d a b) := by
  refine roundtrip_of _ 4 (wordRR 0 l.toNat 7 b.toNat a.toNat d.toNat) rfl rfl (by decide) ?_ ?_ ?_
  · exact wordRR_lt _ _ _ _ _ _ (by omega) (by omega) (by omega) (by omega) (by omega) (by omega)
  · exact wordRR_len _ _ _ _ _ _ (by decide)
  · simp (disch := omega) [decodeWord, decodeIntrr, fld_eq, tyFld_eq, ofCode_code, ofCode_code_add, Nat.mod_eq_of_lt]

theorem remu (l : La) (d : Reg) (a : Reg) (b : Reg) : Statement (.remu l d a b) := by
  refine roundtrip_of _ 4 (wordRR 0 l.toNat 8 b.toNat a.toNat d.toNat) rfl rfl (by decide) ?_ ?_ ?_
  · exact wordRR_lt _ _ _ _ _ _ (by omega) (by omega) (by omega) (by omega) (by omega) (by omega)
  · exact wordRR_len _ _ _ _ _ _ (by decide)
  · simp (disch := omega) [decodeWord, decodeIntrr, fld_eq, tyFld_eq, ofCode_code, ofCode_code_add, Nat.mod_eq_of_lt]

theorem and (l : La) (d : Reg) (a : Reg) (b : Reg) : Statement (.and l d a b) := by
  refine roundtrip_of _ 4 (wordRR 0 l.toNat 9 b.toNat a.toNat d.toNat) rfl rfl (by decide) ?_ ?_ ?_
  · exact wordRR_lt _ _ _ _ _ _ (by omega) (by omega) (by omega) (by omega) (by omega) (by omega)
  · exact wordRR_len _ _ _ _ _ _ (by decide)
  · simp (disch := omega) [decodeWord, decodeIntrr, fld_eq, tyFld_eq, ofCode_code, ofCode_code_add, Nat.mod_eq_of_lt]

theorem or (l : La) (d : Reg) (a : Reg) (b : Reg) : Statement (.or l d a b) := by
  refine roundtrip_of _ 4 (wordRR 0 l.toNat 10 b.toNat a.toNat d.toNat) rfl rfl (by decide) ?_ ?_ ?_
  · exact wordRR_lt _ _ _ _ _ _ (by omega) (by omega) (by omega) (by omega) (by omega) (by omega)
  · exact wordRR_len _ _ _ _ _ _ (by decide)
  · simp (disch := omega) [decodeWord, decodeIntrr, fld_eq, tyFld_eq, ofCode_code, ofCode_code_add, Nat.mod_eq_of_lt]

theorem xor (l : La) (d : Reg) (a : Reg) (b : Reg) : Statement (.xor l d a b) := by
  refine roundtrip_of _ 4 (wordRR 0 l.toNat 11 b.toNat a.toNat d.toNat) rfl rfl (by decide) ?_ ?_ ?_
  · exact wordRR_lt _ _ _ _ _ _ (by omega) (by omega) (by omega) (by omega) (by omega) (by omega)
  · exact wordRR_len _ _ _ _ _ _ (by decide)
  · simp (disch := omega) [decodeWord, decodeIntrr, fld_eq, tyFld_eq, ofCode_code, ofCode_code_add, Nat.mod_eq_of_lt]

theorem andn (l : La) (d : Reg) (a : Reg) (b : Reg) : Statement (.andn l d a b) := by
  refine roundtrip_of _ 4 (wordRR 0 l.toNat 12 b.toNat a.toNat d.toNat) rfl rfl (by decide) ?_ ?_ ?_
  · exact wordRR_lt _ _ _ _ _ _ (by omega) (by omega) (by omega) (by omega) (by omega) (by omega)
  · exact wordRR_len _ _ _ _ _ _ (by decide)
  · simp (disch := omega) [decodeWord, decodeIntrr, fld_eq, tyFld_eq, ofCode_code, ofCode_code_add, Nat.mod_eq_of_lt]

theorem shl (l : La) (d : Reg) (a : Reg) (b : Reg) : Statement (.shl l d a b) := by
  refine roundtrip_of _ 4 (wordRR 0 l.toNat 13 b.toNat a.toNat d.toNat) rfl rfl (by decide) ?_ ?_ ?_
  · exact wordRR_lt _ _ _ _ _ _ (by omega) (by omega) (by omega) (by omega) (by omega) (by omega)
  · exact wordRR_len _ _ _ _ _ _ (by decide)
  · simp (disch := omega) [decodeWord, decodeIntrr, fld_eq, tyFld_eq, ofCode_code, ofCode_code_add, Nat.mod_eq_of_lt]

theorem shr (l : La) (d : Reg) (a : Reg) (b : Reg) : Statement (.shr l d a b) := by
  refine roundtrip_of _ 4 (wordRR 0 l.toNat 14 b.toNat a.toNat d.toNat) rfl rfl (by decide) ?_ ?_ ?_
  · exact wordRR_lt _ _ _ _ _ _ (by omega) (by omega) (by omega) (by omega) (by omega) (by omega)
  · exact wordRR_len _ _ _ _ _ _ (by decide)
  · simp (disch := omega) [decodeWord, decodeIntrr, fld_eq, tyFld_eq, ofCode_code, ofCode_code_add, Nat.mod_eq_of_lt]

theorem sar (l : La) (d : Reg) (a : Reg) (b : Reg) : Statement (.sar l d a b) := by
  refine roundtrip_of _ 4 (wordRR 0 l.toNat 15 b.toNat a.toNat d.toNat) rfl rfl (by decide) ?_ ?_ ?_
  · exact wordRR_lt _ _ _ _ _ _ (by omega) (by omega) (by omega) (by omega) (by omega) (by omega)
  · exact wordRR_len _ _ _ _ _ _ (by decide)
  · simp (disch := omega) [decodeWord, decodeIntrr, fld_eq, tyFld_eq, ofCode_code, ofCode_code_add, Nat.mod_eq_of_lt]

theorem rotr (l : La) (d : Reg) (a : Reg) (b : Reg) : Statement (.rotr l d a b) := by
  refine roundtrip_of _ 4 (wordRR 0 l.toNat 16 b.toNat a.toNat d.toNat) rfl rfl (by decide) ?_ ?_ ?_
  · exact wordRR_lt _ _ _ _ _ _ (by omega) (by omega) (by omega) (by omega) (by omega) (by omega)
  · exact wordRR_len _ _ _ _ _ _ (by decide)
  · simp (disch := omega) [decodeWord, decodeIntrr, fld_eq, tyFld_eq, ofCode_code, ofCode_code_add, Nat.mod_eq_of_lt]

theorem min (l : La) (d : Reg) (a : Reg) (b : Reg) : Statement (.min l d a b) := by
  refine roundtrip_of _ 4 (wordRR 0 l.toNat 17 b.toNat a.toNat d.toNat) rfl rfl (by decide) ?_ ?_ ?_
  · exact wordRR_lt _ _ _ _ _ _ (by omega) (by omega) (by omega) (by omega) (by omega) (by omega)
  · exact wordRR_len _ _ _ _ _ _ (by decide)
  · simp (disch := omega) [decodeWord, decodeIntrr, fld_eq, tyFld_eq, ofCode_code, ofCode_code_add, Nat.mod_eq_of_lt]

theorem max (l : La) (d : Reg) (a : Reg) (b : Reg) : Statement (.max l d a b) := by
  refine roundtrip_of _ 4 (wordRR 0 l.toNat 18 b.toNat a.toNat d.toNat) rfl rfl (by decide) ?_ ?_ ?_
  · exact wordRR_lt _ _ _ _ _ _ (by omega) (by omega) (by omega) (by omega) (by omega) (by omega)
  · exact wordRR_len _ _ _ _ _ _ (by decide)
  · simp (disch := omega) [decodeWord, decodeIntrr, fld_eq, tyFld_eq, ofCode_code, ofCode_code_add, Nat.mod_eq_of_lt]

theorem minu (l : La) (d : Reg) (a : Reg) (b : Reg) : Statement (.minu l d a b) := by
  refine roundtrip_of _ 4 (wordRR 0 l.toNat 19 b.toNat a.toNat d.toNat) rfl rfl (by decide) ?_ ?_ ?_
  · exact wordRR_lt _ _ _ _ _ _ (by omega) (by omega) (by omega) (by omega) (by omega) (by omega)
  · exact wordRR_len _ _ _ _ _ _ (by decide)
  · simp (disch := omega) [decodeWord, decodeIntrr, fld_eq, tyFld_eq, ofCode_code, ofCode_code_add, Nat.mod_eq_of_lt]

theorem maxu (l : La) (d : Reg) (a : Reg) (b : Reg) : Statement (.maxu l d a b) := by
  refine roundtrip_of _ 4 (wordRR 0 l.toNat 20 b.toNat a.toNat d.toNat) rfl rfl (by decide) ?_ ?_ ?_
  · exact wordRR_lt _ _ _ _ _ _ (by omega) (by omega) (by omega) (by omega) (by omega) (by omega)
  · exact wordRR_len _ _ _ _ _ _ (by decide)
  · simp (disch := omega) [decodeWord, decodeIntrr, fld_eq, tyFld_eq, ofCode_code, ofCode_code_add, Nat.mod_eq_of_lt]

theorem slt (l : La) (d : Reg) (a : Reg) (b : Reg) : Statement (.slt l d a b) := by
  refine roundtrip_of _ 4 (wordRR 0 l.toNat 21 b.toNat a.toNat d.toNat) rfl rfl (by decide) ?_ ?_ ?_
  · exact wordRR_lt _ _ _ _ _ _ (by omega) (by omega) (by omega) (by omega) (by omega) (by omega)
  · exact wordRR_len _ _ _ _ _ _ (by decide)
  · simp (disch := omega) [decodeWord, decodeIntrr, fld_eq, tyFld_eq, ofCode_code, ofCode_code_add, Nat.mod_eq_of_lt]

theorem sltu (l : La) (d : Reg) (a : Reg) (b : Reg) : Statement (.sltu l d a b) := by
  refine roundtrip_of _ 4 (wordRR 0 l.toNat 22 b.toNat a.toNat d.toNat) rfl rfl (by decide) ?_ ?_ ?_
  · exact wordRR_lt _ _ _ _ _ _ (by omega) (by omega) (by omega) (by omega) (by omega) (by omega)
  · exact wordRR_len _ _ _ _ _ _ (by decide)
  · simp (disch := omega) [decodeWord, decodeIntrr, fld_eq, tyFld_eq, ofCode_code, ofCode_code_add, Nat.mod_eq_of_lt]

theorem seq (l : La) (d : Reg) (a : Reg) (b : Reg) : Statement (.seq l d a b) := by
  refine roundtrip_of _ 4 (wordRR 0 l.toNat 23 b.toNat a.toNat d.toNat) rfl rfl (by decide) ?_ ?_ ?_
  · exact wordRR_lt _ _ _ _ _ _ (by omega) (by omega) (by omega) (by omega) (by omega) (by omega)
  · exact wordRR_len _ _ _ _ _ _ (by decide)
  · simp (disch := omega) [decodeWord, decodeIntrr, fld_eq, tyFld_eq, ofCode_code, ofCode_code_add, Nat.mod_eq_of_lt]

theorem clz (l : La) (d : Reg) (a : Reg) : Statement (.clz l d a) := by
  refine roundtrip_of _ 4 (wordRR 0 l.toNat 24 0 a.toNat d.toNat) rfl rfl (by decide) ?_ ?_ ?_
  · exact wordRR_lt _ _ _ _ _ _ (by omega) (by omega) (by omega) (by omega) (by omega) (by omega)
  · exact wordRR_len _ _ _ _ _ _ (by decide)
  · simp (disch := omega) [decodeWord, decodeIntrr, fld_eq, tyFld_eq, ofCode_code, ofCode_code_add, Nat.mod_eq_of_lt]

theorem ctz (l : La) (d : Reg) (a : Reg) : Statement (.ctz l d a) := by
  refine roundtrip_of _ 4 (wordRR 0 l.toNat 25 0 a.toNat d.toNat) rfl rfl (by decide) ?_ ?_ ?_
  · exact wordRR_lt _ _ _ _ _ _ (by omega) (by omega) (by omega) (by omega) (by omega) (by omega)
  · exact wordRR_len _ _ _ _ _ _ (by decide)
  · simp (disch := omega) [decodeWord, decodeIntrr, fld_eq, tyFld_eq, ofCode_code, ofCode_code_add, Nat.mod_eq_of_lt]

theorem popc (l : La) (d : Reg) (a : Reg) : Statement (.popc l d a) := by
  refine roundtrip_of _ 4 (wordRR 0 l.toNat 26 0 a.toNat d.toNat) rfl rfl (by decide) ?_ ?_ ?_
  · exact wordRR_lt _ _ _ _ _ _ (by omega) (by omega) (by omega) (by omega) (by omega) (by omega)
  · exact wordRR_len _ _ _ _ _ _ (by decide)
  · simp (disch := omega) [decodeWord, decodeIntrr, fld_eq, tyFld_eq, ofCode_code, ofCode_code_add, Nat.mod_eq_of_lt]

theorem sext (l : La) (d : Reg) (a : Reg) (w : BitVec 5) : Statement (.sext l d a w) := by
  refine roundtrip_of _ 4 (wordRR 0 l.toNat 27 w.toNat a.toNat d.toNat) rfl rfl (by decide) ?_ ?_ ?_
  · exact wordRR_lt _ _ _ _ _ _ (by omega) (by omega) (by omega) (by omega) (by omega) (by omega)
  · exact wordRR_len _ _ _ _ _ _ (by decide)
  · simp (disch := omega) [decodeWord, decodeIntrr, fld_eq, tyFld_eq, ofCode_code, ofCode_code_add, Nat.mod_eq_of_lt]

theorem zext (l : La) (d : Reg) (a : Reg) (w : BitVec 5) : Statement (.zext l d a w) := by
  refine roundtrip_of _ 4 (wordRR 0 l.toNat 28 w.toNat a.toNat d.toNat) rfl rfl (by decide) ?_ ?_ ?_
  · exact wordRR_lt _ _ _ _ _ _ (by omega) (by omega) (by omega) (by omega) (by omega) (by omega)
  · exact wordRR_len _ _ _ _ _ _ (by decide)
  · simp (disch := omega) [decodeWord, decodeIntrr, fld_eq, tyFld_eq, ofCode_code, ofCode_code_add, Nat.mod_eq_of_lt]

theorem bfx (l : La) (d : Reg) (a : Reg) (b : Reg) : Statement (.bfx l d a b) := by
  refine roundtrip_of _ 4 (wordRR 0 l.toNat 29 b.toNat a.toNat d.toNat) rfl rfl (by decide) ?_ ?_ ?_
  · exact wordRR_lt _ _ _ _ _ _ (by omega) (by omega) (by omega) (by omega) (by omega) (by omega)
  · exact wordRR_len _ _ _ _ _ _ (by decide)
  · simp (disch := omega) [decodeWord, decodeIntrr, fld_eq, tyFld_eq, ofCode_code, ofCode_code_add, Nat.mod_eq_of_lt]

theorem bfi (l : La) (d : Reg) (a : Reg) (b : Reg) : Statement (.bfi l d a b) := by
  refine roundtrip_of _ 4 (wordRR 0 l.toNat 30 b.toNat a.toNat d.toNat) rfl rfl (by decide) ?_ ?_ ?_
  · exact wordRR_lt _ _ _ _ _ _ (by omega) (by omega) (by omega) (by omega) (by omega) (by omega)
  · exact wordRR_len _ _ _ _ _ _ (by decide)
  · simp (disch := omega) [decodeWord, decodeIntrr, fld_eq, tyFld_eq, ofCode_code, ofCode_code_add, Nat.mod_eq_of_lt]

theorem addsat (l : La) (d : Reg) (a : Reg) (b : Reg) : Statement (.addsat l d a b) := by
  refine roundtrip_of _ 4 (wordRR 0 l.toNat 31 b.toNat a.toNat d.toNat) rfl rfl (by decide) ?_ ?_ ?_
  · exact wordRR_lt _ _ _ _ _ _ (by omega) (by omega) (by omega) (by omega) (by omega) (by omega)
  · exact wordRR_len _ _ _ _ _ _ (by decide)
  · simp (disch := omega) [decodeWord, decodeIntrr, fld_eq, tyFld_eq, ofCode_code, ofCode_code_add, Nat.mod_eq_of_lt]

theorem addi (d : Reg) (a : Reg) (i : BitVec 12) : Statement (.addi d a i) := by
  refine roundtrip_of _ 4 (wordRI 1 i.toNat 0 a.toNat d.toNat) rfl rfl (by decide) ?_ ?_ ?_
  · exact wordRI_lt _ _ _ _ _ (by omega) (by omega) (by omega) (by omega) (by omega)
  · exact wordRI_len _ _ _ _ _ (by decide)
  · simp (disch := omega) [decodeWord, decodeIntri, fld_eq, tyFld_eq, ofCode_code, ofCode_code_add, Nat.mod_eq_of_lt]

theorem andi (d : Reg) (a : Reg) (i : BitVec 12) : Statement (.andi d a i) := by
  refine roundtrip_of _ 4 (wordRI 1 i.toNat 1 a.toNat d.toNat) rfl rfl (by decide) ?_ ?_ ?_
  · exact wordRI_lt _ _ _ _ _ (by omega) (by omega) (by omega) (by omega) (by omega)
  · exact wordRI_len _ _ _ _ _ (by decide)
  · simp (disch := omega) [decodeWord, decodeIntri, fld_eq, tyFld_eq, ofCode_code, ofCode_code_add, Nat.mod_eq_of_lt]

theorem ori (d : Reg) (a : Reg) (i : BitVec 12) : Statement (.ori d a i) := by
  refine roundtrip_of _ 4 (wordRI 1 i.toNat 2 a.toNat d.toNat) rfl rfl (by decide) ?_ ?_ ?_
  · exact wordRI_lt _ _ _ _ _ (by omega) (by omega) (by omega) (by omega) (by omega)
  · exact wordRI_len _ _ _ _ _ (by decide)
  · simp (disch := omega) [decodeWord, decodeIntri, fld_eq, tyFld_eq, ofCode_code, ofCode_code_add, Nat.mod_eq_of_lt]

theorem xori (d : Reg) (a : Reg) (i : BitVec 12) : Statement (.xori d a i) := by
  refine roundtrip_of _ 4 (wordRI 1 i.toNat 3 a.toNat d.toNat) rfl rfl (by decide) ?_ ?_ ?_
  · exact wordRI_lt _ _ _ _ _ (by omega) (by omega) (by omega) (by omega) (by omega)
  · exact wordRI_len _ _ _ _ _ (by decide)
  · simp (disch := omega) [decodeWord, decodeIntri, fld_eq, tyFld_eq, ofCode_code, ofCode_code_add, Nat.mod_eq_of_lt]

theorem slti (d : Reg) (a : Reg) (i : BitVec 12) : Statement (.slti d a i) := by
  refine roundtrip_of _ 4 (wordRI 1 i.toNat 4 a.toNat d.toNat) rfl rfl (by decide) ?_ ?_ ?_
  · exact wordRI_lt _ _ _ _ _ (by omega) (by omega) (by omega) (by omega) (by omega)
  · exact wordRI_len _ _ _ _ _ (by decide)
  · simp (disch := omega) [decodeWord, decodeIntri, fld_eq, tyFld_eq, ofCode_code, ofCode_code_add, Nat.mod_eq_of_lt]

theorem sltiu (d : Reg) (a : Reg) (i : BitVec 12) : Statement (.sltiu d a i) := by
  refine roundtrip_of _ 4 (wordRI 1 i.toNat 5 a.toNat d.toNat) rfl rfl (by decide) ?_ ?_ ?_
  · exact wordRI_lt _ _ _ _ _ (by omega) (by omega) (by omega) (by omega) (by omega)
  · exact wordRI_len _ _ _ _ _ (by decide)
  · simp (disch := omega) [decodeWord, decodeIntri, fld_eq, tyFld_eq, ofCode_code, ofCode_code_add, Nat.mod_eq_of_lt]

theorem shifti (k : BitVec 2) (d : Reg) (a : Reg) (n : BitVec 6) : Statement (.shifti k d a n) := by
  refine roundtrip_of _ 4 (wordRI 1 (k.toNat * 64 + n.toNat) 6 a.toNat d.toNat) rfl rfl (by decide) ?_ ?_ ?_
  · exact wordRI_lt _ _ _ _ _ (by omega) (by omega) (by omega) (by omega) (by omega)
  · exact wordRI_len _ _ _ _ _ (by decide)
  · simp (disch := omega) [decodeWord, decodeIntri, fld_eq, tyFld_eq, ofCode_code, ofCode_code_add, Nat.mod_eq_of_lt]
    exact ⟨by omega, BitVec.eq_of_toNat_eq (by simp; omega)⟩

theorem muli (d : Reg) (a : Reg) (i : BitVec 12) : Statement (.muli d a i) := by
  refine roundtrip_of _ 4 (wordRI 1 i.toNat 7 a.toNat d.toNat) rfl rfl (by decide) ?_ ?_ ?_
  · exact wordRI_lt _ _ _ _ _ (by omega) (by omega) (by omega) (by omega) (by omega)
  · exact wordRI_len _ _ _ _ _ (by decide)
  · simp (disch := omega) [decodeWord, decodeIntri, fld_eq, tyFld_eq, ofCode_code, ofCode_code_add, Nat.mod_eq_of_lt]

theorem lui (d : Reg) (i : BitVec 20) : Statement (.lui d i) := by
  refine roundtrip_of _ 4 (wordU 2 i.toNat d.toNat) rfl rfl (by decide) ?_ ?_ ?_
  · exact wordU_lt _ _ _ (by omega) (by omega) (by omega)
  · exact wordU_len _ _ _ (by decide)
  · simp (disch := omega) [decodeWord, fld_eq, tyFld_eq, ofCode_code, ofCode_code_add, Nat.mod_eq_of_lt]

theorem auipc (d : Reg) (i : BitVec 20) : Statement (.auipc d i) := by
  refine roundtrip_of _ 4 (wordU 3 i.toNat d.toNat) rfl rfl (by decide) ?_ ?_ ?_
  · exact wordU_lt _ _ _ (by omega) (by omega) (by omega)
  · exact wordU_len _ _ _ (by decide)
  · simp (disch := omega) [decodeWord, fld_eq, tyFld_eq, ofCode_code, ofCode_code_add, Nat.mod_eq_of_lt]

theorem ldB (l : La) (d : Reg) (a : Reg) (p : BitVec 8) : Statement (.ldB l d a p) := by
  refine roundtrip_of _ 4 (wordM 4 l.toNat p.toNat 0 a.toNat d.toNat) rfl rfl (by decide) ?_ ?_ ?_
  · exact wordM_lt _ _ _ _ _ _ (by omega) (by omega) (by omega) (by omega) (by omega) (by omega)
  · exact wordM_len _ _ _ _ _ _ (by decide)
  · simp (disch := omega) [decodeWord, decodeLoads, fld_eq, tyFld_eq, ofCode_code, ofCode_code_add, Nat.mod_eq_of_lt]

theorem ldBu (l : La) (d : Reg) (a : Reg) (p : BitVec 8) : Statement (.ldBu l d a p) := by
  refine roundtrip_of _ 4 (wordM 4 l.toNat p.toNat 4 a.toNat d.toNat) rfl rfl (by decide) ?_ ?_ ?_
  · exact wordM_lt _ _ _ _ _ _ (by omega) (by omega) (by omega) (by omega) (by omega) (by omega)
  · exact wordM_len _ _ _ _ _ _ (by decide)
  · simp (disch := omega) [decodeWord, decodeLoads, fld_eq, tyFld_eq, ofCode_code, ofCode_code_add, Nat.mod_eq_of_lt]

theorem ldH (l : La) (d : Reg) (a : Reg) (p : BitVec 8) : Statement (.ldH l d a p) := by
  refine roundtrip_of _ 4 (wordM 4 l.toNat p.toNat 1 a.toNat d.toNat) rfl rfl (by decide) ?_ ?_ ?_
  · exact wordM_lt _ _ _ _ _ _ (by omega) (by omega) (by omega) (by omega) (by omega) (by omega)
  · exact wordM_len _ _ _ _ _ _ (by decide)
  · simp (disch := omega) [decodeWord, decodeLoads, fld_eq, tyFld_eq, ofCode_code, ofCode_code_add, Nat.mod_eq_of_lt]

theorem ldHu (l : La) (d : Reg) (a : Reg) (p : BitVec 8) : Statement (.ldHu l d a p) := by
  refine roundtrip_of _ 4 (wordM 4 l.toNat p.toNat 5 a.toNat d.toNat) rfl rfl (by decide) ?_ ?_ ?_
  · exact wordM_lt _ _ _ _ _ _ (by omega) (by omega) (by omega) (by omega) (by omega) (by omega)
  · exact wordM_len _ _ _ _ _ _ (by decide)
  · simp (disch := omega) [decodeWord, decodeLoads, fld_eq, tyFld_eq, ofCode_code, ofCode_code_add, Nat.mod_eq_of_lt]

theorem ldW (l : La) (d : Reg) (a : Reg) (p : BitVec 8) : Statement (.ldW l d a p) := by
  refine roundtrip_of _ 4 (wordM 4 l.toNat p.toNat 2 a.toNat d.toNat) rfl rfl (by decide) ?_ ?_ ?_
  · exact wordM_lt _ _ _ _ _ _ (by omega) (by omega) (by omega) (by omega) (by omega) (by omega)
  · exact wordM_len _ _ _ _ _ _ (by decide)
  · simp (disch := omega) [decodeWord, decodeLoads, fld_eq, tyFld_eq, ofCode_code, ofCode_code_add, Nat.mod_eq_of_lt]

theorem ldWu (l : La) (d : Reg) (a : Reg) (p : BitVec 8) : Statement (.ldWu l d a p) := by
  refine roundtrip_of _ 4 (wordM 4 l.toNat p.toNat 6 a.toNat d.toNat) rfl rfl (by decide) ?_ ?_ ?_
  · exact wordM_lt _ _ _ _ _ _ (by omega) (by omega) (by omega) (by omega) (by omega) (by omega)
  · exact wordM_len _ _ _ _ _ _ (by decide)
  · simp (disch := omega) [decodeWord, decodeLoads, fld_eq, tyFld_eq, ofCode_code, ofCode_code_add, Nat.mod_eq_of_lt]

theorem ldD (l : La) (d : Reg) (a : Reg) (p : BitVec 8) : Statement (.ldD l d a p) := by
  refine roundtrip_of _ 4 (wordM 4 l.toNat p.toNat 3 a.toNat d.toNat) rfl rfl (by decide) ?_ ?_ ?_
  · exact wordM_lt _ _ _ _ _ _ (by omega) (by omega) (by omega) (by omega) (by omega) (by omega)
  · exact wordM_len _ _ _ _ _ _ (by decide)
  · simp (disch := omega) [decodeWord, decodeLoads, fld_eq, tyFld_eq, ofCode_code, ofCode_code_add, Nat.mod_eq_of_lt]

theorem stB (a : Reg) (s : Reg) (p : BitVec 8) : Statement (.stB a s p) := by
  refine roundtrip_of _ 4 (wordM 5 0 p.toNat 0 a.toNat s.toNat) rfl rfl (by decide) ?_ ?_ ?_
  · exact wordM_lt _ _ _ _ _ _ (by omega) (by omega) (by omega) (by omega) (by omega) (by omega)
  · exact wordM_len _ _ _ _ _ _ (by decide)
  · simp (disch := omega) [decodeWord, decodeStores, fld_eq, tyFld_eq, ofCode_code, ofCode_code_add, Nat.mod_eq_of_lt]

theorem stH (a : Reg) (s : Reg) (p : BitVec 8) : Statement (.stH a s p) := by
  refine roundtrip_of _ 4 (wordM 5 0 p.toNat 1 a.toNat s.toNat) rfl rfl (by decide) ?_ ?_ ?_
  · exact wordM_lt _ _ _ _ _ _ (by omega) (by omega) (by omega) (by omega) (by omega) (by omega)
  · exact wordM_len _ _ _ _ _ _ (by decide)
  · simp (disch := omega) [decodeWord, decodeStores, fld_eq, tyFld_eq, ofCode_code, ofCode_code_add, Nat.mod_eq_of_lt]

theorem stW (a : Reg) (s : Reg) (p : BitVec 8) : Statement (.stW a s p) := by
  refine roundtrip_of _ 4 (wordM 5 0 p.toNat 2 a.toNat s.toNat) rfl rfl (by decide) ?_ ?_ ?_
  · exact wordM_lt _ _ _ _ _ _ (by omega) (by omega) (by omega) (by omega) (by omega) (by omega)
  · exact wordM_len _ _ _ _ _ _ (by decide)
  · simp (disch := omega) [decodeWord, decodeStores, fld_eq, tyFld_eq, ofCode_code, ofCode_code_add, Nat.mod_eq_of_lt]

theorem stD (a : Reg) (s : Reg) (p : BitVec 8) : Statement (.stD a s p) := by
  refine roundtrip_of _ 4 (wordM 5 0 p.toNat 3 a.toNat s.toNat) rfl rfl (by decide) ?_ ?_ ?_
  · exact wordM_lt _ _ _ _ _ _ (by omega) (by omega) (by omega) (by omega) (by omega) (by omega)
  · exact wordM_len _ _ _ _ _ _ (by decide)
  · simp (disch := omega) [decodeWord, decodeStores, fld_eq, tyFld_eq, ofCode_code, ofCode_code_add, Nat.mod_eq_of_lt]

theorem beq (a : Reg) (b : Reg) (p : BitVec 12) : Statement (.beq a b p) := by
  refine roundtrip_of _ 4 (wordRI 6 p.toNat 0 a.toNat b.toNat) rfl rfl (by decide) ?_ ?_ ?_
  · exact wordRI_lt _ _ _ _ _ (by omega) (by omega) (by omega) (by omega) (by omega)
  · exact wordRI_len _ _ _ _ _ (by decide)
  · simp (disch := omega) [decodeWord, decodeBranches, fld_eq, tyFld_eq, ofCode_code, ofCode_code_add, Nat.mod_eq_of_lt]

theorem bne (a : Reg) (b : Reg) (p : BitVec 12) : Statement (.bne a b p) := by
  refine roundtrip_of _ 4 (wordRI 6 p.toNat 1 a.toNat b.toNat) rfl rfl (by decide) ?_ ?_ ?_
  · exact wordRI_lt _ _ _ _ _ (by omega) (by omega) (by omega) (by omega) (by omega)
  · exact wordRI_len _ _ _ _ _ (by decide)
  · simp (disch := omega) [decodeWord, decodeBranches, fld_eq, tyFld_eq, ofCode_code, ofCode_code_add, Nat.mod_eq_of_lt]

theorem blt (a : Reg) (b : Reg) (p : BitVec 12) : Statement (.blt a b p) := by
  refine roundtrip_of _ 4 (wordRI 6 p.toNat 2 a.toNat b.toNat) rfl rfl (by decide) ?_ ?_ ?_
  · exact wordRI_lt _ _ _ _ _ (by omega) (by omega) (by omega) (by omega) (by omega)
  · exact wordRI_len _ _ _ _ _ (by decide)
  · simp (disch := omega) [decodeWord, decodeBranches, fld_eq, tyFld_eq, ofCode_code, ofCode_code_add, Nat.mod_eq_of_lt]

theorem bge (a : Reg) (b : Reg) (p : BitVec 12) : Statement (.bge a b p) := by
  refine roundtrip_of _ 4 (wordRI 6 p.toNat 3 a.toNat b.toNat) rfl rfl (by decide) ?_ ?_ ?_
  · exact wordRI_lt _ _ _ _ _ (by omega) (by omega) (by omega) (by omega) (by omega)
  · exact wordRI_len _ _ _ _ _ (by decide)
  · simp (disch := omega) [decodeWord, decodeBranches, fld_eq, tyFld_eq, ofCode_code, ofCode_code_add, Nat.mod_eq_of_lt]

theorem bltu (a : Reg) (b : Reg) (p : BitVec 12) : Statement (.bltu a b p) := by
  refine roundtrip_of _ 4 (wordRI 6 p.toNat 4 a.toNat b.toNat) rfl rfl (by decide) ?_ ?_ ?_
  · exact wordRI_lt _ _ _ _ _ (by omega) (by omega) (by omega) (by omega) (by omega)
  · exact wordRI_len _ _ _ _ _ (by decide)
  · simp (disch := omega) [decodeWord, decodeBranches, fld_eq, tyFld_eq, ofCode_code, ofCode_code_add, Nat.mod_eq_of_lt]

theorem bgeu (a : Reg) (b : Reg) (p : BitVec 12) : Statement (.bgeu a b p) := by
  refine roundtrip_of _ 4 (wordRI 6 p.toNat 5 a.toNat b.toNat) rfl rfl (by decide) ?_ ?_ ?_
  · exact wordRI_lt _ _ _ _ _ (by omega) (by omega) (by omega) (by omega) (by omega)
  · exact wordRI_len _ _ _ _ _ (by decide)
  · simp (disch := omega) [decodeWord, decodeBranches, fld_eq, tyFld_eq, ofCode_code, ofCode_code_add, Nat.mod_eq_of_lt]

theorem bkany (k : KReg) (p : BitVec 12) : Statement (.bkany k p) := by
  refine roundtrip_of _ 4 (wordRI 6 p.toNat 6 k.toNat 0) rfl rfl (by decide) ?_ ?_ ?_
  · exact wordRI_lt _ _ _ _ _ (by omega) (by omega) (by omega) (by omega) (by omega)
  · exact wordRI_len _ _ _ _ _ (by decide)
  · simp (disch := omega) [decodeWord, decodeBranches, fld_eq, tyFld_eq, ofCode_code, ofCode_code_add, Nat.mod_eq_of_lt]
    omega

theorem bknone (k : KReg) (p : BitVec 12) : Statement (.bknone k p) := by
  refine roundtrip_of _ 4 (wordRI 6 p.toNat 7 k.toNat 0) rfl rfl (by decide) ?_ ?_ ?_
  · exact wordRI_lt _ _ _ _ _ (by omega) (by omega) (by omega) (by omega) (by omega)
  · exact wordRI_len _ _ _ _ _ (by decide)
  · simp (disch := omega) [decodeWord, decodeBranches, fld_eq, tyFld_eq, ofCode_code, ofCode_code_add, Nat.mod_eq_of_lt]
    omega

theorem jl (d : Reg) (i : BitVec 20) : Statement (.jl d i) := by
  refine roundtrip_of _ 4 (wordU 7 i.toNat d.toNat) rfl rfl (by decide) ?_ ?_ ?_
  · exact wordU_lt _ _ _ (by omega) (by omega) (by omega)
  · exact wordU_len _ _ _ (by decide)
  · simp (disch := omega) [decodeWord, fld_eq, tyFld_eq, ofCode_code, ofCode_code_add, Nat.mod_eq_of_lt]

theorem jlr (d : Reg) (a : Reg) : Statement (.jlr d a) := by
  refine roundtrip_of _ 4 (wordRR 8 0 0 0 a.toNat d.toNat) rfl rfl (by decide) ?_ ?_ ?_
  · exact wordRR_lt _ _ _ _ _ _ (by omega) (by omega) (by omega) (by omega) (by omega) (by omega)
  · exact wordRR_len _ _ _ _ _ _ (by decide)
  · simp (disch := omega) [decodeWord, decodeCtrl, fld_eq, tyFld_eq, ofCode_code, ofCode_code_add, Nat.mod_eq_of_lt]

theorem follow (d : Reg) (a : Reg) : Statement (.follow d a) := by
  refine roundtrip_of _ 4 (wordRR 8 0 1 0 a.toNat d.toNat) rfl rfl (by decide) ?_ ?_ ?_
  · exact wordRR_lt _ _ _ _ _ _ (by omega) (by omega) (by omega) (by omega) (by omega) (by omega)
  · exact wordRR_len _ _ _ _ _ _ (by decide)
  · simp (disch := omega) [decodeWord, decodeCtrl, fld_eq, tyFld_eq, ofCode_code, ofCode_code_add, Nat.mod_eq_of_lt]

theorem leave : Statement .leave := by
  refine roundtrip_of _ 4 (wordRR 8 0 2 0 0 0) rfl rfl (by decide) ?_ ?_ ?_
  · exact wordRR_lt _ _ _ _ _ _ (by omega) (by omega) (by omega) (by omega) (by omega) (by omega)
  · exact wordRR_len _ _ _ _ _ _ (by decide)
  · simp (disch := omega) [decodeWord, decodeCtrl, fld_eq, tyFld_eq, ofCode_code, ofCode_code_add, Nat.mod_eq_of_lt]

theorem rejoin (d : Reg) (p : BitVec 10) : Statement (.rejoin d p) := by
  refine roundtrip_of _ 4 (wordRR 8 0 3 (p.toNat / 32) (p.toNat % 32) d.toNat) rfl rfl (by decide) ?_ ?_ ?_
  · exact wordRR_lt _ _ _ _ _ _ (by omega) (by omega) (by omega) (by omega) (by omega) (by omega)
  · exact wordRR_len _ _ _ _ _ _ (by decide)
  · simp (disch := omega) [decodeWord, decodeCtrl, fld_eq, tyFld_eq, ofCode_code, ofCode_code_add, Nat.mod_eq_of_lt]
    exact BitVec.eq_of_toNat_eq (by simp; omega)

theorem yield : Statement .yield := by
  refine roundtrip_of _ 4 (wordRR 8 0 4 0 0 0) rfl rfl (by decide) ?_ ?_ ?_
  · exact wordRR_lt _ _ _ _ _ _ (by omega) (by omega) (by omega) (by omega) (by omega) (by omega)
  · exact wordRR_len _ _ _ _ _ _ (by decide)
  · simp (disch := omega) [decodeWord, decodeCtrl, fld_eq, tyFld_eq, ofCode_code, ofCode_code_add, Nat.mod_eq_of_lt]

theorem nop : Statement .nop := by
  refine roundtrip_of _ 4 (wordRR 8 0 5 0 0 0) rfl rfl (by decide) ?_ ?_ ?_
  · exact wordRR_lt _ _ _ _ _ _ (by omega) (by omega) (by omega) (by omega) (by omega) (by omega)
  · exact wordRR_len _ _ _ _ _ _ (by decide)
  · simp (disch := omega) [decodeWord, decodeCtrl, fld_eq, tyFld_eq, ofCode_code, ofCode_code_add, Nat.mod_eq_of_lt]

theorem hint : Statement .hint := by
  refine roundtrip_of _ 4 (wordRR 8 0 6 0 0 0) rfl rfl (by decide) ?_ ?_ ?_
  · exact wordRR_lt _ _ _ _ _ _ (by omega) (by omega) (by omega) (by omega) (by omega) (by omega)
  · exact wordRR_len _ _ _ _ _ _ (by decide)
  · simp (disch := omega) [decodeWord, decodeCtrl, fld_eq, tyFld_eq, ofCode_code, ofCode_code_add, Nat.mod_eq_of_lt]

theorem amoAdd (l : La) (d : Reg) (a : Reg) (b : Reg) : Statement (.amoAdd l d a b) := by
  refine roundtrip_of _ 4 (wordRR 9 l.toNat 0 b.toNat a.toNat d.toNat) rfl rfl (by decide) ?_ ?_ ?_
  · exact wordRR_lt _ _ _ _ _ _ (by omega) (by omega) (by omega) (by omega) (by omega) (by omega)
  · exact wordRR_len _ _ _ _ _ _ (by decide)
  · simp (disch := omega) [decodeWord, decodeAtom, fld_eq, tyFld_eq, ofCode_code, ofCode_code_add, Nat.mod_eq_of_lt]

theorem amoAnd (l : La) (d : Reg) (a : Reg) (b : Reg) : Statement (.amoAnd l d a b) := by
  refine roundtrip_of _ 4 (wordRR 9 l.toNat 1 b.toNat a.toNat d.toNat) rfl rfl (by decide) ?_ ?_ ?_
  · exact wordRR_lt _ _ _ _ _ _ (by omega) (by omega) (by omega) (by omega) (by omega) (by omega)
  · exact wordRR_len _ _ _ _ _ _ (by decide)
  · simp (disch := omega) [decodeWord, decodeAtom, fld_eq, tyFld_eq, ofCode_code, ofCode_code_add, Nat.mod_eq_of_lt]

theorem amoOr (l : La) (d : Reg) (a : Reg) (b : Reg) : Statement (.amoOr l d a b) := by
  refine roundtrip_of _ 4 (wordRR 9 l.toNat 2 b.toNat a.toNat d.toNat) rfl rfl (by decide) ?_ ?_ ?_
  · exact wordRR_lt _ _ _ _ _ _ (by omega) (by omega) (by omega) (by omega) (by omega) (by omega)
  · exact wordRR_len _ _ _ _ _ _ (by decide)
  · simp (disch := omega) [decodeWord, decodeAtom, fld_eq, tyFld_eq, ofCode_code, ofCode_code_add, Nat.mod_eq_of_lt]

theorem amoXor (l : La) (d : Reg) (a : Reg) (b : Reg) : Statement (.amoXor l d a b) := by
  refine roundtrip_of _ 4 (wordRR 9 l.toNat 3 b.toNat a.toNat d.toNat) rfl rfl (by decide) ?_ ?_ ?_
  · exact wordRR_lt _ _ _ _ _ _ (by omega) (by omega) (by omega) (by omega) (by omega) (by omega)
  · exact wordRR_len _ _ _ _ _ _ (by decide)
  · simp (disch := omega) [decodeWord, decodeAtom, fld_eq, tyFld_eq, ofCode_code, ofCode_code_add, Nat.mod_eq_of_lt]

theorem amoMin (l : La) (d : Reg) (a : Reg) (b : Reg) : Statement (.amoMin l d a b) := by
  refine roundtrip_of _ 4 (wordRR 9 l.toNat 4 b.toNat a.toNat d.toNat) rfl rfl (by decide) ?_ ?_ ?_
  · exact wordRR_lt _ _ _ _ _ _ (by omega) (by omega) (by omega) (by omega) (by omega) (by omega)
  · exact wordRR_len _ _ _ _ _ _ (by decide)
  · simp (disch := omega) [decodeWord, decodeAtom, fld_eq, tyFld_eq, ofCode_code, ofCode_code_add, Nat.mod_eq_of_lt]

theorem amoMax (l : La) (d : Reg) (a : Reg) (b : Reg) : Statement (.amoMax l d a b) := by
  refine roundtrip_of _ 4 (wordRR 9 l.toNat 5 b.toNat a.toNat d.toNat) rfl rfl (by decide) ?_ ?_ ?_
  · exact wordRR_lt _ _ _ _ _ _ (by omega) (by omega) (by omega) (by omega) (by omega) (by omega)
  · exact wordRR_len _ _ _ _ _ _ (by decide)
  · simp (disch := omega) [decodeWord, decodeAtom, fld_eq, tyFld_eq, ofCode_code, ofCode_code_add, Nat.mod_eq_of_lt]

theorem amoMinu (l : La) (d : Reg) (a : Reg) (b : Reg) : Statement (.amoMinu l d a b) := by
  refine roundtrip_of _ 4 (wordRR 9 l.toNat 6 b.toNat a.toNat d.toNat) rfl rfl (by decide) ?_ ?_ ?_
  · exact wordRR_lt _ _ _ _ _ _ (by omega) (by omega) (by omega) (by omega) (by omega) (by omega)
  · exact wordRR_len _ _ _ _ _ _ (by decide)
  · simp (disch := omega) [decodeWord, decodeAtom, fld_eq, tyFld_eq, ofCode_code, ofCode_code_add, Nat.mod_eq_of_lt]

theorem amoMaxu (l : La) (d : Reg) (a : Reg) (b : Reg) : Statement (.amoMaxu l d a b) := by
  refine roundtrip_of _ 4 (wordRR 9 l.toNat 7 b.toNat a.toNat d.toNat) rfl rfl (by decide) ?_ ?_ ?_
  · exact wordRR_lt _ _ _ _ _ _ (by omega) (by omega) (by omega) (by omega) (by omega) (by omega)
  · exact wordRR_len _ _ _ _ _ _ (by decide)
  · simp (disch := omega) [decodeWord, decodeAtom, fld_eq, tyFld_eq, ofCode_code, ofCode_code_add, Nat.mod_eq_of_lt]

theorem amoSwap (l : La) (d : Reg) (a : Reg) (b : Reg) : Statement (.amoSwap l d a b) := by
  refine roundtrip_of _ 4 (wordRR 9 l.toNat 8 b.toNat a.toNat d.toNat) rfl rfl (by decide) ?_ ?_ ?_
  · exact wordRR_lt _ _ _ _ _ _ (by omega) (by omega) (by omega) (by omega) (by omega) (by omega)
  · exact wordRR_len _ _ _ _ _ _ (by decide)
  · simp (disch := omega) [decodeWord, decodeAtom, fld_eq, tyFld_eq, ofCode_code, ofCode_code_add, Nat.mod_eq_of_lt]

theorem amoCas (l : La) (d : Reg) (a : Reg) (b : Reg) : Statement (.amoCas l d a b) := by
  refine roundtrip_of _ 4 (wordRR 9 l.toNat 9 b.toNat a.toNat d.toNat) rfl rfl (by decide) ?_ ?_ ?_
  · exact wordRR_lt _ _ _ _ _ _ (by omega) (by omega) (by omega) (by omega) (by omega) (by omega)
  · exact wordRR_len _ _ _ _ _ _ (by decide)
  · simp (disch := omega) [decodeWord, decodeAtom, fld_eq, tyFld_eq, ofCode_code, ofCode_code_add, Nat.mod_eq_of_lt]

theorem amoAddn (l : La) (d : Reg) (a : Reg) (b : Reg) : Statement (.amoAddn l d a b) := by
  refine roundtrip_of _ 4 (wordRR 9 l.toNat 10 b.toNat a.toNat d.toNat) rfl rfl (by decide) ?_ ?_ ?_
  · exact wordRR_lt _ _ _ _ _ _ (by omega) (by omega) (by omega) (by omega) (by omega) (by omega)
  · exact wordRR_len _ _ _ _ _ _ (by decide)
  · simp (disch := omega) [decodeWord, decodeAtom, fld_eq, tyFld_eq, ofCode_code, ofCode_code_add, Nat.mod_eq_of_lt]

theorem ldAcq (l : La) (d : Reg) (a : Reg) : Statement (.ldAcq l d a) := by
  refine roundtrip_of _ 4 (wordRR 9 l.toNat 11 0 a.toNat d.toNat) rfl rfl (by decide) ?_ ?_ ?_
  · exact wordRR_lt _ _ _ _ _ _ (by omega) (by omega) (by omega) (by omega) (by omega) (by omega)
  · exact wordRR_len _ _ _ _ _ _ (by decide)
  · simp (disch := omega) [decodeWord, decodeAtom, fld_eq, tyFld_eq, ofCode_code, ofCode_code_add, Nat.mod_eq_of_lt]

theorem stRel (a : Reg) (b : Reg) : Statement (.stRel a b) := by
  refine roundtrip_of _ 4 (wordRR 9 0 12 b.toNat a.toNat 0) rfl rfl (by decide) ?_ ?_ ?_
  · exact wordRR_lt _ _ _ _ _ _ (by omega) (by omega) (by omega) (by omega) (by omega) (by omega)
  · exact wordRR_len _ _ _ _ _ _ (by decide)
  · simp (disch := omega) [decodeWord, decodeAtom, fld_eq, tyFld_eq, ofCode_code, ofCode_code_add, Nat.mod_eq_of_lt]

theorem ldSc (l : La) (d : Reg) (a : Reg) : Statement (.ldSc l d a) := by
  refine roundtrip_of _ 4 (wordRR 9 l.toNat 13 0 a.toNat d.toNat) rfl rfl (by decide) ?_ ?_ ?_
  · exact wordRR_lt _ _ _ _ _ _ (by omega) (by omega) (by omega) (by omega) (by omega) (by omega)
  · exact wordRR_len _ _ _ _ _ _ (by decide)
  · simp (disch := omega) [decodeWord, decodeAtom, fld_eq, tyFld_eq, ofCode_code, ofCode_code_add, Nat.mod_eq_of_lt]

theorem stSc (a : Reg) (b : Reg) : Statement (.stSc a b) := by
  refine roundtrip_of _ 4 (wordRR 9 0 14 b.toNat a.toNat 0) rfl rfl (by decide) ?_ ?_ ?_
  · exact wordRR_lt _ _ _ _ _ _ (by omega) (by omega) (by omega) (by omega) (by omega) (by omega)
  · exact wordRR_len _ _ _ _ _ _ (by decide)
  · simp (disch := omega) [decodeWord, decodeAtom, fld_eq, tyFld_eq, ofCode_code, ofCode_code_add, Nat.mod_eq_of_lt]

theorem fence (s : Reg) : Statement (.fence s) := by
  refine roundtrip_of _ 4 (wordRR 9 0 15 s.toNat 0 0) rfl rfl (by decide) ?_ ?_ ?_
  · exact wordRR_lt _ _ _ _ _ _ (by omega) (by omega) (by omega) (by omega) (by omega) (by omega)
  · exact wordRR_len _ _ _ _ _ _ (by decide)
  · simp (disch := omega) [decodeWord, decodeAtom, fld_eq, tyFld_eq, ofCode_code, ofCode_code_add, Nat.mod_eq_of_lt]

theorem fenceSc : Statement .fenceSc := by
  refine roundtrip_of _ 4 (wordRR 9 0 16 0 0 0) rfl rfl (by decide) ?_ ?_ ?_
  · exact wordRR_lt _ _ _ _ _ _ (by omega) (by omega) (by omega) (by omega) (by omega) (by omega)
  · exact wordRR_len _ _ _ _ _ _ (by decide)
  · simp (disch := omega) [decodeWord, decodeAtom, fld_eq, tyFld_eq, ofCode_code, ofCode_code_add, Nat.mod_eq_of_lt]

theorem csrr (d : Reg) (c : BitVec 12) : Statement (.csrr d c) := by
  refine roundtrip_of _ 4 (wordRI 10 c.toNat 0 0 d.toNat) rfl rfl (by decide) ?_ ?_ ?_
  · exact wordRI_lt _ _ _ _ _ (by omega) (by omega) (by omega) (by omega) (by omega)
  · exact wordRI_len _ _ _ _ _ (by decide)
  · simp (disch := omega) [decodeWord, decodeSys, fld_eq, tyFld_eq, ofCode_code, ofCode_code_add, Nat.mod_eq_of_lt]

theorem csrw (d : Reg) (a : Reg) (c : BitVec 12) : Statement (.csrw d a c) := by
  refine roundtrip_of _ 4 (wordRI 10 c.toNat 1 a.toNat d.toNat) rfl rfl (by decide) ?_ ?_ ?_
  · exact wordRI_lt _ _ _ _ _ (by omega) (by omega) (by omega) (by omega) (by omega)
  · exact wordRI_len _ _ _ _ _ (by decide)
  · simp (disch := omega) [decodeWord, decodeSys, fld_eq, tyFld_eq, ofCode_code, ofCode_code_add, Nat.mod_eq_of_lt]

theorem csrset (d : Reg) (a : Reg) (c : BitVec 12) : Statement (.csrset d a c) := by
  refine roundtrip_of _ 4 (wordRI 10 c.toNat 2 a.toNat d.toNat) rfl rfl (by decide) ?_ ?_ ?_
  · exact wordRI_lt _ _ _ _ _ (by omega) (by omega) (by omega) (by omega) (by omega)
  · exact wordRI_len _ _ _ _ _ (by decide)
  · simp (disch := omega) [decodeWord, decodeSys, fld_eq, tyFld_eq, ofCode_code, ofCode_code_add, Nat.mod_eq_of_lt]

theorem csrclr (d : Reg) (a : Reg) (c : BitVec 12) : Statement (.csrclr d a c) := by
  refine roundtrip_of _ 4 (wordRI 10 c.toNat 3 a.toNat d.toNat) rfl rfl (by decide) ?_ ?_ ?_
  · exact wordRI_lt _ _ _ _ _ (by omega) (by omega) (by omega) (by omega) (by omega)
  · exact wordRI_len _ _ _ _ _ (by decide)
  · simp (disch := omega) [decodeWord, decodeSys, fld_eq, tyFld_eq, ofCode_code, ofCode_code_add, Nat.mod_eq_of_lt]

theorem trap (a : Reg) : Statement (.trap a) := by
  refine roundtrip_of _ 4 (wordRI 10 4 4 a.toNat 0) rfl rfl (by decide) ?_ ?_ ?_
  · exact wordRI_lt _ _ _ _ _ (by omega) (by omega) (by omega) (by omega) (by omega)
  · exact wordRI_len _ _ _ _ _ (by decide)
  · simp (disch := omega) [decodeWord, decodeSys, fld_eq, tyFld_eq, ofCode_code, ofCode_code_add, Nat.mod_eq_of_lt]

theorem eret : Statement .eret := by
  refine roundtrip_of _ 4 (wordRI 10 5 4 0 0) rfl rfl (by decide) ?_ ?_ ?_
  · exact wordRI_lt _ _ _ _ _ (by omega) (by omega) (by omega) (by omega) (by omega)
  · exact wordRI_len _ _ _ _ _ (by decide)
  · simp (disch := omega) [decodeWord, decodeSys, fld_eq, tyFld_eq, ofCode_code, ofCode_code_add, Nat.mod_eq_of_lt]

theorem uiret : Statement .uiret := by
  refine roundtrip_of _ 4 (wordRI 10 6 4 0 0) rfl rfl (by decide) ?_ ?_ ?_
  · exact wordRI_lt _ _ _ _ _ (by omega) (by omega) (by omega) (by omega) (by omega)
  · exact wordRI_len _ _ _ _ _ (by decide)
  · simp (disch := omega) [decodeWord, decodeSys, fld_eq, tyFld_eq, ofCode_code, ofCode_code_add, Nat.mod_eq_of_lt]

theorem sreplyResume (a : Reg) : Statement (.sreplyResume a) := by
  refine roundtrip_of _ 4 (wordRI 10 7 4 a.toNat 0) rfl rfl (by decide) ?_ ?_ ?_
  · exact wordRI_lt _ _ _ _ _ (by omega) (by omega) (by omega) (by omega) (by omega)
  · exact wordRI_len _ _ _ _ _ (by decide)
  · simp (disch := omega) [decodeWord, decodeSys, fld_eq, tyFld_eq, ofCode_code, ofCode_code_add, Nat.mod_eq_of_lt]

theorem sreplySignal (a : Reg) : Statement (.sreplySignal a) := by
  refine roundtrip_of _ 4 (wordRI 10 23 4 a.toNat 0) rfl rfl (by decide) ?_ ?_ ?_
  · exact wordRI_lt _ _ _ _ _ (by omega) (by omega) (by omega) (by omega) (by omega)
  · exact wordRI_len _ _ _ _ _ (by decide)
  · simp (disch := omega) [decodeWord, decodeSys, fld_eq, tyFld_eq, ofCode_code, ofCode_code_add, Nat.mod_eq_of_lt]

theorem sreplyKill (a : Reg) : Statement (.sreplyKill a) := by
  refine roundtrip_of _ 4 (wordRI 10 39 4 a.toNat 0) rfl rfl (by decide) ?_ ?_ ?_
  · exact wordRI_lt _ _ _ _ _ (by omega) (by omega) (by omega) (by omega) (by omega)
  · exact wordRI_len _ _ _ _ _ (by decide)
  · simp (disch := omega) [decodeWord, decodeSys, fld_eq, tyFld_eq, ofCode_code, ofCode_code_add, Nat.mod_eq_of_lt]

theorem biasflipHost (a : Reg) : Statement (.biasflipHost a) := by
  refine roundtrip_of _ 4 (wordRI 10 24 4 a.toNat 0) rfl rfl (by decide) ?_ ?_ ?_
  · exact wordRI_lt _ _ _ _ _ (by omega) (by omega) (by omega) (by omega) (by omega)
  · exact wordRI_len _ _ _ _ _ (by decide)
  · simp (disch := omega) [decodeWord, decodeSys, fld_eq, tyFld_eq, ofCode_code, ofCode_code_add, Nat.mod_eq_of_lt]

theorem biasflipDevice (a : Reg) : Statement (.biasflipDevice a) := by
  refine roundtrip_of _ 4 (wordRI 10 8 4 a.toNat 0) rfl rfl (by decide) ?_ ?_ ?_
  · exact wordRI_lt _ _ _ _ _ (by omega) (by omega) (by omega) (by omega) (by omega)
  · exact wordRI_len _ _ _ _ _ (by decide)
  · simp (disch := omega) [decodeWord, decodeSys, fld_eq, tyFld_eq, ofCode_code, ofCode_code_add, Nat.mod_eq_of_lt]

theorem wfi : Statement .wfi := by
  refine roundtrip_of _ 4 (wordRI 10 9 4 0 0) rfl rfl (by decide) ?_ ?_ ?_
  · exact wordRI_lt _ _ _ _ _ (by omega) (by omega) (by omega) (by omega) (by omega)
  · exact wordRI_len _ _ _ _ _ (by decide)
  · simp (disch := omega) [decodeWord, decodeSys, fld_eq, tyFld_eq, ofCode_code, ofCode_code_add, Nat.mod_eq_of_lt]

theorem spawn (a : Reg) : Statement (.spawn a) := by
  refine roundtrip_of _ 4 (wordRR 11 0 0 0 a.toNat 0) rfl rfl (by decide) ?_ ?_ ?_
  · exact wordRR_lt _ _ _ _ _ _ (by omega) (by omega) (by omega) (by omega) (by omega) (by omega)
  · exact wordRR_len _ _ _ _ _ _ (by decide)
  · simp (disch := omega) [decodeWord, decodeTask, fld_eq, tyFld_eq, ofCode_code, ofCode_code_add, Nat.mod_eq_of_lt]

theorem sync : Statement .sync := by
  refine roundtrip_of _ 4 (wordRR 11 0 1 0 0 0) rfl rfl (by decide) ?_ ?_ ?_
  · exact wordRR_lt _ _ _ _ _ _ (by omega) (by omega) (by omega) (by omega) (by omega) (by omega)
  · exact wordRR_len _ _ _ _ _ _ (by decide)
  · simp (disch := omega) [decodeWord, decodeTask, fld_eq, tyFld_eq, ofCode_code, ofCode_code_add, Nat.mod_eq_of_lt]

theorem pubf (a : Reg) : Statement (.pubf a) := by
  refine roundtrip_of _ 4 (wordRR 11 0 2 0 a.toNat 0) rfl rfl (by decide) ?_ ?_ ?_
  · exact wordRR_lt _ _ _ _ _ _ (by omega) (by omega) (by omega) (by omega) (by omega) (by omega)
  · exact wordRR_len _ _ _ _ _ _ (by decide)
  · simp (disch := omega) [decodeWord, decodeTask, fld_eq, tyFld_eq, ofCode_code, ofCode_code_add, Nat.mod_eq_of_lt]

theorem taskend : Statement .taskend := by
  refine roundtrip_of _ 4 (wordRR 11 0 3 0 0 0) rfl rfl (by decide) ?_ ?_ ?_
  · exact wordRR_lt _ _ _ _ _ _ (by omega) (by omega) (by omega) (by omega) (by omega) (by omega)
  · exact wordRR_len _ _ _ _ _ _ (by decide)
  · simp (disch := omega) [decodeWord, decodeTask, fld_eq, tyFld_eq, ofCode_code, ofCode_code_add, Nat.mod_eq_of_lt]

theorem donate (d : Reg) (a : Reg) (b : Reg) : Statement (.donate d a b) := by
  refine roundtrip_of _ 4 (wordRR 11 0 4 b.toNat a.toNat d.toNat) rfl rfl (by decide) ?_ ?_ ?_
  · exact wordRR_lt _ _ _ _ _ _ (by omega) (by omega) (by omega) (by omega) (by omega) (by omega)
  · exact wordRR_len _ _ _ _ _ _ (by decide)
  · simp (disch := omega) [decodeWord, decodeTask, fld_eq, tyFld_eq, ofCode_code, ofCode_code_add, Nat.mod_eq_of_lt]

theorem jinit (a : Reg) (b : Reg) : Statement (.jinit a b) := by
  refine roundtrip_of _ 4 (wordRR 11 0 5 b.toNat a.toNat 0) rfl rfl (by decide) ?_ ?_ ?_
  · exact wordRR_lt _ _ _ _ _ _ (by omega) (by omega) (by omega) (by omega) (by omega) (by omega)
  · exact wordRR_len _ _ _ _ _ _ (by decide)
  · simp (disch := omega) [decodeWord, decodeTask, fld_eq, tyFld_eq, ofCode_code, ofCode_code_add, Nat.mod_eq_of_lt]

theorem jdec (d : Reg) (a : Reg) : Statement (.jdec d a) := by
  refine roundtrip_of _ 4 (wordRR 11 0 6 0 a.toNat d.toNat) rfl rfl (by decide) ?_ ?_ ?_
  · exact wordRR_lt _ _ _ _ _ _ (by omega) (by omega) (by omega) (by omega) (by omega) (by omega)
  · exact wordRR_len _ _ _ _ _ _ (by decide)
  · simp (disch := omega) [decodeWord, decodeTask, fld_eq, tyFld_eq, ofCode_code, ofCode_code_add, Nat.mod_eq_of_lt]

theorem send (a : Reg) (b : Reg) (v : Reg) : Statement (.send a b v) := by
  refine roundtrip_of _ 4 (wordRR 12 0 0 b.toNat a.toNat v.toNat) rfl rfl (by decide) ?_ ?_ ?_
  · exact wordRR_lt _ _ _ _ _ _ (by omega) (by omega) (by omega) (by omega) (by omega) (by omega)
  · exact wordRR_len _ _ _ _ _ _ (by decide)
  · simp (disch := omega) [decodeWord, decodeMsg, fld_eq, tyFld_eq, ofCode_code, ofCode_code_add, Nat.mod_eq_of_lt]

theorem sendm (a : Reg) (b : Reg) (v : Reg) : Statement (.sendm a b v) := by
  refine roundtrip_of _ 4 (wordRR 12 0 1 b.toNat a.toNat v.toNat) rfl rfl (by decide) ?_ ?_ ?_
  · exact wordRR_lt _ _ _ _ _ _ (by omega) (by omega) (by omega) (by omega) (by omega) (by omega)
  · exact wordRR_len _ _ _ _ _ _ (by decide)
  · simp (disch := omega) [decodeWord, decodeMsg, fld_eq, tyFld_eq, ofCode_code, ofCode_code_add, Nat.mod_eq_of_lt]

theorem hset (d : Reg) (a : Reg) (b : Reg) : Statement (.hset d a b) := by
  refine roundtrip_of _ 4 (wordRR 12 0 2 b.toNat a.toNat d.toNat) rfl rfl (by decide) ?_ ?_ ?_
  · exact wordRR_lt _ _ _ _ _ _ (by omega) (by omega) (by omega) (by omega) (by omega) (by omega)
  · exact wordRR_len _ _ _ _ _ _ (by decide)
  · simp (disch := omega) [decodeWord, decodeMsg, fld_eq, tyFld_eq, ofCode_code, ofCode_code_add, Nat.mod_eq_of_lt]

theorem hclr (a : Reg) : Statement (.hclr a) := by
  refine roundtrip_of _ 4 (wordRR 12 0 3 0 a.toNat 0) rfl rfl (by decide) ?_ ?_ ?_
  · exact wordRR_lt _ _ _ _ _ _ (by omega) (by omega) (by omega) (by omega) (by omega) (by omega)
  · exact wordRR_len _ _ _ _ _ _ (by decide)
  · simp (disch := omega) [decodeWord, decodeMsg, fld_eq, tyFld_eq, ofCode_code, ofCode_code_add, Nat.mod_eq_of_lt]

theorem hold (d : Reg) (a : Reg) : Statement (.hold d a) := by
  refine roundtrip_of _ 4 (wordRR 12 0 4 0 a.toNat d.toNat) rfl rfl (by decide) ?_ ?_ ?_
  · exact wordRR_lt _ _ _ _ _ _ (by omega) (by omega) (by omega) (by omega) (by omega) (by omega)
  · exact wordRR_len _ _ _ _ _ _ (by decide)
  · simp (disch := omega) [decodeWord, decodeMsg, fld_eq, tyFld_eq, ofCode_code, ofCode_code_add, Nat.mod_eq_of_lt]

theorem rels (d : Reg) (a : Reg) : Statement (.rels d a) := by
  refine roundtrip_of _ 4 (wordRR 12 0 5 0 a.toNat d.toNat) rfl rfl (by decide) ?_ ?_ ?_
  · exact wordRR_lt _ _ _ _ _ _ (by omega) (by omega) (by omega) (by omega) (by omega) (by omega)
  · exact wordRR_len _ _ _ _ _ _ (by decide)
  · simp (disch := omega) [decodeWord, decodeMsg, fld_eq, tyFld_eq, ofCode_code, ofCode_code_add, Nat.mod_eq_of_lt]

theorem hmask (d : Reg) (a : Reg) (b : Reg) : Statement (.hmask d a b) := by
  refine roundtrip_of _ 4 (wordRR 12 0 6 b.toNat a.toNat d.toNat) rfl rfl (by decide) ?_ ?_ ?_
  · exact wordRR_lt _ _ _ _ _ _ (by omega) (by omega) (by omega) (by omega) (by omega) (by omega)
  · exact wordRR_len _ _ _ _ _ _ (by decide)
  · simp (disch := omega) [decodeWord, decodeMsg, fld_eq, tyFld_eq, ofCode_code, ofCode_code_add, Nat.mod_eq_of_lt]

theorem hret : Statement .hret := by
  refine roundtrip_of _ 4 (wordRR 12 0 7 0 0 0) rfl rfl (by decide) ?_ ?_ ?_
  · exact wordRR_lt _ _ _ _ _ _ (by omega) (by omega) (by omega) (by omega) (by omega) (by omega)
  · exact wordRR_len _ _ _ _ _ _ (by decide)
  · simp (disch := omega) [decodeWord, decodeMsg, fld_eq, tyFld_eq, ofCode_code, ofCode_code_add, Nat.mod_eq_of_lt]

theorem mbxw (d : Reg) (a : Reg) (b : Reg) : Statement (.mbxw d a b) := by
  refine roundtrip_of _ 4 (wordRR 12 0 8 b.toNat a.toNat d.toNat) rfl rfl (by decide) ?_ ?_ ?_
  · exact wordRR_lt _ _ _ _ _ _ (by omega) (by omega) (by omega) (by omega) (by omega) (by omega)
  · exact wordRR_len _ _ _ _ _ _ (by decide)
  · simp (disch := omega) [decodeWord, decodeMsg, fld_eq, tyFld_eq, ofCode_code, ofCode_code_add, Nat.mod_eq_of_lt]

theorem bara (d : Reg) (n : BitVec 5) (m : BitVec 1) : Statement (.bara d n m) := by
  refine roundtrip_of _ 4 (wordRR 13 0 0 n.toNat m.toNat d.toNat) rfl rfl (by decide) ?_ ?_ ?_
  · exact wordRR_lt _ _ _ _ _ _ (by omega) (by omega) (by omega) (by omega) (by omega) (by omega)
  · exact wordRR_len _ _ _ _ _ _ (by decide)
  · simp (disch := omega) [decodeWord, decodeBar, fld_eq, tyFld_eq, ofCode_code, ofCode_code_add, Nat.mod_eq_of_lt]
    omega

theorem barw (d : Reg) (n : BitVec 5) (m : BitVec 1) : Statement (.barw d n m) := by
  refine roundtrip_of _ 4 (wordRR 13 0 1 n.toNat m.toNat d.toNat) rfl rfl (by decide) ?_ ?_ ?_
  · exact wordRR_lt _ _ _ _ _ _ (by omega) (by omega) (by omega) (by omega) (by omega) (by omega)
  · exact wordRR_len _ _ _ _ _ _ (by decide)
  · simp (disch := omega) [decodeWord, decodeBar, fld_eq, tyFld_eq, ofCode_code, ofCode_code_add, Nat.mod_eq_of_lt]
    omega

theorem barx (d : Reg) (n : BitVec 5) (m : BitVec 1) : Statement (.barx d n m) := by
  refine roundtrip_of _ 4 (wordRR 13 0 2 n.toNat m.toNat d.toNat) rfl rfl (by decide) ?_ ?_ ?_
  · exact wordRR_lt _ _ _ _ _ _ (by omega) (by omega) (by omega) (by omega) (by omega) (by omega)
  · exact wordRR_len _ _ _ _ _ _ (by decide)
  · simp (disch := omega) [decodeWord, decodeBar, fld_eq, tyFld_eq, ofCode_code, ofCode_code_add, Nat.mod_eq_of_lt]
    omega

theorem team (d : Reg) (a : Reg) (b : Reg) : Statement (.team d a b) := by
  refine roundtrip_of _ 4 (wordRR 13 0 3 b.toNat a.toNat d.toNat) rfl rfl (by decide) ?_ ?_ ?_
  · exact wordRR_lt _ _ _ _ _ _ (by omega) (by omega) (by omega) (by omega) (by omega) (by omega)
  · exact wordRR_len _ _ _ _ _ _ (by decide)
  · simp (disch := omega) [decodeWord, decodeBar, fld_eq, tyFld_eq, ofCode_code, ofCode_code_add, Nat.mod_eq_of_lt]

theorem geosub (d : Reg) (a : Reg) (b : Reg) : Statement (.geosub d a b) := by
  refine roundtrip_of _ 4 (wordRR 13 0 4 b.toNat a.toNat d.toNat) rfl rfl (by decide) ?_ ?_ ?_
  · exact wordRR_lt _ _ _ _ _ _ (by omega) (by omega) (by omega) (by omega) (by omega) (by omega)
  · exact wordRR_len _ _ _ _ _ _ (by decide)
  · simp (disch := omega) [decodeWord, decodeBar, fld_eq, tyFld_eq, ofCode_code, ofCode_code_add, Nat.mod_eq_of_lt]

theorem vld (t : ElTy) (k : KReg) (d : Reg) (a : Reg) : Statement (.vld t k d a) := by
  have ht := code_lt t
  refine roundtrip_of _ 4 (wordV 14 0 t.code k.toNat 0 a.toNat d.toNat) rfl rfl (by decide) ?_ ?_ ?_
  · exact wordV_lt _ _ _ _ _ _ _ (by omega) (by omega) (by omega) (by omega) (by omega) (by omega) (by omega)
  · exact wordV_len _ _ _ _ _ _ _ (by decide)
  · simp (disch := omega) [decodeWord, decodeVmem, fld_eq, tyFld_eq, ofCode_code, ofCode_code_add, Nat.mod_eq_of_lt]

theorem vst (t : ElTy) (k : KReg) (d : Reg) (a : Reg) : Statement (.vst t k d a) := by
  have ht := code_lt t
  refine roundtrip_of _ 4 (wordV 14 1 t.code k.toNat 0 a.toNat d.toNat) rfl rfl (by decide) ?_ ?_ ?_
  · exact wordV_lt _ _ _ _ _ _ _ (by omega) (by omega) (by omega) (by omega) (by omega) (by omega) (by omega)
  · exact wordV_len _ _ _ _ _ _ _ (by decide)
  · simp (disch := omega) [decodeWord, decodeVmem, fld_eq, tyFld_eq, ofCode_code, ofCode_code_add, Nat.mod_eq_of_lt]

theorem vlds (t : ElTy) (k : KReg) (d : Reg) (a : Reg) (b : Reg) : Statement (.vlds t k d a b) := by
  have ht := code_lt t
  refine roundtrip_of _ 4 (wordV 14 2 t.code k.toNat b.toNat a.toNat d.toNat) rfl rfl (by decide) ?_ ?_ ?_
  · exact wordV_lt _ _ _ _ _ _ _ (by omega) (by omega) (by omega) (by omega) (by omega) (by omega) (by omega)
  · exact wordV_len _ _ _ _ _ _ _ (by decide)
  · simp (disch := omega) [decodeWord, decodeVmem, fld_eq, tyFld_eq, ofCode_code, ofCode_code_add, Nat.mod_eq_of_lt]

theorem vsts (t : ElTy) (k : KReg) (d : Reg) (a : Reg) (b : Reg) : Statement (.vsts t k d a b) := by
  have ht := code_lt t
  refine roundtrip_of _ 4 (wordV 14 3 t.code k.toNat b.toNat a.toNat d.toNat) rfl rfl (by decide) ?_ ?_ ?_
  · exact wordV_lt _ _ _ _ _ _ _ (by omega) (by omega) (by omega) (by omega) (by omega) (by omega) (by omega)
  · exact wordV_len _ _ _ _ _ _ _ (by decide)
  · simp (disch := omega) [decodeWord, decodeVmem, fld_eq, tyFld_eq, ofCode_code, ofCode_code_add, Nat.mod_eq_of_lt]

theorem vldb (t : ElTy) (k : KReg) (d : Reg) (a : Reg) : Statement (.vldb t k d a) := by
  have ht := code_lt t
  refine roundtrip_of _ 4 (wordV 14 4 t.code k.toNat 0 a.toNat d.toNat) rfl rfl (by decide) ?_ ?_ ?_
  · exact wordV_lt _ _ _ _ _ _ _ (by omega) (by omega) (by omega) (by omega) (by omega) (by omega) (by omega)
  · exact wordV_len _ _ _ _ _ _ _ (by decide)
  · simp (disch := omega) [decodeWord, decodeVmem, fld_eq, tyFld_eq, ofCode_code, ofCode_code_add, Nat.mod_eq_of_lt]

theorem vldi (t : ElTy) (k : KReg) (d : Reg) (a : Reg) (b : Reg) : Statement (.vldi t k d a b) := by
  have ht := code_lt t
  refine roundtrip_of _ 4 (wordV 14 5 t.code k.toNat b.toNat a.toNat d.toNat) rfl rfl (by decide) ?_ ?_ ?_
  · exact wordV_lt _ _ _ _ _ _ _ (by omega) (by omega) (by omega) (by omega) (by omega) (by omega) (by omega)
  · exact wordV_len _ _ _ _ _ _ _ (by decide)
  · simp (disch := omega) [decodeWord, decodeVmem, fld_eq, tyFld_eq, ofCode_code, ofCode_code_add, Nat.mod_eq_of_lt]

theorem vsti (t : ElTy) (k : KReg) (d : Reg) (a : Reg) (b : Reg) : Statement (.vsti t k d a b) := by
  have ht := code_lt t
  refine roundtrip_of _ 4 (wordV 14 6 t.code k.toNat b.toNat a.toNat d.toNat) rfl rfl (by decide) ?_ ?_ ?_
  · exact wordV_lt _ _ _ _ _ _ _ (by omega) (by omega) (by omega) (by omega) (by omega) (by omega) (by omega)
  · exact wordV_len _ _ _ _ _ _ _ (by decide)
  · simp (disch := omega) [decodeWord, decodeVmem, fld_eq, tyFld_eq, ofCode_code, ofCode_code_add, Nat.mod_eq_of_lt]

theorem vadd (t : ElTy) (k : KReg) (d : Reg) (a : Reg) (b : Reg) : Statement (.vadd t k d a b) := by
  have ht := code_lt t
  refine roundtrip_of _ 4 (wordV 16 0 t.code k.toNat b.toNat a.toNat d.toNat) rfl rfl (by decide) ?_ ?_ ?_
  · exact wordV_lt _ _ _ _ _ _ _ (by omega) (by omega) (by omega) (by omega) (by omega) (by omega) (by omega)
  · exact wordV_len _ _ _ _ _ _ _ (by decide)
  · simp (disch := omega) [decodeWord, decodeVint, fld_eq, tyFld_eq, ofCode_code, ofCode_code_add, Nat.mod_eq_of_lt]

theorem vsub (t : ElTy) (k : KReg) (d : Reg) (a : Reg) (b : Reg) : Statement (.vsub t k d a b) := by
  have ht := code_lt t
  refine roundtrip_of _ 4 (wordV 16 1 t.code k.toNat b.toNat a.toNat d.toNat) rfl rfl (by decide) ?_ ?_ ?_
  · exact wordV_lt _ _ _ _ _ _ _ (by omega) (by omega) (by omega) (by omega) (by omega) (by omega) (by omega)
  · exact wordV_len _ _ _ _ _ _ _ (by decide)
  · simp (disch := omega) [decodeWord, decodeVint, fld_eq, tyFld_eq, ofCode_code, ofCode_code_add, Nat.mod_eq_of_lt]

theorem vmul (t : ElTy) (k : KReg) (d : Reg) (a : Reg) (b : Reg) : Statement (.vmul t k d a b) := by
  have ht := code_lt t
  refine roundtrip_of _ 4 (wordV 16 2 t.code k.toNat b.toNat a.toNat d.toNat) rfl rfl (by decide) ?_ ?_ ?_
  · exact wordV_lt _ _ _ _ _ _ _ (by omega) (by omega) (by omega) (by omega) (by omega) (by omega) (by omega)
  · exact wordV_len _ _ _ _ _ _ _ (by decide)
  · simp (disch := omega) [decodeWord, decodeVint, fld_eq, tyFld_eq, ofCode_code, ofCode_code_add, Nat.mod_eq_of_lt]

theorem vmulh (t : ElTy) (k : KReg) (d : Reg) (a : Reg) (b : Reg) : Statement (.vmulh t k d a b) := by
  have ht := code_lt t
  refine roundtrip_of _ 4 (wordV 16 3 t.code k.toNat b.toNat a.toNat d.toNat) rfl rfl (by decide) ?_ ?_ ?_
  · exact wordV_lt _ _ _ _ _ _ _ (by omega) (by omega) (by omega) (by omega) (by omega) (by omega) (by omega)
  · exact wordV_len _ _ _ _ _ _ _ (by decide)
  · simp (disch := omega) [decodeWord, decodeVint, fld_eq, tyFld_eq, ofCode_code, ofCode_code_add, Nat.mod_eq_of_lt]

theorem vmin (t : ElTy) (k : KReg) (d : Reg) (a : Reg) (b : Reg) : Statement (.vmin t k d a b) := by
  have ht := code_lt t
  refine roundtrip_of _ 4 (wordV 16 4 t.code k.toNat b.toNat a.toNat d.toNat) rfl rfl (by decide) ?_ ?_ ?_
  · exact wordV_lt _ _ _ _ _ _ _ (by omega) (by omega) (by omega) (by omega) (by omega) (by omega) (by omega)
  · exact wordV_len _ _ _ _ _ _ _ (by decide)
  · simp (disch := omega) [decodeWord, decodeVint, fld_eq, tyFld_eq, ofCode_code, ofCode_code_add, Nat.mod_eq_of_lt]

theorem vmax (t : ElTy) (k : KReg) (d : Reg) (a : Reg) (b : Reg) : Statement (.vmax t k d a b) := by
  have ht := code_lt t
  refine roundtrip_of _ 4 (wordV 16 5 t.code k.toNat b.toNat a.toNat d.toNat) rfl rfl (by decide) ?_ ?_ ?_
  · exact wordV_lt _ _ _ _ _ _ _ (by omega) (by omega) (by omega) (by omega) (by omega) (by omega) (by omega)
  · exact wordV_len _ _ _ _ _ _ _ (by decide)
  · simp (disch := omega) [decodeWord, decodeVint, fld_eq, tyFld_eq, ofCode_code, ofCode_code_add, Nat.mod_eq_of_lt]

theorem vminu (t : ElTy) (k : KReg) (d : Reg) (a : Reg) (b : Reg) : Statement (.vminu t k d a b) := by
  have ht := code_lt t
  refine roundtrip_of _ 4 (wordV 16 6 t.code k.toNat b.toNat a.toNat d.toNat) rfl rfl (by decide) ?_ ?_ ?_
  · exact wordV_lt _ _ _ _ _ _ _ (by omega) (by omega) (by omega) (by omega) (by omega) (by omega) (by omega)
  · exact wordV_len _ _ _ _ _ _ _ (by decide)
  · simp (disch := omega) [decodeWord, decodeVint, fld_eq, tyFld_eq, ofCode_code, ofCode_code_add, Nat.mod_eq_of_lt]

theorem vmaxu (t : ElTy) (k : KReg) (d : Reg) (a : Reg) (b : Reg) : Statement (.vmaxu t k d a b) := by
  have ht := code_lt t
  refine roundtrip_of _ 4 (wordV 16 7 t.code k.toNat b.toNat a.toNat d.toNat) rfl rfl (by decide) ?_ ?_ ?_
  · exact wordV_lt _ _ _ _ _ _ _ (by omega) (by omega) (by omega) (by omega) (by omega) (by omega) (by omega)
  · exact wordV_len _ _ _ _ _ _ _ (by decide)
  · simp (disch := omega) [decodeWord, decodeVint, fld_eq, tyFld_eq, ofCode_code, ofCode_code_add, Nat.mod_eq_of_lt]

theorem vabs (t : ElTy) (k : KReg) (d : Reg) (a : Reg) : Statement (.vabs t k d a) := by
  have ht := code_lt t
  refine roundtrip_of _ 4 (wordV 16 8 t.code k.toNat 0 a.toNat d.toNat) rfl rfl (by decide) ?_ ?_ ?_
  · exact wordV_lt _ _ _ _ _ _ _ (by omega) (by omega) (by omega) (by omega) (by omega) (by omega) (by omega)
  · exact wordV_len _ _ _ _ _ _ _ (by decide)
  · simp (disch := omega) [decodeWord, decodeVint, fld_eq, tyFld_eq, ofCode_code, ofCode_code_add, Nat.mod_eq_of_lt]

theorem vand (t : ElTy) (k : KReg) (d : Reg) (a : Reg) (b : Reg) : Statement (.vand t k d a b) := by
  have ht := code_lt t
  refine roundtrip_of _ 4 (wordV 16 9 t.code k.toNat b.toNat a.toNat d.toNat) rfl rfl (by decide) ?_ ?_ ?_
  · exact wordV_lt _ _ _ _ _ _ _ (by omega) (by omega) (by omega) (by omega) (by omega) (by omega) (by omega)
  · exact wordV_len _ _ _ _ _ _ _ (by decide)
  · simp (disch := omega) [decodeWord, decodeVint, fld_eq, tyFld_eq, ofCode_code, ofCode_code_add, Nat.mod_eq_of_lt]

theorem vor (t : ElTy) (k : KReg) (d : Reg) (a : Reg) (b : Reg) : Statement (.vor t k d a b) := by
  have ht := code_lt t
  refine roundtrip_of _ 4 (wordV 16 10 t.code k.toNat b.toNat a.toNat d.toNat) rfl rfl (by decide) ?_ ?_ ?_
  · exact wordV_lt _ _ _ _ _ _ _ (by omega) (by omega) (by omega) (by omega) (by omega) (by omega) (by omega)
  · exact wordV_len _ _ _ _ _ _ _ (by decide)
  · simp (disch := omega) [decodeWord, decodeVint, fld_eq, tyFld_eq, ofCode_code, ofCode_code_add, Nat.mod_eq_of_lt]

theorem vxor (t : ElTy) (k : KReg) (d : Reg) (a : Reg) (b : Reg) : Statement (.vxor t k d a b) := by
  have ht := code_lt t
  refine roundtrip_of _ 4 (wordV 16 11 t.code k.toNat b.toNat a.toNat d.toNat) rfl rfl (by decide) ?_ ?_ ?_
  · exact wordV_lt _ _ _ _ _ _ _ (by omega) (by omega) (by omega) (by omega) (by omega) (by omega) (by omega)
  · exact wordV_len _ _ _ _ _ _ _ (by decide)
  · simp (disch := omega) [decodeWord, decodeVint, fld_eq, tyFld_eq, ofCode_code, ofCode_code_add, Nat.mod_eq_of_lt]

theorem vshl (t : ElTy) (k : KReg) (d : Reg) (a : Reg) (b : Reg) : Statement (.vshl t k d a b) := by
  have ht := code_lt t
  refine roundtrip_of _ 4 (wordV 16 12 t.code k.toNat b.toNat a.toNat d.toNat) rfl rfl (by decide) ?_ ?_ ?_
  · exact wordV_lt _ _ _ _ _ _ _ (by omega) (by omega) (by omega) (by omega) (by omega) (by omega) (by omega)
  · exact wordV_len _ _ _ _ _ _ _ (by decide)
  · simp (disch := omega) [decodeWord, decodeVint, fld_eq, tyFld_eq, ofCode_code, ofCode_code_add, Nat.mod_eq_of_lt]

theorem vshr (t : ElTy) (k : KReg) (d : Reg) (a : Reg) (b : Reg) : Statement (.vshr t k d a b) := by
  have ht := code_lt t
  refine roundtrip_of _ 4 (wordV 16 13 t.code k.toNat b.toNat a.toNat d.toNat) rfl rfl (by decide) ?_ ?_ ?_
  · exact wordV_lt _ _ _ _ _ _ _ (by omega) (by omega) (by omega) (by omega) (by omega) (by omega) (by omega)
  · exact wordV_len _ _ _ _ _ _ _ (by decide)
  · simp (disch := omega) [decodeWord, decodeVint, fld_eq, tyFld_eq, ofCode_code, ofCode_code_add, Nat.mod_eq_of_lt]

theorem vsar (t : ElTy) (k : KReg) (d : Reg) (a : Reg) (b : Reg) : Statement (.vsar t k d a b) := by
  have ht := code_lt t
  refine roundtrip_of _ 4 (wordV 16 14 t.code k.toNat b.toNat a.toNat d.toNat) rfl rfl (by decide) ?_ ?_ ?_
  · exact wordV_lt _ _ _ _ _ _ _ (by omega) (by omega) (by omega) (by omega) (by omega) (by omega) (by omega)
  · exact wordV_len _ _ _ _ _ _ _ (by decide)
  · simp (disch := omega) [decodeWord, decodeVint, fld_eq, tyFld_eq, ofCode_code, ofCode_code_add, Nat.mod_eq_of_lt]

theorem vcmp (t : ElTy) (k : KReg) (a : Reg) (b : Reg) (c : BitVec 3) : Statement (.vcmp t k a b c) := by
  have ht := code_lt t
  refine roundtrip_of _ 4 (wordV 16 15 t.code c.toNat b.toNat a.toNat k.toNat) rfl rfl (by decide) ?_ ?_ ?_
  · exact wordV_lt _ _ _ _ _ _ _ (by omega) (by omega) (by omega) (by omega) (by omega) (by omega) (by omega)
  · exact wordV_len _ _ _ _ _ _ _ (by decide)
  · simp (disch := omega) [decodeWord, decodeVint, fld_eq, tyFld_eq, ofCode_code, ofCode_code_add, Nat.mod_eq_of_lt]
    omega

theorem vfadd (t : ElTy) (k : KReg) (d : Reg) (a : Reg) (b : Reg) : Statement (.vfadd t k d a b) := by
  have ht := code_lt t
  refine roundtrip_of _ 4 (wordV 17 0 t.code k.toNat b.toNat a.toNat d.toNat) rfl rfl (by decide) ?_ ?_ ?_
  · exact wordV_lt _ _ _ _ _ _ _ (by omega) (by omega) (by omega) (by omega) (by omega) (by omega) (by omega)
  · exact wordV_len _ _ _ _ _ _ _ (by decide)
  · simp (disch := omega) [decodeWord, decodeVfp, fld_eq, tyFld_eq, ofCode_code, ofCode_code_add, Nat.mod_eq_of_lt]

theorem vfsub (t : ElTy) (k : KReg) (d : Reg) (a : Reg) (b : Reg) : Statement (.vfsub t k d a b) := by
  have ht := code_lt t
  refine roundtrip_of _ 4 (wordV 17 1 t.code k.toNat b.toNat a.toNat d.toNat) rfl rfl (by decide) ?_ ?_ ?_
  · exact wordV_lt _ _ _ _ _ _ _ (by omega) (by omega) (by omega) (by omega) (by omega) (by omega) (by omega)
  · exact wordV_len _ _ _ _ _ _ _ (by decide)
  · simp (disch := omega) [decodeWord, decodeVfp, fld_eq, tyFld_eq, ofCode_code, ofCode_code_add, Nat.mod_eq_of_lt]

theorem vfmul (t : ElTy) (k : KReg) (d : Reg) (a : Reg) (b : Reg) : Statement (.vfmul t k d a b) := by
  have ht := code_lt t
  refine roundtrip_of _ 4 (wordV 17 2 t.code k.toNat b.toNat a.toNat d.toNat) rfl rfl (by decide) ?_ ?_ ?_
  · exact wordV_lt _ _ _ _ _ _ _ (by omega) (by omega) (by omega) (by omega) (by omega) (by omega) (by omega)
  · exact wordV_len _ _ _ _ _ _ _ (by decide)
  · simp (disch := omega) [decodeWord, decodeVfp, fld_eq, tyFld_eq, ofCode_code, ofCode_code_add, Nat.mod_eq_of_lt]

theorem vfdiv (t : ElTy) (k : KReg) (d : Reg) (a : Reg) (b : Reg) : Statement (.vfdiv t k d a b) := by
  have ht := code_lt t
  refine roundtrip_of _ 4 (wordV 17 3 t.code k.toNat b.toNat a.toNat d.toNat) rfl rfl (by decide) ?_ ?_ ?_
  · exact wordV_lt _ _ _ _ _ _ _ (by omega) (by omega) (by omega) (by omega) (by omega) (by omega) (by omega)
  · exact wordV_len _ _ _ _ _ _ _ (by decide)
  · simp (disch := omega) [decodeWord, decodeVfp, fld_eq, tyFld_eq, ofCode_code, ofCode_code_add, Nat.mod_eq_of_lt]

theorem vfsqrt (t : ElTy) (k : KReg) (d : Reg) (a : Reg) : Statement (.vfsqrt t k d a) := by
  have ht := code_lt t
  refine roundtrip_of _ 4 (wordV 17 4 t.code k.toNat 0 a.toNat d.toNat) rfl rfl (by decide) ?_ ?_ ?_
  · exact wordV_lt _ _ _ _ _ _ _ (by omega) (by omega) (by omega) (by omega) (by omega) (by omega) (by omega)
  · exact wordV_len _ _ _ _ _ _ _ (by decide)
  · simp (disch := omega) [decodeWord, decodeVfp, fld_eq, tyFld_eq, ofCode_code, ofCode_code_add, Nat.mod_eq_of_lt]

theorem vfmin (t : ElTy) (k : KReg) (d : Reg) (a : Reg) (b : Reg) : Statement (.vfmin t k d a b) := by
  have ht := code_lt t
  refine roundtrip_of _ 4 (wordV 17 5 t.code k.toNat b.toNat a.toNat d.toNat) rfl rfl (by decide) ?_ ?_ ?_
  · exact wordV_lt _ _ _ _ _ _ _ (by omega) (by omega) (by omega) (by omega) (by omega) (by omega) (by omega)
  · exact wordV_len _ _ _ _ _ _ _ (by decide)
  · simp (disch := omega) [decodeWord, decodeVfp, fld_eq, tyFld_eq, ofCode_code, ofCode_code_add, Nat.mod_eq_of_lt]

theorem vfmax (t : ElTy) (k : KReg) (d : Reg) (a : Reg) (b : Reg) : Statement (.vfmax t k d a b) := by
  have ht := code_lt t
  refine roundtrip_of _ 4 (wordV 17 6 t.code k.toNat b.toNat a.toNat d.toNat) rfl rfl (by decide) ?_ ?_ ?_
  · exact wordV_lt _ _ _ _ _ _ _ (by omega) (by omega) (by omega) (by omega) (by omega) (by omega) (by omega)
  · exact wordV_len _ _ _ _ _ _ _ (by decide)
  · simp (disch := omega) [decodeWord, decodeVfp, fld_eq, tyFld_eq, ofCode_code, ofCode_code_add, Nat.mod_eq_of_lt]

theorem vfabs (t : ElTy) (k : KReg) (d : Reg) (a : Reg) : Statement (.vfabs t k d a) := by
  have ht := code_lt t
  refine roundtrip_of _ 4 (wordV 17 7 t.code k.toNat 0 a.toNat d.toNat) rfl rfl (by decide) ?_ ?_ ?_
  · exact wordV_lt _ _ _ _ _ _ _ (by omega) (by omega) (by omega) (by omega) (by omega) (by omega) (by omega)
  · exact wordV_len _ _ _ _ _ _ _ (by decide)
  · simp (disch := omega) [decodeWord, decodeVfp, fld_eq, tyFld_eq, ofCode_code, ofCode_code_add, Nat.mod_eq_of_lt]

theorem vfneg (t : ElTy) (k : KReg) (d : Reg) (a : Reg) : Statement (.vfneg t k d a) := by
  have ht := code_lt t
  refine roundtrip_of _ 4 (wordV 17 8 t.code k.toNat 0 a.toNat d.toNat) rfl rfl (by decide) ?_ ?_ ?_
  · exact wordV_lt _ _ _ _ _ _ _ (by omega) (by omega) (by omega) (by omega) (by omega) (by omega) (by omega)
  · exact wordV_len _ _ _ _ _ _ _ (by decide)
  · simp (disch := omega) [decodeWord, decodeVfp, fld_eq, tyFld_eq, ofCode_code, ofCode_code_add, Nat.mod_eq_of_lt]

theorem vfcmp (t : ElTy) (k : KReg) (a : Reg) (b : Reg) (c : BitVec 3) : Statement (.vfcmp t k a b c) := by
  have ht := code_lt t
  refine roundtrip_of _ 4 (wordV 17 9 t.code c.toNat b.toNat a.toNat k.toNat) rfl rfl (by decide) ?_ ?_ ?_
  · exact wordV_lt _ _ _ _ _ _ _ (by omega) (by omega) (by omega) (by omega) (by omega) (by omega) (by omega)
  · exact wordV_len _ _ _ _ _ _ _ (by decide)
  · simp (disch := omega) [decodeWord, decodeVfp, fld_eq, tyFld_eq, ofCode_code, ofCode_code_add, Nat.mod_eq_of_lt]
    omega

theorem vfrsq (t : ElTy) (k : KReg) (d : Reg) (a : Reg) : Statement (.vfrsq t k d a) := by
  have ht := code_lt t
  refine roundtrip_of _ 4 (wordV 17 10 t.code k.toNat 0 a.toNat d.toNat) rfl rfl (by decide) ?_ ?_ ?_
  · exact wordV_lt _ _ _ _ _ _ _ (by omega) (by omega) (by omega) (by omega) (by omega) (by omega) (by omega)
  · exact wordV_len _ _ _ _ _ _ _ (by decide)
  · simp (disch := omega) [decodeWord, decodeVfp, fld_eq, tyFld_eq, ofCode_code, ofCode_code_add, Nat.mod_eq_of_lt]

theorem vfexp2 (t : ElTy) (k : KReg) (d : Reg) (a : Reg) : Statement (.vfexp2 t k d a) := by
  have ht := code_lt t
  refine roundtrip_of _ 4 (wordV 17 11 t.code k.toNat 0 a.toNat d.toNat) rfl rfl (by decide) ?_ ?_ ?_
  · exact wordV_lt _ _ _ _ _ _ _ (by omega) (by omega) (by omega) (by omega) (by omega) (by omega) (by omega)
  · exact wordV_len _ _ _ _ _ _ _ (by decide)
  · simp (disch := omega) [decodeWord, decodeVfp, fld_eq, tyFld_eq, ofCode_code, ofCode_code_add, Nat.mod_eq_of_lt]

theorem vflog2 (t : ElTy) (k : KReg) (d : Reg) (a : Reg) : Statement (.vflog2 t k d a) := by
  have ht := code_lt t
  refine roundtrip_of _ 4 (wordV 17 12 t.code k.toNat 0 a.toNat d.toNat) rfl rfl (by decide) ?_ ?_ ?_
  · exact wordV_lt _ _ _ _ _ _ _ (by omega) (by omega) (by omega) (by omega) (by omega) (by omega) (by omega)
  · exact wordV_len _ _ _ _ _ _ _ (by decide)
  · simp (disch := omega) [decodeWord, decodeVfp, fld_eq, tyFld_eq, ofCode_code, ofCode_code_add, Nat.mod_eq_of_lt]

theorem vflse (t : ElTy) (k : KReg) (d : Reg) (a : Reg) (b : Reg) : Statement (.vflse t k d a b) := by
  have ht := code_lt t
  refine roundtrip_of _ 4 (wordV 17 13 t.code k.toNat b.toNat a.toNat d.toNat) rfl rfl (by decide) ?_ ?_ ?_
  · exact wordV_lt _ _ _ _ _ _ _ (by omega) (by omega) (by omega) (by omega) (by omega) (by omega) (by omega)
  · exact wordV_len _ _ _ _ _ _ _ (by decide)
  · simp (disch := omega) [decodeWord, decodeVfp, fld_eq, tyFld_eq, ofCode_code, ofCode_code_add, Nat.mod_eq_of_lt]

theorem vfrnd (t : ElTy) (k : KReg) (d : Reg) (a : Reg) (r : BitVec 2) : Statement (.vfrnd t k d a r) := by
  have ht := code_lt t
  refine roundtrip_of _ 4 (wordV 17 14 t.code k.toNat r.toNat a.toNat d.toNat) rfl rfl (by decide) ?_ ?_ ?_
  · exact wordV_lt _ _ _ _ _ _ _ (by omega) (by omega) (by omega) (by omega) (by omega) (by omega) (by omega)
  · exact wordV_len _ _ _ _ _ _ _ (by decide)
  · simp (disch := omega) [decodeWord, decodeVfp, fld_eq, tyFld_eq, ofCode_code, ofCode_code_add, Nat.mod_eq_of_lt]
    omega

theorem vfclass (t : ElTy) (k : KReg) (d : Reg) (a : Reg) : Statement (.vfclass t k d a) := by
  have ht := code_lt t
  refine roundtrip_of _ 4 (wordV 17 15 t.code k.toNat 0 a.toNat d.toNat) rfl rfl (by decide) ?_ ?_ ?_
  · exact wordV_lt _ _ _ _ _ _ _ (by omega) (by omega) (by omega) (by omega) (by omega) (by omega) (by omega)
  · exact wordV_len _ _ _ _ _ _ _ (by decide)
  · simp (disch := omega) [decodeWord, decodeVfp, fld_eq, tyFld_eq, ofCode_code, ofCode_code_add, Nat.mod_eq_of_lt]

theorem vcvt (t : ElTy) (k : KReg) (d : Reg) (a : Reg) (b : Reg) : Statement (.vcvt t k d a b) := by
  have ht := code_lt t
  refine roundtrip_of _ 4 (wordV 18 0 t.code k.toNat b.toNat a.toNat d.toNat) rfl rfl (by decide) ?_ ?_ ?_
  · exact wordV_lt _ _ _ _ _ _ _ (by omega) (by omega) (by omega) (by omega) (by omega) (by omega) (by omega)
  · exact wordV_len _ _ _ _ _ _ _ (by decide)
  · simp (disch := omega) [decodeWord, decodeVcvt, fld_eq, tyFld_eq, ofCode_code, ofCode_code_add, Nat.mod_eq_of_lt]

theorem vbcast (t : ElTy) (k : KReg) (d : Reg) (a : Reg) : Statement (.vbcast t k d a) := by
  have ht := code_lt t
  refine roundtrip_of _ 4 (wordV 18 1 t.code k.toNat 0 a.toNat d.toNat) rfl rfl (by decide) ?_ ?_ ?_
  · exact wordV_lt _ _ _ _ _ _ _ (by omega) (by omega) (by omega) (by omega) (by omega) (by omega) (by omega)
  · exact wordV_len _ _ _ _ _ _ _ (by decide)
  · simp (disch := omega) [decodeWord, decodeVcvt, fld_eq, tyFld_eq, ofCode_code, ofCode_code_add, Nat.mod_eq_of_lt]

theorem vext (t : ElTy) (d : Reg) (a : Reg) (b : Reg) : Statement (.vext t d a b) := by
  have ht := code_lt t
  refine roundtrip_of _ 4 (wordV 18 2 t.code 0 b.toNat a.toNat d.toNat) rfl rfl (by decide) ?_ ?_ ?_
  · exact wordV_lt _ _ _ _ _ _ _ (by omega) (by omega) (by omega) (by omega) (by omega) (by omega) (by omega)
  · exact wordV_len _ _ _ _ _ _ _ (by decide)
  · simp (disch := omega) [decodeWord, decodeVcvt, fld_eq, tyFld_eq, ofCode_code, ofCode_code_add, Nat.mod_eq_of_lt]

theorem vins (t : ElTy) (d : Reg) (a : Reg) (b : Reg) : Statement (.vins t d a b) := by
  have ht := code_lt t
  refine roundtrip_of _ 4 (wordV 18 3 t.code 0 b.toNat a.toNat d.toNat) rfl rfl (by decide) ?_ ?_ ?_
  · exact wordV_lt _ _ _ _ _ _ _ (by omega) (by omega) (by omega) (by omega) (by omega) (by omega) (by omega)
  · exact wordV_len _ _ _ _ _ _ _ (by decide)
  · simp (disch := omega) [decodeWord, decodeVcvt, fld_eq, tyFld_eq, ofCode_code, ofCode_code_add, Nat.mod_eq_of_lt]

theorem viota (t : ElTy) (k : KReg) (d : Reg) : Statement (.viota t k d) := by
  have ht := code_lt t
  refine roundtrip_of _ 4 (wordV 18 4 t.code k.toNat 0 0 d.toNat) rfl rfl (by decide) ?_ ?_ ?_
  · exact wordV_lt _ _ _ _ _ _ _ (by omega) (by omega) (by omega) (by omega) (by omega) (by omega) (by omega)
  · exact wordV_len _ _ _ _ _ _ _ (by decide)
  · simp (disch := omega) [decodeWord, decodeVcvt, fld_eq, tyFld_eq, ofCode_code, ofCode_code_add, Nat.mod_eq_of_lt]

theorem vpack (t : ElTy) (k : KReg) (d : Reg) (a : Reg) (b : Reg) : Statement (.vpack t k d a b) := by
  have ht := code_lt t
  refine roundtrip_of _ 4 (wordV 18 5 t.code k.toNat b.toNat a.toNat d.toNat) rfl rfl (by decide) ?_ ?_ ?_
  · exact wordV_lt _ _ _ _ _ _ _ (by omega) (by omega) (by omega) (by omega) (by omega) (by omega) (by omega)
  · exact wordV_len _ _ _ _ _ _ _ (by decide)
  · simp (disch := omega) [decodeWord, decodeVcvt, fld_eq, tyFld_eq, ofCode_code, ofCode_code_add, Nat.mod_eq_of_lt]

theorem vunpk (t : ElTy) (k : KReg) (d : Reg) (a : Reg) (h : BitVec 5) : Statement (.vunpk t k d a h) := by
  have ht := code_lt t
  refine roundtrip_of _ 4 (wordV 18 6 t.code k.toNat h.toNat a.toNat d.toNat) rfl rfl (by decide) ?_ ?_ ?_
  · exact wordV_lt _ _ _ _ _ _ _ (by omega) (by omega) (by omega) (by omega) (by omega) (by omega) (by omega)
  · exact wordV_len _ _ _ _ _ _ _ (by decide)
  · simp (disch := omega) [decodeWord, decodeVcvt, fld_eq, tyFld_eq, ofCode_code, ofCode_code_add, Nat.mod_eq_of_lt]

theorem vperm (t : ElTy) (k : KReg) (d : Reg) (a : Reg) (b : Reg) : Statement (.vperm t k d a b) := by
  have ht := code_lt t
  refine roundtrip_of _ 4 (wordV 19 0 t.code k.toNat b.toNat a.toNat d.toNat) rfl rfl (by decide) ?_ ?_ ?_
  · exact wordV_lt _ _ _ _ _ _ _ (by omega) (by omega) (by omega) (by omega) (by omega) (by omega) (by omega)
  · exact wordV_len _ _ _ _ _ _ _ (by decide)
  · simp (disch := omega) [decodeWord, decodeVperm, fld_eq, tyFld_eq, ofCode_code, ofCode_code_add, Nat.mod_eq_of_lt]

theorem vslide (t : ElTy) (k : KReg) (d : Reg) (a : Reg) (b : Reg) : Statement (.vslide t k d a b) := by
  have ht := code_lt t
  refine roundtrip_of _ 4 (wordV 19 1 t.code k.toNat b.toNat a.toNat d.toNat) rfl rfl (by decide) ?_ ?_ ?_
  · exact wordV_lt _ _ _ _ _ _ _ (by omega) (by omega) (by omega) (by omega) (by omega) (by omega) (by omega)
  · exact wordV_len _ _ _ _ _ _ _ (by decide)
  · simp (disch := omega) [decodeWord, decodeVperm, fld_eq, tyFld_eq, ofCode_code, ofCode_code_add, Nat.mod_eq_of_lt]

theorem vsel (t : ElTy) (k : KReg) (d : Reg) (a : Reg) (b : Reg) : Statement (.vsel t k d a b) := by
  have ht := code_lt t
  refine roundtrip_of _ 4 (wordV 19 2 t.code k.toNat b.toNat a.toNat d.toNat) rfl rfl (by decide) ?_ ?_ ?_
  · exact wordV_lt _ _ _ _ _ _ _ (by omega) (by omega) (by omega) (by omega) (by omega) (by omega) (by omega)
  · exact wordV_len _ _ _ _ _ _ _ (by decide)
  · simp (disch := omega) [decodeWord, decodeVperm, fld_eq, tyFld_eq, ofCode_code, ofCode_code_add, Nat.mod_eq_of_lt]

theorem vredadd (t : ElTy) (k : KReg) (d : Reg) (a : Reg) : Statement (.vredadd t k d a) := by
  have ht := code_lt t
  refine roundtrip_of _ 4 (wordV 19 3 t.code k.toNat 0 a.toNat d.toNat) rfl rfl (by decide) ?_ ?_ ?_
  · exact wordV_lt _ _ _ _ _ _ _ (by omega) (by omega) (by omega) (by omega) (by omega) (by omega) (by omega)
  · exact wordV_len _ _ _ _ _ _ _ (by decide)
  · simp (disch := omega) [decodeWord, decodeVperm, fld_eq, tyFld_eq, ofCode_code, ofCode_code_add, Nat.mod_eq_of_lt]

theorem vredmin (t : ElTy) (k : KReg) (d : Reg) (a : Reg) : Statement (.vredmin t k d a) := by
  have ht := code_lt t
  refine roundtrip_of _ 4 (wordV 19 4 t.code k.toNat 0 a.toNat d.toNat) rfl rfl (by decide) ?_ ?_ ?_
  · exact wordV_lt _ _ _ _ _ _ _ (by omega) (by omega) (by omega) (by omega) (by omega) (by omega) (by omega)
  · exact wordV_len _ _ _ _ _ _ _ (by decide)
  · simp (disch := omega) [decodeWord, decodeVperm, fld_eq, tyFld_eq, ofCode_code, ofCode_code_add, Nat.mod_eq_of_lt]

theorem vredmax (t : ElTy) (k : KReg) (d : Reg) (a : Reg) : Statement (.vredmax t k d a) := by
  have ht := code_lt t
  refine roundtrip_of _ 4 (wordV 19 5 t.code k.toNat 0 a.toNat d.toNat) rfl rfl (by decide) ?_ ?_ ?_
  · exact wordV_lt _ _ _ _ _ _ _ (by omega) (by omega) (by omega) (by omega) (by omega) (by omega) (by omega)
  · exact wordV_len _ _ _ _ _ _ _ (by decide)
  · simp (disch := omega) [decodeWord, decodeVperm, fld_eq, tyFld_eq, ofCode_code, ofCode_code_add, Nat.mod_eq_of_lt]

theorem vfredadd (t : ElTy) (k : KReg) (d : Reg) (a : Reg) : Statement (.vfredadd t k d a) := by
  have ht := code_lt t
  refine roundtrip_of _ 4 (wordV 19 6 t.code k.toNat 0 a.toNat d.toNat) rfl rfl (by decide) ?_ ?_ ?_
  · exact wordV_lt _ _ _ _ _ _ _ (by omega) (by omega) (by omega) (by omega) (by omega) (by omega) (by omega)
  · exact wordV_len _ _ _ _ _ _ _ (by decide)
  · simp (disch := omega) [decodeWord, decodeVperm, fld_eq, tyFld_eq, ofCode_code, ofCode_code_add, Nat.mod_eq_of_lt]

theorem vscan (t : ElTy) (k : KReg) (d : Reg) (a : Reg) : Statement (.vscan t k d a) := by
  have ht := code_lt t
  refine roundtrip_of _ 4 (wordV 19 7 t.code k.toNat 0 a.toNat d.toNat) rfl rfl (by decide) ?_ ?_ ?_
  · exact wordV_lt _ _ _ _ _ _ _ (by omega) (by omega) (by omega) (by omega) (by omega) (by omega) (by omega)
  · exact wordV_len _ _ _ _ _ _ _ (by decide)
  · simp (disch := omega) [decodeWord, decodeVperm, fld_eq, tyFld_eq, ofCode_code, ofCode_code_add, Nat.mod_eq_of_lt]

theorem vcompr (t : ElTy) (k : KReg) (d : Reg) (a : Reg) : Statement (.vcompr t k d a) := by
  have ht := code_lt t
  refine roundtrip_of _ 4 (wordV 19 8 t.code k.toNat 0 a.toNat d.toNat) rfl rfl (by decide) ?_ ?_ ?_
  · exact wordV_lt _ _ _ _ _ _ _ (by omega) (by omega) (by omega) (by omega) (by omega) (by omega) (by omega)
  · exact wordV_len _ _ _ _ _ _ _ (by decide)
  · simp (disch := omega) [decodeWord, decodeVperm, fld_eq, tyFld_eq, ofCode_code, ofCode_code_add, Nat.mod_eq_of_lt]

theorem vexpnd (t : ElTy) (k : KReg) (d : Reg) (a : Reg) : Statement (.vexpnd t k d a) := by
  have ht := code_lt t
  refine roundtrip_of _ 4 (wordV 19 9 t.code k.toNat 0 a.toNat d.toNat) rfl rfl (by decide) ?_ ?_ ?_
  · exact wordV_lt _ _ _ _ _ _ _ (by omega) (by omega) (by omega) (by omega) (by omega) (by omega) (by omega)
  · exact wordV_len _ _ _ _ _ _ _ (by decide)
  · simp (disch := omega) [decodeWord, decodeVperm, fld_eq, tyFld_eq, ofCode_code, ofCode_code_add, Nat.mod_eq_of_lt]

theorem kand (d : KReg) (a : KReg) (b : KReg) : Statement (.kand d a b) := by
  refine roundtrip_of _ 4 (wordV 20 0 0 0 b.toNat a.toNat d.toNat) rfl rfl (by decide) ?_ ?_ ?_
  · exact wordV_lt _ _ _ _ _ _ _ (by omega) (by omega) (by omega) (by omega) (by omega) (by omega) (by omega)
  · exact wordV_len _ _ _ _ _ _ _ (by decide)
  · simp (disch := omega) [decodeWord, decodeMask, fld_eq, tyFld_eq, ofCode_code, ofCode_code_add, Nat.mod_eq_of_lt]
    omega

theorem kor (d : KReg) (a : KReg) (b : KReg) : Statement (.kor d a b) := by
  refine roundtrip_of _ 4 (wordV 20 1 0 0 b.toNat a.toNat d.toNat) rfl rfl (by decide) ?_ ?_ ?_
  · exact wordV_lt _ _ _ _ _ _ _ (by omega) (by omega) (by omega) (by omega) (by omega) (by omega) (by omega)
  · exact wordV_len _ _ _ _ _ _ _ (by decide)
  · simp (disch := omega) [decodeWord, decodeMask, fld_eq, tyFld_eq, ofCode_code, ofCode_code_add, Nat.mod_eq_of_lt]
    omega

theorem kxor (d : KReg) (a : KReg) (b : KReg) : Statement (.kxor d a b) := by
  refine roundtrip_of _ 4 (wordV 20 2 0 0 b.toNat a.toNat d.toNat) rfl rfl (by decide) ?_ ?_ ?_
  · exact wordV_lt _ _ _ _ _ _ _ (by omega) (by omega) (by omega) (by omega) (by omega) (by omega) (by omega)
  · exact wordV_len _ _ _ _ _ _ _ (by decide)
  · simp (disch := omega) [decodeWord, decodeMask, fld_eq, tyFld_eq, ofCode_code, ofCode_code_add, Nat.mod_eq_of_lt]
    omega

theorem kandn (d : KReg) (a : KReg) (b : KReg) : Statement (.kandn d a b) := by
  refine roundtrip_of _ 4 (wordV 20 3 0 0 b.toNat a.toNat d.toNat) rfl rfl (by decide) ?_ ?_ ?_
  · exact wordV_lt _ _ _ _ _ _ _ (by omega) (by omega) (by omega) (by omega) (by omega) (by omega) (by omega)
  · exact wordV_len _ _ _ _ _ _ _ (by decide)
  · simp (disch := omega) [decodeWord, decodeMask, fld_eq, tyFld_eq, ofCode_code, ofCode_code_add, Nat.mod_eq_of_lt]
    omega

theorem knot (d : KReg) (a : KReg) : Statement (.knot d a) := by
  refine roundtrip_of _ 4 (wordV 20 4 0 0 0 a.toNat d.toNat) rfl rfl (by decide) ?_ ?_ ?_
  · exact wordV_lt _ _ _ _ _ _ _ (by omega) (by omega) (by omega) (by omega) (by omega) (by omega) (by omega)
  · exact wordV_len _ _ _ _ _ _ _ (by decide)
  · simp (disch := omega) [decodeWord, decodeMask, fld_eq, tyFld_eq, ofCode_code, ofCode_code_add, Nat.mod_eq_of_lt]
    omega

theorem kfrom (d : KReg) (a : Reg) : Statement (.kfrom d a) := by
  refine roundtrip_of _ 4 (wordV 20 5 0 0 0 a.toNat d.toNat) rfl rfl (by decide) ?_ ?_ ?_
  · exact wordV_lt _ _ _ _ _ _ _ (by omega) (by omega) (by omega) (by omega) (by omega) (by omega) (by omega)
  · exact wordV_len _ _ _ _ _ _ _ (by decide)
  · simp (disch := omega) [decodeWord, decodeMask, fld_eq, tyFld_eq, ofCode_code, ofCode_code_add, Nat.mod_eq_of_lt]
    omega

theorem kto (d : Reg) (a : KReg) : Statement (.kto d a) := by
  refine roundtrip_of _ 4 (wordV 20 6 0 0 0 a.toNat d.toNat) rfl rfl (by decide) ?_ ?_ ?_
  · exact wordV_lt _ _ _ _ _ _ _ (by omega) (by omega) (by omega) (by omega) (by omega) (by omega) (by omega)
  · exact wordV_len _ _ _ _ _ _ _ (by decide)
  · simp (disch := omega) [decodeWord, decodeMask, fld_eq, tyFld_eq, ofCode_code, ofCode_code_add, Nat.mod_eq_of_lt]
    omega

theorem kpop (d : Reg) (a : KReg) : Statement (.kpop d a) := by
  refine roundtrip_of _ 4 (wordV 20 7 0 0 0 a.toNat d.toNat) rfl rfl (by decide) ?_ ?_ ?_
  · exact wordV_lt _ _ _ _ _ _ _ (by omega) (by omega) (by omega) (by omega) (by omega) (by omega) (by omega)
  · exact wordV_len _ _ _ _ _ _ _ (by decide)
  · simp (disch := omega) [decodeWord, decodeMask, fld_eq, tyFld_eq, ofCode_code, ofCode_code_add, Nat.mod_eq_of_lt]
    omega

theorem kfirst (d : Reg) (a : KReg) : Statement (.kfirst d a) := by
  refine roundtrip_of _ 4 (wordV 20 8 0 0 0 a.toNat d.toNat) rfl rfl (by decide) ?_ ?_ ?_
  · exact wordV_lt _ _ _ _ _ _ _ (by omega) (by omega) (by omega) (by omega) (by omega) (by omega) (by omega)
  · exact wordV_len _ _ _ _ _ _ _ (by decide)
  · simp (disch := omega) [decodeWord, decodeMask, fld_eq, tyFld_eq, ofCode_code, ofCode_code_add, Nat.mod_eq_of_lt]
    omega

theorem kfill (d : KReg) (a : Reg) : Statement (.kfill d a) := by
  refine roundtrip_of _ 4 (wordV 20 9 0 0 0 a.toNat d.toNat) rfl rfl (by decide) ?_ ?_ ?_
  · exact wordV_lt _ _ _ _ _ _ _ (by omega) (by omega) (by omega) (by omega) (by omega) (by omega) (by omega)
  · exact wordV_len _ _ _ _ _ _ _ (by decide)
  · simp (disch := omega) [decodeWord, decodeMask, fld_eq, tyFld_eq, ofCode_code, ofCode_code_add, Nat.mod_eq_of_lt]
    omega

theorem mlease (l : La) (d : Reg) (a : Reg) : Statement (.mlease l d a) := by
  refine roundtrip_of _ 4 (wordRR 21 l.toNat 0 0 a.toNat d.toNat) rfl rfl (by decide) ?_ ?_ ?_
  · exact wordRR_lt _ _ _ _ _ _ (by omega) (by omega) (by omega) (by omega) (by omega) (by omega)
  · exact wordRR_len _ _ _ _ _ _ (by decide)
  · simp (disch := omega) [decodeWord, decodeMat, fld_eq, tyFld_eq, ofCode_code, ofCode_code_add, Nat.mod_eq_of_lt]

theorem mrel : Statement .mrel := by
  refine roundtrip_of _ 4 (wordRR 21 0 1 0 0 0) rfl rfl (by decide) ?_ ?_ ?_
  · exact wordRR_lt _ _ _ _ _ _ (by omega) (by omega) (by omega) (by omega) (by omega) (by omega)
  · exact wordRR_len _ _ _ _ _ _ (by decide)
  · simp (disch := omega) [decodeWord, decodeMat, fld_eq, tyFld_eq, ofCode_code, ofCode_code_add, Nat.mod_eq_of_lt]

theorem mclaim (l : La) (d : Reg) (a : Reg) : Statement (.mclaim l d a) := by
  refine roundtrip_of _ 4 (wordRR 21 l.toNat 2 0 a.toNat d.toNat) rfl rfl (by decide) ?_ ?_ ?_
  · exact wordRR_lt _ _ _ _ _ _ (by omega) (by omega) (by omega) (by omega) (by omega) (by omega)
  · exact wordRR_len _ _ _ _ _ _ (by decide)
  · simp (disch := omega) [decodeWord, decodeMat, fld_eq, tyFld_eq, ofCode_code, ofCode_code_add, Nat.mod_eq_of_lt]

theorem mfree (a : Reg) : Statement (.mfree a) := by
  refine roundtrip_of _ 4 (wordRR 21 0 3 0 a.toNat 0) rfl rfl (by decide) ?_ ?_ ?_
  · exact wordRR_lt _ _ _ _ _ _ (by omega) (by omega) (by omega) (by omega) (by omega) (by omega)
  · exact wordRR_len _ _ _ _ _ _ (by decide)
  · simp (disch := omega) [decodeWord, decodeMat, fld_eq, tyFld_eq, ofCode_code, ofCode_code_add, Nat.mod_eq_of_lt]

theorem mzero (l : La) (d : Reg) : Statement (.mzero l d) := by
  refine roundtrip_of _ 4 (wordRR 21 l.toNat 4 0 0 d.toNat) rfl rfl (by decide) ?_ ?_ ?_
  · exact wordRR_lt _ _ _ _ _ _ (by omega) (by omega) (by omega) (by omega) (by omega) (by omega)
  · exact wordRR_len _ _ _ _ _ _ (by decide)
  · simp (disch := omega) [decodeWord, decodeMat, fld_eq, tyFld_eq, ofCode_code, ofCode_code_add, Nat.mod_eq_of_lt]

theorem mstat (l : La) (d : Reg) (a : Reg) : Statement (.mstat l d a) := by
  refine roundtrip_of _ 4 (wordRR 21 l.toNat 5 0 a.toNat d.toNat) rfl rfl (by decide) ?_ ?_ ?_
  · exact wordRR_lt _ _ _ _ _ _ (by omega) (by omega) (by omega) (by omega) (by omega) (by omega)
  · exact wordRR_len _ _ _ _ _ _ (by decide)
  · simp (disch := omega) [decodeWord, decodeMat, fld_eq, tyFld_eq, ofCode_code, ofCode_code_add, Nat.mod_eq_of_lt]

theorem mwait (l : La) (d : Reg) (a : Reg) : Statement (.mwait l d a) := by
  refine roundtrip_of _ 4 (wordRR 21 l.toNat 6 0 a.toNat d.toNat) rfl rfl (by decide) ?_ ?_ ?_
  · exact wordRR_lt _ _ _ _ _ _ (by omega) (by omega) (by omega) (by omega) (by omega) (by omega)
  · exact wordRR_len _ _ _ _ _ _ (by decide)
  · simp (disch := omega) [decodeWord, decodeMat, fld_eq, tyFld_eq, ofCode_code, ofCode_code_add, Nat.mod_eq_of_lt]

theorem sld (l : La) (d : Reg) (a : Reg) (b : Reg) : Statement (.sld l d a b) := by
  refine roundtrip_of _ 4 (wordRR 22 l.toNat 0 b.toNat a.toNat d.toNat) rfl rfl (by decide) ?_ ?_ ?_
  · exact wordRR_lt _ _ _ _ _ _ (by omega) (by omega) (by omega) (by omega) (by omega) (by omega)
  · exact wordRR_len _ _ _ _ _ _ (by decide)
  · simp (disch := omega) [decodeWord, decodeSparse, fld_eq, tyFld_eq, ofCode_code, ofCode_code_add, Nat.mod_eq_of_lt]

theorem sst (d : Reg) (a : Reg) (b : Reg) : Statement (.sst d a b) := by
  refine roundtrip_of _ 4 (wordRR 22 0 1 b.toNat a.toNat d.toNat) rfl rfl (by decide) ?_ ?_ ?_
  · exact wordRR_lt _ _ _ _ _ _ (by omega) (by omega) (by omega) (by omega) (by omega) (by omega)
  · exact wordRR_len _ _ _ _ _ _ (by decide)
  · simp (disch := omega) [decodeWord, decodeSparse, fld_eq, tyFld_eq, ofCode_code, ofCode_code_add, Nat.mod_eq_of_lt]

theorem sadd (d : Reg) (a : Reg) (b : Reg) : Statement (.sadd d a b) := by
  refine roundtrip_of _ 4 (wordRR 22 0 2 b.toNat a.toNat d.toNat) rfl rfl (by decide) ?_ ?_ ?_
  · exact wordRR_lt _ _ _ _ _ _ (by omega) (by omega) (by omega) (by omega) (by omega) (by omega)
  · exact wordRR_len _ _ _ _ _ _ (by decide)
  · simp (disch := omega) [decodeWord, decodeSparse, fld_eq, tyFld_eq, ofCode_code, ofCode_code_add, Nat.mod_eq_of_lt]

theorem sclose (a : Reg) : Statement (.sclose a) := by
  refine roundtrip_of _ 4 (wordRR 22 0 3 0 a.toNat 0) rfl rfl (by decide) ?_ ?_ ?_
  · exact wordRR_lt _ _ _ _ _ _ (by omega) (by omega) (by omega) (by omega) (by omega) (by omega)
  · exact wordRR_len _ _ _ _ _ _ (by decide)
  · simp (disch := omega) [decodeWord, decodeSparse, fld_eq, tyFld_eq, ofCode_code, ofCode_code_add, Nat.mod_eq_of_lt]

theorem sstat (l : La) (d : Reg) (a : Reg) (b : Reg) : Statement (.sstat l d a b) := by
  refine roundtrip_of _ 4 (wordRR 22 l.toNat 4 b.toNat a.toNat d.toNat) rfl rfl (by decide) ?_ ?_ ?_
  · exact wordRR_lt _ _ _ _ _ _ (by omega) (by omega) (by omega) (by omega) (by omega) (by omega)
  · exact wordRR_len _ _ _ _ _ _ (by decide)
  · simp (disch := omega) [decodeWord, decodeSparse, fld_eq, tyFld_eq, ofCode_code, ofCode_code_add, Nat.mod_eq_of_lt]

theorem ldg (l : La) (d : Reg) (a : Reg) (b : Reg) : Statement (.ldg l d a b) := by
  refine roundtrip_of _ 4 (wordRR 23 l.toNat 0 b.toNat a.toNat d.toNat) rfl rfl (by decide) ?_ ?_ ?_
  · exact wordRR_lt _ _ _ _ _ _ (by omega) (by omega) (by omega) (by omega) (by omega) (by omega)
  · exact wordRR_len _ _ _ _ _ _ (by decide)
  · simp (disch := omega) [decodeWord, decodeGrid, fld_eq, tyFld_eq, ofCode_code, ofCode_code_add, Nat.mod_eq_of_lt]

theorem stg (d : Reg) (a : Reg) (b : Reg) : Statement (.stg d a b) := by
  refine roundtrip_of _ 4 (wordRR 23 0 1 b.toNat a.toNat d.toNat) rfl rfl (by decide) ?_ ?_ ?_
  · exact wordRR_lt _ _ _ _ _ _ (by omega) (by omega) (by omega) (by omega) (by omega) (by omega)
  · exact wordRR_len _ _ _ _ _ _ (by decide)
  · simp (disch := omega) [decodeWord, decodeGrid, fld_eq, tyFld_eq, ofCode_code, ofCode_code_add, Nat.mod_eq_of_lt]

theorem gstep (l : La) (d : Reg) (a : Reg) (b : Reg) : Statement (.gstep l d a b) := by
  refine roundtrip_of _ 4 (wordRR 23 l.toNat 2 b.toNat a.toNat d.toNat) rfl rfl (by decide) ?_ ?_ ?_
  · exact wordRR_lt _ _ _ _ _ _ (by omega) (by omega) (by omega) (by omega) (by omega) (by omega)
  · exact wordRR_len _ _ _ _ _ _ (by decide)
  · simp (disch := omega) [decodeWord, decodeGrid, fld_eq, tyFld_eq, ofCode_code, ofCode_code_add, Nat.mod_eq_of_lt]

theorem gwait (l : La) (d : Reg) (a : Reg) (b : Reg) : Statement (.gwait l d a b) := by
  refine roundtrip_of _ 4 (wordRR 23 l.toNat 3 b.toNat a.toNat d.toNat) rfl rfl (by decide) ?_ ?_ ?_
  · exact wordRR_lt _ _ _ _ _ _ (by omega) (by omega) (by omega) (by omega) (by omega) (by omega)
  · exact wordRR_len _ _ _ _ _ _ (by decide)
  · simp (disch := omega) [decodeWord, decodeGrid, fld_eq, tyFld_eq, ofCode_code, ofCode_code_add, Nat.mod_eq_of_lt]

theorem gstat (l : La) (d : Reg) (a : Reg) (b : Reg) : Statement (.gstat l d a b) := by
  refine roundtrip_of _ 4 (wordRR 23 l.toNat 4 b.toNat a.toNat d.toNat) rfl rfl (by decide) ?_ ?_ ?_
  · exact wordRR_lt _ _ _ _ _ _ (by omega) (by omega) (by omega) (by omega) (by omega) (by omega)
  · exact wordRR_len _ _ _ _ _ _ (by decide)
  · simp (disch := omega) [decodeWord, decodeGrid, fld_eq, tyFld_eq, ofCode_code, ofCode_code_add, Nat.mod_eq_of_lt]

theorem pref (a : Reg) (b : Reg) : Statement (.pref a b) := by
  refine roundtrip_of _ 4 (wordRR 24 0 0 b.toNat a.toNat 0) rfl rfl (by decide) ?_ ?_ ?_
  · exact wordRR_lt _ _ _ _ _ _ (by omega) (by omega) (by omega) (by omega) (by omega) (by omega)
  · exact wordRR_len _ _ _ _ _ _ (by decide)
  · simp (disch := omega) [decodeWord, decodeCache, fld_eq, tyFld_eq, ofCode_code, ofCode_code_add, Nat.mod_eq_of_lt]

theorem res (a : Reg) (b : Reg) : Statement (.res a b) := by
  refine roundtrip_of _ 4 (wordRR 24 0 1 b.toNat a.toNat 0) rfl rfl (by decide) ?_ ?_ ?_
  · exact wordRR_lt _ _ _ _ _ _ (by omega) (by omega) (by omega) (by omega) (by omega) (by omega)
  · exact wordRR_len _ _ _ _ _ _ (by decide)
  · simp (disch := omega) [decodeWord, decodeCache, fld_eq, tyFld_eq, ofCode_code, ofCode_code_add, Nat.mod_eq_of_lt]

theorem unres (a : Reg) (b : Reg) : Statement (.unres a b) := by
  refine roundtrip_of _ 4 (wordRR 24 0 2 b.toNat a.toNat 0) rfl rfl (by decide) ?_ ?_ ?_
  · exact wordRR_lt _ _ _ _ _ _ (by omega) (by omega) (by omega) (by omega) (by omega) (by omega)
  · exact wordRR_len _ _ _ _ _ _ (by decide)
  · simp (disch := omega) [decodeWord, decodeCache, fld_eq, tyFld_eq, ofCode_code, ofCode_code_add, Nat.mod_eq_of_lt]

theorem flush (a : Reg) (b : Reg) : Statement (.flush a b) := by
  refine roundtrip_of _ 4 (wordRR 24 0 3 b.toNat a.toNat 0) rfl rfl (by decide) ?_ ?_ ?_
  · exact wordRR_lt _ _ _ _ _ _ (by omega) (by omega) (by omega) (by omega) (by omega) (by omega)
  · exact wordRR_len _ _ _ _ _ _ (by decide)
  · simp (disch := omega) [decodeWord, decodeCache, fld_eq, tyFld_eq, ofCode_code, ofCode_code_add, Nat.mod_eq_of_lt]

theorem inv (a : Reg) (b : Reg) : Statement (.inv a b) := by
  refine roundtrip_of _ 4 (wordRR 24 0 4 b.toNat a.toNat 0) rfl rfl (by decide) ?_ ?_ ?_
  · exact wordRR_lt _ _ _ _ _ _ (by omega) (by omega) (by omega) (by omega) (by omega) (by omega)
  · exact wordRR_len _ _ _ _ _ _ (by decide)
  · simp (disch := omega) [decodeWord, decodeCache, fld_eq, tyFld_eq, ofCode_code, ofCode_code_add, Nat.mod_eq_of_lt]

theorem dinv (a : Reg) : Statement (.dinv a) := by
  refine roundtrip_of _ 4 (wordRR 24 0 5 0 a.toNat 0) rfl rfl (by decide) ?_ ?_ ?_
  · exact wordRR_lt _ _ _ _ _ _ (by omega) (by omega) (by omega) (by omega) (by omega) (by omega)
  · exact wordRR_len _ _ _ _ _ _ (by decide)
  · simp (disch := omega) [decodeWord, decodeCache, fld_eq, tyFld_eq, ofCode_code, ofCode_code_add, Nat.mod_eq_of_lt]

theorem copy (l : La) (d : Reg) (a : Reg) (n : BitVec 7) : Statement (.copy l d a n) := by
  refine roundtrip_of _ 8 (wordX 28 n.toNat 0 l.toNat 0 0 0 a.toNat d.toNat) rfl rfl (by decide) ?_ ?_ ?_
  · exact wordX_lt _ _ _ _ _ _ _ _ _ (by omega) (by omega) (by omega) (by omega) (by omega) (by omega) (by omega) (by omega) (by omega)
  · exact wordX_len _ _ _ _ _ _ _ _ _ (by decide) (by decide)
  · simp (disch := omega) [decodeX, decodeEng, fld_eq, tyFld_eq, ofCode_code, ofCode_code_add, Nat.mod_eq_of_lt]
    omega

theorem copym (l : La) (d : Reg) (a : Reg) (n : BitVec 7) : Statement (.copym l d a n) := by
  refine roundtrip_of _ 8 (wordX 28 n.toNat 0 l.toNat 1 0 0 a.toNat d.toNat) rfl rfl (by decide) ?_ ?_ ?_
  · exact wordX_lt _ _ _ _ _ _ _ _ _ (by omega) (by omega) (by omega) (by omega) (by omega) (by omega) (by omega) (by omega) (by omega)
  · exact wordX_len _ _ _ _ _ _ _ _ _ (by decide) (by decide)
  · simp (disch := omega) [decodeX, decodeEng, fld_eq, tyFld_eq, ofCode_code, ofCode_code_add, Nat.mod_eq_of_lt]
    omega

theorem get (l : La) (d : Reg) (a : Reg) (n : BitVec 7) : Statement (.get l d a n) := by
  refine roundtrip_of _ 8 (wordX 28 n.toNat 0 l.toNat 2 0 0 a.toNat d.toNat) rfl rfl (by decide) ?_ ?_ ?_
  · exact wordX_lt _ _ _ _ _ _ _ _ _ (by omega) (by omega) (by omega) (by omega) (by omega) (by omega) (by omega) (by omega) (by omega)
  · exact wordX_len _ _ _ _ _ _ _ _ _ (by decide) (by decide)
  · simp (disch := omega) [decodeX, decodeEng, fld_eq, tyFld_eq, ofCode_code, ofCode_code_add, Nat.mod_eq_of_lt]
    omega

theorem put (l : La) (d : Reg) (a : Reg) (n : BitVec 7) : Statement (.put l d a n) := by
  refine roundtrip_of _ 8 (wordX 28 n.toNat 0 l.toNat 3 0 0 a.toNat d.toNat) rfl rfl (by decide) ?_ ?_ ?_
  · exact wordX_lt _ _ _ _ _ _ _ _ _ (by omega) (by omega) (by omega) (by omega) (by omega) (by omega) (by omega) (by omega) (by omega)
  · exact wordX_len _ _ _ _ _ _ _ _ _ (by decide) (by decide)
  · simp (disch := omega) [decodeX, decodeEng, fld_eq, tyFld_eq, ofCode_code, ofCode_code_add, Nat.mod_eq_of_lt]
    omega

theorem dense (l : La) (d : Reg) (a : Reg) (n : BitVec 7) : Statement (.dense l d a n) := by
  refine roundtrip_of _ 8 (wordX 28 n.toNat 0 l.toNat 4 0 0 a.toNat d.toNat) rfl rfl (by decide) ?_ ?_ ?_
  · exact wordX_lt _ _ _ _ _ _ _ _ _ (by omega) (by omega) (by omega) (by omega) (by omega) (by omega) (by omega) (by omega) (by omega)
  · exact wordX_len _ _ _ _ _ _ _ _ _ (by decide) (by decide)
  · simp (disch := omega) [decodeX, decodeEng, fld_eq, tyFld_eq, ofCode_code, ofCode_code_add, Nat.mod_eq_of_lt]
    omega

theorem ctrx (l : La) (d : Reg) (a : Reg) (n : BitVec 7) : Statement (.ctrx l d a n) := by
  refine roundtrip_of _ 8 (wordX 28 n.toNat 0 l.toNat 5 0 0 a.toNat d.toNat) rfl rfl (by decide) ?_ ?_ ?_
  · exact wordX_lt _ _ _ _ _ _ _ _ _ (by omega) (by omega) (by omega) (by omega) (by omega) (by omega) (by omega) (by omega) (by omega)
  · exact wordX_len _ _ _ _ _ _ _ _ _ (by decide) (by decide)
  · simp (disch := omega) [decodeX, decodeEng, fld_eq, tyFld_eq, ofCode_code, ofCode_code_add, Nat.mod_eq_of_lt]
    omega

theorem ctrw (l : La) (d : Reg) (a : Reg) (n : BitVec 7) : Statement (.ctrw l d a n) := by
  refine roundtrip_of _ 8 (wordX 28 n.toNat 0 l.toNat 6 0 0 a.toNat d.toNat) rfl rfl (by decide) ?_ ?_ ?_
  · exact wordX_lt _ _ _ _ _ _ _ _ _ (by omega) (by omega) (by omega) (by omega) (by omega) (by omega) (by omega) (by omega) (by omega)
  · exact wordX_len _ _ _ _ _ _ _ _ _ (by decide) (by decide)
  · simp (disch := omega) [decodeX, decodeEng, fld_eq, tyFld_eq, ofCode_code, ofCode_code_add, Nat.mod_eq_of_lt]
    omega

theorem ctrr (l : La) (d : Reg) (n : BitVec 7) : Statement (.ctrr l d n) := by
  refine roundtrip_of _ 8 (wordX 28 n.toNat 0 l.toNat 7 0 0 0 d.toNat) rfl rfl (by decide) ?_ ?_ ?_
  · exact wordX_lt _ _ _ _ _ _ _ _ _ (by omega) (by omega) (by omega) (by omega) (by omega) (by omega) (by omega) (by omega) (by omega)
  · exact wordX_len _ _ _ _ _ _ _ _ _ (by decide) (by decide)
  · simp (disch := omega) [decodeX, decodeEng, fld_eq, tyFld_eq, ofCode_code, ofCode_code_add, Nat.mod_eq_of_lt]
    omega

theorem ctrrClear (l : La) (d : Reg) (n : BitVec 7) : Statement (.ctrrClear l d n) := by
  refine roundtrip_of _ 8 (wordX 28 n.toNat 1 l.toNat 7 0 0 0 d.toNat) rfl rfl (by decide) ?_ ?_ ?_
  · exact wordX_lt _ _ _ _ _ _ _ _ _ (by omega) (by omega) (by omega) (by omega) (by omega) (by omega) (by omega) (by omega) (by omega)
  · exact wordX_len _ _ _ _ _ _ _ _ _ (by decide) (by decide)
  · simp (disch := omega) [decodeX, decodeEng, fld_eq, tyFld_eq, ofCode_code, ofCode_code_add, Nat.mod_eq_of_lt]
    omega

theorem mfmt (a : Reg) : Statement (.mfmt a) := by
  refine roundtrip_of _ 8 (wordX 29 0 0 0 0 0 0 a.toNat 0) rfl rfl (by decide) ?_ ?_ ?_
  · exact wordX_lt _ _ _ _ _ _ _ _ _ (by omega) (by omega) (by omega) (by omega) (by omega) (by omega) (by omega) (by omega) (by omega)
  · exact wordX_len _ _ _ _ _ _ _ _ _ (by decide) (by decide)
  · simp (disch := omega) [decodeX, decodeMatx, fld_eq, tyFld_eq, ofCode_code, ofCode_code_add, Nat.mod_eq_of_lt]

theorem mlda (a : Reg) (b : Reg) (c : Reg) (n : BitVec 4) : Statement (.mlda a b c n) := by
  refine roundtrip_of _ 8 (wordX 29 n.toNat 0 0 1 c.toNat b.toNat a.toNat 0) rfl rfl (by decide) ?_ ?_ ?_
  · exact wordX_lt _ _ _ _ _ _ _ _ _ (by omega) (by omega) (by omega) (by omega) (by omega) (by omega) (by omega) (by omega) (by omega)
  · exact wordX_len _ _ _ _ _ _ _ _ _ (by decide) (by decide)
  · simp (disch := omega) [decodeX, decodeMatx, fld_eq, tyFld_eq, ofCode_code, ofCode_code_add, Nat.mod_eq_of_lt]
    omega

theorem mldb (a : Reg) (b : Reg) (c : Reg) (n : BitVec 4) : Statement (.mldb a b c n) := by
  refine roundtrip_of _ 8 (wordX 29 n.toNat 0 0 2 c.toNat b.toNat a.toNat 0) rfl rfl (by decide) ?_ ?_ ?_
  · exact wordX_lt _ _ _ _ _ _ _ _ _ (by omega) (by omega) (by omega) (by omega) (by omega) (by omega) (by omega) (by omega) (by omega)
  · exact wordX_len _ _ _ _ _ _ _ _ _ (by decide) (by decide)
  · simp (disch := omega) [decodeX, decodeMatx, fld_eq, tyFld_eq, ofCode_code, ofCode_code_add, Nat.mod_eq_of_lt]
    omega

theorem mldc (l : La) (d : Reg) (a : Reg) (b : Reg) : Statement (.mldc l d a b) := by
  refine roundtrip_of _ 8 (wordX 29 0 0 l.toNat 3 0 b.toNat a.toNat d.toNat) rfl rfl (by decide) ?_ ?_ ?_
  · exact wordX_lt _ _ _ _ _ _ _ _ _ (by omega) (by omega) (by omega) (by omega) (by omega) (by omega) (by omega) (by omega) (by omega)
  · exact wordX_len _ _ _ _ _ _ _ _ _ (by decide) (by decide)
  · simp (disch := omega) [decodeX, decodeMatx, fld_eq, tyFld_eq, ofCode_code, ofCode_code_add, Nat.mod_eq_of_lt]

theorem mma (l : La) (d : Reg) (a : Reg) (b : Reg) : Statement (.mma l d a b) := by
  refine roundtrip_of _ 8 (wordX 29 0 0 l.toNat 4 0 b.toNat a.toNat d.toNat) rfl rfl (by decide) ?_ ?_ ?_
  · exact wordX_lt _ _ _ _ _ _ _ _ _ (by omega) (by omega) (by omega) (by omega) (by omega) (by omega) (by omega) (by omega) (by omega)
  · exact wordX_len _ _ _ _ _ _ _ _ _ (by decide) (by decide)
  · simp (disch := omega) [decodeX, decodeMatx, fld_eq, tyFld_eq, ofCode_code, ofCode_code_add, Nat.mod_eq_of_lt]

theorem mstc (d : Reg) (a : Reg) (b : Reg) (c : Reg) (r : BitVec 1) : Statement (.mstc d a b c r) := by
  refine roundtrip_of _ 8 (wordX 29 0 r.toNat 0 5 c.toNat b.toNat a.toNat d.toNat) rfl rfl (by decide) ?_ ?_ ?_
  · exact wordX_lt _ _ _ _ _ _ _ _ _ (by omega) (by omega) (by omega) (by omega) (by omega) (by omega) (by omega) (by omega) (by omega)
  · exact wordX_len _ _ _ _ _ _ _ _ _ (by decide) (by decide)
  · simp (disch := omega) [decodeX, decodeMatx, fld_eq, tyFld_eq, ofCode_code, ofCode_code_add, Nat.mod_eq_of_lt]
    omega

theorem mprog (a : Reg) : Statement (.mprog a) := by
  refine roundtrip_of _ 8 (wordX 29 0 0 0 6 0 0 a.toNat 0) rfl rfl (by decide) ?_ ?_ ?_
  · exact wordX_lt _ _ _ _ _ _ _ _ _ (by omega) (by omega) (by omega) (by omega) (by omega) (by omega) (by omega) (by omega) (by omega)
  · exact wordX_len _ _ _ _ _ _ _ _ _ (by decide) (by decide)
  · simp (disch := omega) [decodeX, decodeMatx, fld_eq, tyFld_eq, ofCode_code, ofCode_code_add, Nat.mod_eq_of_lt]

theorem mrun (l : La) (d : Reg) (a : Reg) (b : Reg) : Statement (.mrun l d a b) := by
  refine roundtrip_of _ 8 (wordX 29 0 0 l.toNat 7 0 b.toNat a.toNat d.toNat) rfl rfl (by decide) ?_ ?_ ?_
  · exact wordX_lt _ _ _ _ _ _ _ _ _ (by omega) (by omega) (by omega) (by omega) (by omega) (by omega) (by omega) (by omega) (by omega)
  · exact wordX_len _ _ _ _ _ _ _ _ _ (by decide) (by decide)
  · simp (disch := omega) [decodeX, decodeMatx, fld_eq, tyFld_eq, ofCode_code, ofCode_code_add, Nat.mod_eq_of_lt]

theorem vfma (l : La) (t : ElTy) (k : KReg) (d : Reg) (a : Reg) (b : Reg) (c : Reg) : Statement (.vfma l t k d a b c) := by
  have ht := code_lt t
  refine roundtrip_of _ 8 (wordX 30 t.code k.toNat l.toNat 0 c.toNat b.toNat a.toNat d.toNat) rfl rfl (by decide) ?_ ?_ ?_
  · exact wordX_lt _ _ _ _ _ _ _ _ _ (by omega) (by omega) (by omega) (by omega) (by omega) (by omega) (by omega) (by omega) (by omega)
  · exact wordX_len _ _ _ _ _ _ _ _ _ (by decide) (by decide)
  · simp (disch := omega) [decodeX, decodeVecx, fld_eq, tyFld_eq, ofCode_code, ofCode_code_add, Nat.mod_eq_of_lt]
    omega

theorem vfms (l : La) (t : ElTy) (k : KReg) (d : Reg) (a : Reg) (b : Reg) (c : Reg) : Statement (.vfms l t k d a b c) := by
  have ht := code_lt t
  refine roundtrip_of _ 8 (wordX 30 t.code k.toNat l.toNat 1 c.toNat b.toNat a.toNat d.toNat) rfl rfl (by decide) ?_ ?_ ?_
  · exact wordX_lt _ _ _ _ _ _ _ _ _ (by omega) (by omega) (by omega) (by omega) (by omega) (by omega) (by omega) (by omega) (by omega)
  · exact wordX_len _ _ _ _ _ _ _ _ _ (by decide) (by decide)
  · simp (disch := omega) [decodeX, decodeVecx, fld_eq, tyFld_eq, ofCode_code, ofCode_code_add, Nat.mod_eq_of_lt]
    omega

theorem vmad (l : La) (t : ElTy) (k : KReg) (d : Reg) (a : Reg) (b : Reg) (c : Reg) (r : BitVec 1) : Statement (.vmad l t k d a b c r) := by
  have ht := code_lt t
  refine roundtrip_of _ 8 (wordX 30 (t.code + r.toNat * 8) k.toNat l.toNat 2 c.toNat b.toNat a.toNat d.toNat) rfl rfl (by decide) ?_ ?_ ?_
  · exact wordX_lt _ _ _ _ _ _ _ _ _ (by omega) (by omega) (by omega) (by omega) (by omega) (by omega) (by omega) (by omega) (by omega)
  · exact wordX_len _ _ _ _ _ _ _ _ _ (by decide) (by decide)
  · simp (disch := omega) [decodeX, decodeVecx, fld_eq, tyFld_eq, ofCode_code, ofCode_code_add, Nat.mod_eq_of_lt]
    exact ⟨by omega, BitVec.eq_of_toNat_eq (by simp; omega)⟩

theorem vtopk (l : La) (t : ElTy) (k : KReg) (d : Reg) (a : Reg) (c : Reg) (n : BitVec 7) : Statement (.vtopk l t k d a c n) := by
  have ht := code_lt t
  refine roundtrip_of _ 8 (wordX 30 (t.code + n.toNat * 8) k.toNat l.toNat 3 c.toNat 0 a.toNat d.toNat) rfl rfl (by decide) ?_ ?_ ?_
  · exact wordX_lt _ _ _ _ _ _ _ _ _ (by omega) (by omega) (by omega) (by omega) (by omega) (by omega) (by omega) (by omega) (by omega)
  · exact wordX_len _ _ _ _ _ _ _ _ _ (by decide) (by decide)
  · simp (disch := omega) [decodeX, decodeVecx, fld_eq, tyFld_eq, ofCode_code, ofCode_code_add, Nat.mod_eq_of_lt]
    exact ⟨by omega, BitVec.eq_of_toNat_eq (by simp; omega)⟩

theorem vgather (l : La) (t : ElTy) (k : KReg) (d : Reg) (a : Reg) (b : Reg) : Statement (.vgather l t k d a b) := by
  have ht := code_lt t
  refine roundtrip_of _ 8 (wordX 30 t.code k.toNat l.toNat 4 0 b.toNat a.toNat d.toNat) rfl rfl (by decide) ?_ ?_ ?_
  · exact wordX_lt _ _ _ _ _ _ _ _ _ (by omega) (by omega) (by omega) (by omega) (by omega) (by omega) (by omega) (by omega) (by omega)
  · exact wordX_len _ _ _ _ _ _ _ _ _ (by decide) (by decide)
  · simp (disch := omega) [decodeX, decodeVecx, fld_eq, tyFld_eq, ofCode_code, ofCode_code_add, Nat.mod_eq_of_lt]
    omega

theorem vscatter (t : ElTy) (k : KReg) (d : Reg) (a : Reg) (b : Reg) : Statement (.vscatter t k d a b) := by
  have ht := code_lt t
  refine roundtrip_of _ 8 (wordX 30 t.code k.toNat 0 5 0 b.toNat a.toNat d.toNat) rfl rfl (by decide) ?_ ?_ ?_
  · exact wordX_lt _ _ _ _ _ _ _ _ _ (by omega) (by omega) (by omega) (by omega) (by omega) (by omega) (by omega) (by omega) (by omega)
  · exact wordX_len _ _ _ _ _ _ _ _ _ (by decide) (by decide)
  · simp (disch := omega) [decodeX, decodeVecx, fld_eq, tyFld_eq, ofCode_code, ofCode_code_add, Nat.mod_eq_of_lt]
    omega

theorem vdotl (l : La) (k : KReg) (d : Reg) (a : Reg) (b : Reg) (c : Reg) : Statement (.vdotl l k d a b c) := by
  refine roundtrip_of _ 8 (wordX 30 7 k.toNat l.toNat 6 c.toNat b.toNat a.toNat d.toNat) rfl rfl (by decide) ?_ ?_ ?_
  · exact wordX_lt _ _ _ _ _ _ _ _ _ (by omega) (by omega) (by omega) (by omega) (by omega) (by omega) (by omega) (by omega) (by omega)
  · exact wordX_len _ _ _ _ _ _ _ _ _ (by decide) (by decide)
  · simp (disch := omega) [decodeX, decodeVecx, fld_eq, tyFld_eq, ofCode_code, ofCode_code_add, Nat.mod_eq_of_lt]
    omega

theorem vdotb (l : La) (k : KReg) (d : Reg) (a : Reg) (b : Reg) (c : Reg) : Statement (.vdotb l k d a b c) := by
  refine roundtrip_of _ 8 (wordX 30 4 k.toNat l.toNat 7 c.toNat b.toNat a.toNat d.toNat) rfl rfl (by decide) ?_ ?_ ?_
  · exact wordX_lt _ _ _ _ _ _ _ _ _ (by omega) (by omega) (by omega) (by omega) (by omega) (by omega) (by omega) (by omega) (by omega)
  · exact wordX_len _ _ _ _ _ _ _ _ _ (by decide) (by decide)
  · simp (disch := omega) [decodeX, decodeVecx, fld_eq, tyFld_eq, ofCode_code, ofCode_code_add, Nat.mod_eq_of_lt]
    omega

theorem sdecl (l : La) (d : Reg) (a : Reg) : Statement (.sdecl l d a) := by
  refine roundtrip_of _ 8 (wordX 31 0 0 l.toNat 0 0 0 a.toNat d.toNat) rfl rfl (by decide) ?_ ?_ ?_
  · exact wordX_lt _ _ _ _ _ _ _ _ _ (by omega) (by omega) (by omega) (by omega) (by omega) (by omega) (by omega) (by omega) (by omega)
  · exact wordX_len _ _ _ _ _ _ _ _ _ (by decide) (by decide)
  · simp (disch := omega) [decodeX, decodeSgx, fld_eq, tyFld_eq, ofCode_code, ofCode_code_add, Nat.mod_eq_of_lt]

theorem sdeclFree (a : Reg) : Statement (.sdeclFree a) := by
  refine roundtrip_of _ 8 (wordX 31 0 1 0 0 0 0 a.toNat 0) rfl rfl (by decide) ?_ ?_ ?_
  · exact wordX_lt _ _ _ _ _ _ _ _ _ (by omega) (by omega) (by omega) (by omega) (by omega) (by omega) (by omega) (by omega) (by omega)
  · exact wordX_len _ _ _ _ _ _ _ _ _ (by decide) (by decide)
  · simp (disch := omega) [decodeX, decodeSgx, fld_eq, tyFld_eq, ofCode_code, ofCode_code_add, Nat.mod_eq_of_lt]

theorem siter (l : La) (d : Reg) (a : Reg) (b : Reg) : Statement (.siter l d a b) := by
  refine roundtrip_of _ 8 (wordX 31 0 0 l.toNat 1 0 b.toNat a.toNat d.toNat) rfl rfl (by decide) ?_ ?_ ?_
  · exact wordX_lt _ _ _ _ _ _ _ _ _ (by omega) (by omega) (by omega) (by omega) (by omega) (by omega) (by omega) (by omega) (by omega)
  · exact wordX_len _ _ _ _ _ _ _ _ _ (by decide) (by decide)
  · simp (disch := omega) [decodeX, decodeSgx, fld_eq, tyFld_eq, ofCode_code, ofCode_code_add, Nat.mod_eq_of_lt]

theorem snext (l : La) (d : Reg) (a : Reg) (b : Reg) (c : Reg) : Statement (.snext l d a b c) := by
  refine roundtrip_of _ 8 (wordX 31 0 0 l.toNat 2 c.toNat b.toNat a.toNat d.toNat) rfl rfl (by decide) ?_ ?_ ?_
  · exact wordX_lt _ _ _ _ _ _ _ _ _ (by omega) (by omega) (by omega) (by omega) (by omega) (by omega) (by omega) (by omega) (by omega)
  · exact wordX_len _ _ _ _ _ _ _ _ _ (by decide) (by decide)
  · simp (disch := omega) [decodeX, decodeSgx, fld_eq, tyFld_eq, ofCode_code, ofCode_code_add, Nat.mod_eq_of_lt]

theorem gdecl (l : La) (d : Reg) (a : Reg) : Statement (.gdecl l d a) := by
  refine roundtrip_of _ 8 (wordX 31 0 0 l.toNat 3 0 0 a.toNat d.toNat) rfl rfl (by decide) ?_ ?_ ?_
  · exact wordX_lt _ _ _ _ _ _ _ _ _ (by omega) (by omega) (by omega) (by omega) (by omega) (by omega) (by omega) (by omega) (by omega)
  · exact wordX_len _ _ _ _ _ _ _ _ _ (by decide) (by decide)
  · simp (disch := omega) [decodeX, decodeSgx, fld_eq, tyFld_eq, ofCode_code, ofCode_code_add, Nat.mod_eq_of_lt]

theorem gdeclFree (a : Reg) : Statement (.gdeclFree a) := by
  refine roundtrip_of _ 8 (wordX 31 0 1 0 3 0 0 a.toNat 0) rfl rfl (by decide) ?_ ?_ ?_
  · exact wordX_lt _ _ _ _ _ _ _ _ _ (by omega) (by omega) (by omega) (by omega) (by omega) (by omega) (by omega) (by omega) (by omega)
  · exact wordX_len _ _ _ _ _ _ _ _ _ (by decide) (by decide)
  · simp (disch := omega) [decodeX, decodeSgx, fld_eq, tyFld_eq, ofCode_code, ofCode_code_add, Nat.mod_eq_of_lt]

theorem addiN (d : Reg) (i : BitVec 6) : Statement (.addiN d i) := by
  refine roundtrip_of _ 2 (wordNI 0 0 i.toNat d.toNat) rfl rfl (by decide) ?_ ?_ ?_
  · exact wordNI_lt _ _ _ _ (by omega) (by omega) (by omega) (by omega)
  · exact wordNI_len _ _ _ _ (by decide)
  · simp (disch := omega) [decodeCompact, fld_eq, tyFld_eq, ofCode_code, ofCode_code_add, Nat.mod_eq_of_lt]

theorem liN (d : Reg) (i : BitVec 6) : Statement (.liN d i) := by
  refine roundtrip_of _ 2 (wordNI 0 1 i.toNat d.toNat) rfl rfl (by decide) ?_ ?_ ?_
  · exact wordNI_lt _ _ _ _ (by omega) (by omega) (by omega) (by omega)
  · exact wordNI_len _ _ _ _ (by decide)
  · simp (disch := omega) [decodeCompact, fld_eq, tyFld_eq, ofCode_code, ofCode_code_add, Nat.mod_eq_of_lt]

theorem shliN (d : Reg) (i : BitVec 6) : Statement (.shliN d i) := by
  refine roundtrip_of _ 2 (wordNI 0 2 i.toNat d.toNat) rfl rfl (by decide) ?_ ?_ ?_
  · exact wordNI_lt _ _ _ _ (by omega) (by omega) (by omega) (by omega)
  · exact wordNI_len _ _ _ _ (by decide)
  · simp (disch := omega) [decodeCompact, fld_eq, tyFld_eq, ofCode_code, ofCode_code_add, Nat.mod_eq_of_lt]

theorem addN (d : Reg) (a : Reg) : Statement (.addN d a) := by
  refine roundtrip_of _ 2 (wordNR 0 3 a.toNat 0 d.toNat) rfl rfl (by decide) ?_ ?_ ?_
  · exact wordNR_lt _ _ _ _ _ (by omega) (by omega) (by omega) (by omega) (by omega)
  · exact wordNR_len _ _ _ _ _ (by decide)
  · simp (disch := omega) [decodeCompact, fld_eq, tyFld_eq, ofCode_code, ofCode_code_add, Nat.mod_eq_of_lt]

theorem subN (d : Reg) (a : Reg) : Statement (.subN d a) := by
  refine roundtrip_of _ 2 (wordNR 0 3 a.toNat 1 d.toNat) rfl rfl (by decide) ?_ ?_ ?_
  · exact wordNR_lt _ _ _ _ _ (by omega) (by omega) (by omega) (by omega) (by omega)
  · exact wordNR_len _ _ _ _ _ (by decide)
  · simp (disch := omega) [decodeCompact, fld_eq, tyFld_eq, ofCode_code, ofCode_code_add, Nat.mod_eq_of_lt]

theorem mvN (d : Reg) (a : Reg) : Statement (.mvN d a) := by
  refine roundtrip_of _ 2 (wordNR 0 4 a.toNat 0 d.toNat) rfl rfl (by decide) ?_ ?_ ?_
  · exact wordNR_lt _ _ _ _ _ (by omega) (by omega) (by omega) (by omega) (by omega)
  · exact wordNR_len _ _ _ _ _ (by decide)
  · simp (disch := omega) [decodeCompact, fld_eq, tyFld_eq, ofCode_code, ofCode_code_add, Nat.mod_eq_of_lt]

theorem lddN (d : KReg) (a : KReg) (i : BitVec 5) : Statement (.lddN d a i) := by
  refine roundtrip_of _ 2 (wordNM 1 0 i.toNat a.toNat d.toNat) rfl rfl (by decide) ?_ ?_ ?_
  · exact wordNM_lt _ _ _ _ _ (by omega) (by omega) (by omega) (by omega) (by omega)
  · exact wordNM_len _ _ _ _ _ (by decide)
  · simp (disch := omega) [decodeCompact, fld_eq, tyFld_eq, ofCode_code, ofCode_code_add, Nat.mod_eq_of_lt]

theorem stdN (d : KReg) (a : KReg) (i : BitVec 5) : Statement (.stdN d a i) := by
  refine roundtrip_of _ 2 (wordNM 1 1 i.toNat a.toNat d.toNat) rfl rfl (by decide) ?_ ?_ ?_
  · exact wordNM_lt _ _ _ _ _ (by omega) (by omega) (by omega) (by omega) (by omega)
  · exact wordNM_len _ _ _ _ _ (by decide)
  · simp (disch := omega) [decodeCompact, fld_eq, tyFld_eq, ofCode_code, ofCode_code_add, Nat.mod_eq_of_lt]

theorem ldwN (d : KReg) (a : KReg) (i : BitVec 5) : Statement (.ldwN d a i) := by
  refine roundtrip_of _ 2 (wordNM 1 2 i.toNat a.toNat d.toNat) rfl rfl (by decide) ?_ ?_ ?_
  · exact wordNM_lt _ _ _ _ _ (by omega) (by omega) (by omega) (by omega) (by omega)
  · exact wordNM_len _ _ _ _ _ (by decide)
  · simp (disch := omega) [decodeCompact, fld_eq, tyFld_eq, ofCode_code, ofCode_code_add, Nat.mod_eq_of_lt]

theorem stwN (d : KReg) (a : KReg) (i : BitVec 5) : Statement (.stwN d a i) := by
  refine roundtrip_of _ 2 (wordNM 1 3 i.toNat a.toNat d.toNat) rfl rfl (by decide) ?_ ?_ ?_
  · exact wordNM_lt _ _ _ _ _ (by omega) (by omega) (by omega) (by omega) (by omega)
  · exact wordNM_len _ _ _ _ _ (by decide)
  · simp (disch := omega) [decodeCompact, fld_eq, tyFld_eq, ofCode_code, ofCode_code_add, Nat.mod_eq_of_lt]

theorem beqzN (a : KReg) (p : BitVec 8) : Statement (.beqzN a p) := by
  refine roundtrip_of _ 2 (wordNB 1 4 p.toNat a.toNat) rfl rfl (by decide) ?_ ?_ ?_
  · exact wordNB_lt _ _ _ _ (by omega) (by omega) (by omega) (by omega)
  · exact wordNB_len _ _ _ _ (by decide)
  · simp (disch := omega) [decodeCompact, fld_eq, tyFld_eq, ofCode_code, ofCode_code_add, Nat.mod_eq_of_lt]

theorem bnezN (a : KReg) (p : BitVec 8) : Statement (.bnezN a p) := by
  refine roundtrip_of _ 2 (wordNB 1 5 p.toNat a.toNat) rfl rfl (by decide) ?_ ?_ ?_
  · exact wordNB_lt _ _ _ _ (by omega) (by omega) (by omega) (by omega)
  · exact wordNB_len _ _ _ _ (by decide)
  · simp (disch := omega) [decodeCompact, fld_eq, tyFld_eq, ofCode_code, ofCode_code_add, Nat.mod_eq_of_lt]

theorem jN (p : BitVec 11) : Statement (.jN p) := by
  refine roundtrip_of _ 2 (wordNJ 2 0 p.toNat) rfl rfl (by decide) ?_ ?_ ?_
  · exact wordNJ_lt _ _ _ (by omega) (by omega) (by omega)
  · exact wordNJ_len _ _ _ (by decide)
  · simp (disch := omega) [decodeCompact, fld_eq, tyFld_eq, ofCode_code, ofCode_code_add, Nat.mod_eq_of_lt]

theorem jrN (a : Reg) : Statement (.jrN a) := by
  refine roundtrip_of _ 2 (wordNR 2 1 a.toNat 0 0) rfl rfl (by decide) ?_ ?_ ?_
  · exact wordNR_lt _ _ _ _ _ (by omega) (by omega) (by omega) (by omega) (by omega)
  · exact wordNR_len _ _ _ _ _ (by decide)
  · simp (disch := omega) [decodeCompact, fld_eq, tyFld_eq, ofCode_code, ofCode_code_add, Nat.mod_eq_of_lt]

theorem ldspN (d : Reg) (i : BitVec 6) : Statement (.ldspN d i) := by
  refine roundtrip_of _ 2 (wordNI 2 2 i.toNat d.toNat) rfl rfl (by decide) ?_ ?_ ?_
  · exact wordNI_lt _ _ _ _ (by omega) (by omega) (by omega) (by omega)
  · exact wordNI_len _ _ _ _ (by decide)
  · simp (disch := omega) [decodeCompact, fld_eq, tyFld_eq, ofCode_code, ofCode_code_add, Nat.mod_eq_of_lt]

theorem stspN (d : Reg) (i : BitVec 6) : Statement (.stspN d i) := by
  refine roundtrip_of _ 2 (wordNI 2 3 i.toNat d.toNat) rfl rfl (by decide) ?_ ?_ ?_
  · exact wordNI_lt _ _ _ _ (by omega) (by omega) (by omega) (by omega)
  · exact wordNI_len _ _ _ _ (by decide)
  · simp (disch := omega) [decodeCompact, fld_eq, tyFld_eq, ofCode_code, ofCode_code_add, Nat.mod_eq_of_lt]

theorem resultArrival (k : Nat) (i : Nat) : Statement (.resultArrival k i) := nofun

theorem trapEntry (k : Nat) : Statement (.trapEntry k) := nofun

theorem translatedAccess (r : AccessReq) : Statement (.translatedAccess r) := nofun

theorem pageWalk (die : Nat) (asid : Nat) (va : Nat) : Statement (.pageWalk die asid va) := nofun

theorem pageFaultAnswer (k : Nat) : Statement (.pageFaultAnswer k) := nofun

theorem replyResume (k : Nat) : Statement (.replyResume k) := nofun

theorem replySignal (k : Nat) : Statement (.replySignal k) := nofun

theorem replyKill (k : Nat) : Statement (.replyKill k) := nofun

theorem unitFaultReply (handle : Nat) (code : Nat) : Statement (.unitFaultReply handle code) := nofun

theorem rangeLockGrant (die : Nat) : Statement (.rangeLockGrant die) := nofun

theorem renewal (k : Nat) (pa : Nat) : Statement (.renewal k pa) := nofun

theorem writeBack (die : Nat) (line : Nat) : Statement (.writeBack die line) := nofun

theorem recallLine (line : Nat) : Statement (.recallLine line) := nofun

theorem ownedLineTimeout (die : Nat) (line : Nat) : Statement (.ownedLineTimeout die line) := nofun

theorem tokenReturn (home : Nat) (src : Nat) : Statement (.tokenReturn home src) := nofun

theorem tokenArrival (home : Nat) (src : Nat) : Statement (.tokenArrival home src) := nofun

theorem ltimeTick (die : Nat) : Statement (.ltimeTick die) := nofun

theorem lineTimestampVisit (line : Nat) : Statement (.lineTimestampVisit line) := nofun

theorem scWindowClose (die : Nat) : Statement (.scWindowClose die) := nofun

theorem scCompletion (k : Nat) : Statement (.scCompletion k) := nofun

theorem messageArrival (core : Nat) : Statement (.messageArrival core) := nofun

theorem bounce (core : Nat) : Statement (.bounce core) := nofun

theorem handlerStart (core : Nat) : Statement (.handlerStart core) := nofun

theorem distributorOffer (die : Nat) : Statement (.distributorOffer die) := nofun

theorem hostMessage (evq : Nat) : Statement (.hostMessage evq) := nofun

theorem followerExecute (k : Nat) : Statement (.followerExecute k) := nofun

theorem stealProbe (core : Nat) : Statement (.stealProbe core) := nofun

theorem stealClaim (core : Nat) : Statement (.stealClaim core) := nofun

theorem claimIncrementDone (core : Nat) : Statement (.claimIncrementDone core) := nofun

theorem stealDispatch (core : Nat) : Statement (.stealDispatch core) := nofun

theorem stealBackoff (core : Nat) : Statement (.stealBackoff core) := nofun

theorem rootDispatch (slot : Nat) : Statement (.rootDispatch slot) := nofun

theorem donationEntry (q : Nat) : Statement (.donationEntry q) := nofun

theorem syncWake (k : Nat) : Statement (.syncWake k) := nofun

theorem syncPoll (k : Nat) : Statement (.syncPoll k) := nofun

theorem overflowSpill (core : Nat) (kind : Nat) : Statement (.overflowSpill core kind) := nofun

theorem overflowRefill (core : Nat) (kind : Nat) : Statement (.overflowRefill core kind) := nofun

theorem teamTimeout (core : Nat) : Statement (.teamTimeout core) := nofun

theorem barxRelease (cluster : Nat) (team : Nat) (b : Nat) : Statement (.barxRelease cluster team b) := nofun

theorem mbxwTimeout (k : Nat) : Statement (.mbxwTimeout k) := nofun

theorem ctrwTimeout (k : Nat) : Statement (.ctrwTimeout k) := nofun

theorem wfiTimeout (k : Nat) : Statement (.wfiTimeout k) := nofun

theorem copySegment (die : Nat) (unit : Nat) : Statement (.copySegment die unit) := nofun

theorem copymUnit (die : Nat) (unit : Nat) : Statement (.copymUnit die unit) := nofun

theorem getChunk (die : Nat) (unit : Nat) : Statement (.getChunk die unit) := nofun

theorem putChunk (die : Nat) (unit : Nat) : Statement (.putChunk die unit) := nofun

theorem denseShard (die : Nat) : Statement (.denseShard die) := nofun

theorem byteAcknowledgement (core : Nat) : Statement (.byteAcknowledgement core) := nofun

theorem engineResume (die : Nat) (unit : Nat) : Statement (.engineResume die unit) := nofun

theorem completionInterrupt (k : Nat) : Statement (.completionInterrupt k) := nofun

theorem residualHoldSend (cluster : Nat) : Statement (.residualHoldSend cluster) := nofun

theorem leaseGrant (cluster : Nat) : Statement (.leaseGrant cluster) := nofun

theorem leaseSpent (core : Nat) : Statement (.leaseSpent core) := nofun

theorem leasedCommandStart (cluster : Nat) : Statement (.leasedCommandStart cluster) := nofun

theorem leasedCommandComplete (core : Nat) : Statement (.leasedCommandComplete core) := nofun

theorem slotFillComplete (cluster : Nat) (slot : Nat) : Statement (.slotFillComplete cluster slot) := nofun

theorem indexEngineEvent (k : Nat) : Statement (.indexEngineEvent k) := nofun

theorem accumulatorSpill (cluster : Nat) (i : Nat) : Statement (.accumulatorSpill cluster i) := nofun

theorem partHomeEvent (k : Nat) : Statement (.partHomeEvent k) := nofun

theorem haloPush (die : Nat) : Statement (.haloPush die) := nofun

theorem gridLoadTimeout (k : Nat) : Statement (.gridLoadTimeout k) := nofun

theorem gwaitTimeout (k : Nat) : Statement (.gwaitTimeout k) := nofun

theorem ltsetWrite (k : Nat) (x : Nat) : Statement (.ltsetWrite k x) := nofun

theorem ltperiodWrite (die : Nat) (x : Nat) : Statement (.ltperiodWrite die x) := nofun

theorem tepcWrite (k : Nat) (x : Nat) : Statement (.tepcWrite k x) := nofun

theorem tailWrite (q : Nat) (tail : Nat) (size : Nat) : Statement (.tailWrite q tail size) := nofun

theorem queueEntryRead (q : Nat) : Statement (.queueEntryRead q) := nofun

theorem phaseReread (q : Nat) : Statement (.phaseReread q) := nofun

theorem queueBind : Statement .queueBind := nofun

theorem ageingQuantum (q : Nat) : Statement (.ageingQuantum q) := nofun

theorem notbeforePassed (q : Nat) : Statement (.notbeforePassed q) := nofun

theorem limitExpiry (slot : Nat) : Statement (.limitExpiry slot) := nofun

theorem eventVectorSignal (evq : Nat) : Statement (.eventVectorSignal evq) := nofun

theorem eventHeadAdvance (evq : Nat) (head : Nat) : Statement (.eventHeadAdvance evq head) := nofun

theorem createQueue (seq : Nat) (q : Nat) (f : QueueSpec) : Statement (.createQueue seq q f) := nofun

theorem destroyQueue (seq : Nat) (q : Nat) : Statement (.destroyQueue seq q) := nofun

theorem createEvq (seq : Nat) (evq : Nat) (base : Nat) (entries : Nat) (header : Nat) (vector : Nat) : Statement (.createEvq seq evq base entries header vector) := nofun

theorem setQuantum (seq : Nat) (ns : Nat) : Statement (.setQuantum seq ns) := nofun

theorem setReserve (seq : Nat) (die : Nat) (map : Nat) : Statement (.setReserve seq die map) := nofun

theorem endLaunch (seq : Nat) (slot : Nat) : Statement (.endLaunch seq slot) := nofun

theorem preempt (seq : Nat) (slot : Nat) (area : Nat) (len : Nat) : Statement (.preempt seq slot area len) := nofun

theorem restore (seq : Nat) (slot : Nat) : Statement (.restore seq slot) := nofun

theorem biasflip (seq : Nat) (page : Nat) (host : Bool) : Statement (.biasflip seq page host) := nofun

theorem scrub (seq : Nat) (page : Nat) : Statement (.scrub seq page) := nofun

theorem dieLost (seq : Nat) (die : Nat) : Statement (.dieLost seq die) := nofun

theorem setClock (seq : Nat) (die : Nat) (mhz : Nat) : Statement (.setClock seq die mhz) := nofun

theorem setPower (seq : Nat) (die : Nat) (state : Nat) : Statement (.setPower seq die state) := nofun

theorem warmReset (seq : Nat) (die : Nat) : Statement (.warmReset seq die) := nofun

theorem clusterGate (seq : Nat) (cluster : Nat) (gate : Bool) : Statement (.clusterGate seq cluster gate) := nofun

theorem setEnvelope (seq : Nat) (watts : Nat) : Statement (.setEnvelope seq watts) := nofun

theorem setPkgnum (seq : Nat) (n : Nat) : Statement (.setPkgnum seq n) := nofun

theorem setRoute (seq : Nat) (f : RouteSpec) : Statement (.setRoute seq f) := nofun

theorem setGm (seq : Nat) (die : Nat) (sysref : Bool) : Statement (.setGm seq die sysref) := nofun

theorem hostcmd (seq : Nat) (core : Nat) (payload : Nat) : Statement (.hostcmd seq core payload) := nofun

theorem thermalTrip (sensor : Nat) : Statement (.thermalTrip sensor) := nofun

theorem coolantFlowTrip : Statement .coolantFlowTrip := nofun

theorem bringUp : Statement .bringUp := nofun

theorem attestationReport (nonce : Nat) : Statement (.attestationReport nonce) := nofun

theorem monitorControlWrite (die : Nat) (unit : Nat) (x : Nat) : Statement (.monitorControlWrite die unit x) := nofun

theorem monitorClear (die : Nat) (unit : Nat) : Statement (.monitorClear die unit) := nofun

theorem monitorLevelSample (die : Nat) (unit : Nat) : Statement (.monitorLevelSample die unit) := nofun

theorem treutExchange (die : Nat) : Statement (.treutExchange die) := nofun

theorem treutSyncReceive (die : Nat) : Statement (.treutSyncReceive die) := nofun

theorem followUpReceive (die : Nat) : Statement (.followUpReceive die) := nofun

theorem delayReqReceive (die : Nat) : Statement (.delayReqReceive die) := nofun

theorem delayRespReceive (die : Nat) : Statement (.delayRespReceive die) := nofun

theorem exchangeMissed (die : Nat) : Statement (.exchangeMissed die) := nofun

theorem linkRetry (link : Nat) : Statement (.linkRetry link) := nofun

theorem hostCxlAccess (store : Bool) (pa : Nat) (data : Nat) : Statement (.hostCxlAccess store pa data) := nofun

theorem hostWritebackCompletion (page : Nat) : Statement (.hostWritebackCompletion page) := nofun

end Roundtrip

end Sys2Proof.Laws
end

