-- ==== Sys2Proof/Tests/Slice0.lean ====
section
/-! SUPPORT. The model's own tests: an ill-formed instruction for each check of `WellFormed`; a word of every encoding, written out from the fields
of spec/opcode_table.json (01 to 14 of spec/), with the instruction that it stands for; states and operands that meet the hypotheses of
the obligations; and steps of single instructions, whose results come from the manual or from a calculation by hand. -/

set_option maxRecDepth 100000
set_option Elab.async false

namespace Sys2Proof.Tests

open Sys2Proof Sys2Proof.Machine

/-! ### Ill-formed instructions (R41, R46, R50, R52, R158) -/

theorem test_reserved_codes_refused :
    (Instr.sext 0 1 2 3).wellFormed = false ∧ (Instr.zext 0 1 2 3).wellFormed = false ∧ (Instr.fence 5).wellFormed = false ∧
    (Instr.pref 1 2).wellFormed = false ∧ (Instr.flush 1 2).wellFormed = false ∧ (Instr.inv 1 4).wellFormed = false := by decide

theorem test_reserved_csr_numbers_refused :
    (Instr.csrr 1 0x008).wellFormed = false ∧ (Instr.csrw 1 2 0x014).wellFormed = false ∧ (Instr.csrset 1 2 0x054).wellFormed = false ∧
    (Instr.csrclr 1 2 0x116).wellFormed = false := by decide

theorem test_element_types_refused :
    (Instr.vadd .fp32 0 1 2 3).wellFormed = false ∧ (Instr.vsub .l6 0 1 2 3).wellFormed = false ∧ (Instr.vmul .bf16 0 1 2 3).wellFormed = false ∧
    (Instr.vmulh .fp64 0 1 2 3).wellFormed = false ∧ (Instr.vmin .fp32 0 1 2 3).wellFormed = false ∧ (Instr.vmax .fp32 0 1 2 3).wellFormed = false ∧
    (Instr.vminu .fp32 0 1 2 3).wellFormed = false ∧ (Instr.vmaxu .fp32 0 1 2 3).wellFormed = false ∧ (Instr.vabs .fp32 0 1 2).wellFormed = false ∧
    (Instr.vand .fp32 0 1 2 3).wellFormed = false ∧ (Instr.vor .fp32 0 1 2 3).wellFormed = false ∧ (Instr.vxor .fp32 0 1 2 3).wellFormed = false ∧
    (Instr.vshl .fp32 0 1 2 3).wellFormed = false ∧ (Instr.vshr .fp32 0 1 2 3).wellFormed = false ∧ (Instr.vsar .fp32 0 1 2 3).wellFormed = false ∧
    (Instr.vcmp .fp32 1 2 3 0).wellFormed = false ∧ (Instr.viota .fp32 0 1).wellFormed = false ∧ (Instr.vredadd .fp32 0 1 2).wellFormed = false ∧
    (Instr.vmad 0 .fp32 0 1 2 3 4 0).wellFormed = false := by decide

theorem test_float_types_refused :
    (Instr.vfadd .i32 0 1 2 3).wellFormed = false ∧ (Instr.vfsub .i32 0 1 2 3).wellFormed = false ∧ (Instr.vfmul .l6 0 1 2 3).wellFormed = false ∧
    (Instr.vfdiv .i32 0 1 2 3).wellFormed = false ∧ (Instr.vfsqrt .i32 0 1 2).wellFormed = false ∧ (Instr.vfmin .i32 0 1 2 3).wellFormed = false ∧
    (Instr.vfmax .i32 0 1 2 3).wellFormed = false ∧ (Instr.vfabs .i32 0 1 2).wellFormed = false ∧ (Instr.vfneg .i32 0 1 2).wellFormed = false ∧
    (Instr.vfcmp .i32 1 2 3 0).wellFormed = false ∧ (Instr.vfrsq .i32 0 1 2).wellFormed = false ∧ (Instr.vfexp2 .i32 0 1 2).wellFormed = false ∧
    (Instr.vflog2 .i32 0 1 2).wellFormed = false ∧ (Instr.vflse .i32 0 1 2 3).wellFormed = false ∧ (Instr.vfrnd .i32 0 1 2 0).wellFormed = false ∧
    (Instr.vfclass .i32 0 1 2).wellFormed = false ∧ (Instr.vfredadd .i32 0 1 2).wellFormed = false ∧ (Instr.vfma 0 .i32 0 1 2 3 4).wellFormed = false ∧
    (Instr.vfms 0 .i32 0 1 2 3 4).wellFormed = false ∧ (Instr.vredmin .l6 0 1 2).wellFormed = false ∧ (Instr.vredmax .l6 0 1 2).wellFormed = false ∧
    (Instr.vscan .bf16 0 1 2).wellFormed = false := by decide

theorem test_packing_and_topk_refused :
    (Instr.vpack .i64 0 1 2 3).wellFormed = false ∧ (Instr.vpack .l6 0 1 2 3).wellFormed = false ∧ (Instr.vpack .l6 1 1 2 0).wellFormed = false ∧
    (Instr.vunpk .i8 0 1 2 0).wellFormed = false ∧ (Instr.vunpk .i16 0 1 2 2).wellFormed = false ∧ (Instr.vunpk .l6 0 1 2 1).wellFormed = false ∧
    (Instr.vtopk 0 .fp32 0 1 2 3 0).wellFormed = false ∧ (Instr.vtopk 0 .fp32 0 1 2 3 17).wellFormed = false ∧
    (Instr.vtopk 0 .l6 0 1 2 3 4).wellFormed = false := by decide

theorem test_compact_zero_registers_refused :
    (Instr.addiN 0 1).wellFormed = false ∧ (Instr.liN 0 1).wellFormed = false ∧ (Instr.shliN 0 1).wellFormed = false ∧ (Instr.addN 0 1).wellFormed = false ∧
    (Instr.subN 0 1).wellFormed = false ∧ (Instr.mvN 0 1).wellFormed = false ∧ (Instr.jrN 0).wellFormed = false ∧ (Instr.ldspN 0 1).wellFormed = false := by
  decide

/-- No word stands for an event (02_encoding): an event is not an instruction of the stream. -/
theorem test_events_are_no_encodings : Instr.bringUp.wellFormed = false ∧ (Instr.queueBind).wellFormed = false := by decide

/-- Unused fields must be zero (R46), and unassigned numbers are illegal (R52). -/
theorem test_reserved_words_refused :
    decodeTableWord 32 0x01401023 = none ∧ decodeTableWord 32 0x0FC00003 = none ∧ decodeTableWord 16 0xA014 = none ∧ decodeTableWord 16 0x0000 = none ∧
    decodeTableWord 32 0x0140002B = none := ⟨rfl, rfl, rfl, rfl, rfl⟩

/-! ### Words and their instructions -/

theorem test_decodes_major_00_part1 :
    decodeTableWord 32 0x502D2483 = some (.add 5 9 18 22) ∧
    decodeTableWord 32 0x506D2483 = some (.sub 5 9 18 22) ∧
    decodeTableWord 32 0x50AD2483 = some (.mul 5 9 18 22) ∧
    decodeTableWord 32 0x50ED2483 = some (.mulh 5 9 18 22) ∧
    decodeTableWord 32 0x512D2483 = some (.mulhu 5 9 18 22) ∧
    decodeTableWord 32 0x516D2483 = some (.div 5 9 18 22) ∧
    decodeTableWord 32 0x51AD2483 = some (.divu 5 9 18 22) ∧
    decodeTableWord 32 0x51ED2483 = some (.rem 5 9 18 22) ∧
    decodeTableWord 32 0x522D2483 = some (.remu 5 9 18 22) ∧
    decodeTableWord 32 0x526D2483 = some (.and 5 9 18 22) ∧
    decodeTableWord 32 0x52AD2483 = some (.or 5 9 18 22) ∧
    decodeTableWord 32 0x52ED2483 = some (.xor 5 9 18 22) := by
  refine ⟨rfl, rfl, rfl, rfl, rfl, rfl, rfl, rfl, rfl, rfl, rfl, rfl⟩

theorem test_decodes_major_00_part2 :
    decodeTableWord 32 0x532D2483 = some (.andn 5 9 18 22) ∧
    decodeTableWord 32 0x536D2483 = some (.shl 5 9 18 22) ∧
    decodeTableWord 32 0x53AD2483 = some (.shr 5 9 18 22) ∧
    decodeTableWord 32 0x53ED2483 = some (.sar 5 9 18 22) ∧
    decodeTableWord 32 0x542D2483 = some (.rotr 5 9 18 22) ∧
    decodeTableWord 32 0x546D2483 = some (.min 5 9 18 22) ∧
    decodeTableWord 32 0x54AD2483 = some (.max 5 9 18 22) ∧
    decodeTableWord 32 0x54ED2483 = some (.minu 5 9 18 22) ∧
    decodeTableWord 32 0x552D2483 = some (.maxu 5 9 18 22) ∧
    decodeTableWord 32 0x556D2483 = some (.slt 5 9 18 22) ∧
    decodeTableWord 32 0x55AD2483 = some (.sltu 5 9 18 22) ∧
    decodeTableWord 32 0x55ED2483 = some (.seq 5 9 18 22) := by
  refine ⟨rfl, rfl, rfl, rfl, rfl, rfl, rfl, rfl, rfl, rfl, rfl, rfl⟩

theorem test_decodes_major_00_part3 :
    decodeTableWord 32 0x56012483 = some (.clz 5 9 18) ∧
    decodeTableWord 32 0x56412483 = some (.ctz 5 9 18) ∧
    decodeTableWord 32 0x56812483 = some (.popc 5 9 18) ∧
    decodeTableWord 32 0x56C52483 = some (.sext 5 9 18 2) ∧
    decodeTableWord 32 0x57052483 = some (.zext 5 9 18 2) ∧
    decodeTableWord 32 0x576D2483 = some (.bfx 5 9 18 22) ∧
    decodeTableWord 32 0x57AD2483 = some (.bfi 5 9 18 22) ∧
    decodeTableWord 32 0x57ED2483 = some (.addsat 5 9 18 22) := by
  refine ⟨rfl, rfl, rfl, rfl, rfl, rfl, rfl, rfl⟩

theorem test_decodes_major_01 :
    decodeTableWord 32 0x4B412487 = some (.addi 9 18 1204) ∧
    decodeTableWord 32 0x4B432487 = some (.andi 9 18 1204) ∧
    decodeTableWord 32 0x4B452487 = some (.ori 9 18 1204) ∧
    decodeTableWord 32 0x4B472487 = some (.xori 9 18 1204) ∧
    decodeTableWord 32 0x4B492487 = some (.slti 9 18 1204) ∧
    decodeTableWord 32 0x4B4B2487 = some (.sltiu 9 18 1204) ∧
    decodeTableWord 32 0x0F4D2487 = some (.shifti 3 9 18 52) ∧
    decodeTableWord 32 0x4B4F2487 = some (.muli 9 18 1204) := by
  refine ⟨rfl, rfl, rfl, rfl, rfl, rfl, rfl, rfl⟩

theorem test_decodes_major_02 : decodeTableWord 32 0x4B4B448B = some (.lui 9 308404) := rfl

theorem test_decodes_major_03 : decodeTableWord 32 0x4B4B448F = some (.auipc 9 308404) := rfl

theorem test_decodes_major_04 :
    decodeTableWord 32 0x5B412493 = some (.ldB 5 9 18 180) ∧
    decodeTableWord 32 0x5B492493 = some (.ldBu 5 9 18 180) ∧
    decodeTableWord 32 0x5B432493 = some (.ldH 5 9 18 180) ∧
    decodeTableWord 32 0x5B4B2493 = some (.ldHu 5 9 18 180) ∧
    decodeTableWord 32 0x5B452493 = some (.ldW 5 9 18 180) ∧
    decodeTableWord 32 0x5B4D2493 = some (.ldWu 5 9 18 180) ∧
    decodeTableWord 32 0x5B472493 = some (.ldD 5 9 18 180) := by
  refine ⟨rfl, rfl, rfl, rfl, rfl, rfl, rfl⟩

theorem test_decodes_major_05 :
    decodeTableWord 32 0x0B412A17 = some (.stB 18 20 180) ∧
    decodeTableWord 32 0x0B432A17 = some (.stH 18 20 180) ∧
    decodeTableWord 32 0x0B452A17 = some (.stW 18 20 180) ∧
    decodeTableWord 32 0x0B472A17 = some (.stD 18 20 180) := by
  refine ⟨rfl, rfl, rfl, rfl⟩

theorem test_decodes_major_06 :
    decodeTableWord 32 0x4B412B1B = some (.beq 18 22 1204) ∧
    decodeTableWord 32 0x4B432B1B = some (.bne 18 22 1204) ∧
    decodeTableWord 32 0x4B452B1B = some (.blt 18 22 1204) ∧
    decodeTableWord 32 0x4B472B1B = some (.bge 18 22 1204) ∧
    decodeTableWord 32 0x4B492B1B = some (.bltu 18 22 1204) ∧
    decodeTableWord 32 0x4B4B2B1B = some (.bgeu 18 22 1204) ∧
    decodeTableWord 32 0x4B4C301B = some (.bkany 3 1204) ∧
    decodeTableWord 32 0x4B4E301B = some (.bknone 3 1204) := by
  refine ⟨rfl, rfl, rfl, rfl, rfl, rfl, rfl, rfl⟩

theorem test_decodes_major_07 : decodeTableWord 32 0x4B4B449F = some (.jl 9 308404) := rfl

theorem test_decodes_major_08 :
    decodeTableWord 32 0x000124A3 = some (.jlr 9 18) ∧
    decodeTableWord 32 0x004124A3 = some (.follow 9 18) ∧
    decodeTableWord 32 0x00800023 = some (.leave) ∧
    decodeTableWord 32 0x00CB44A3 = some (.rejoin 9 180) ∧
    decodeTableWord 32 0x01000023 = some (.yield) ∧
    decodeTableWord 32 0x01400023 = some (.nop) ∧
    decodeTableWord 32 0x519A5A23 = some (.hint) := by
  refine ⟨rfl, rfl, rfl, rfl, rfl, rfl, rfl⟩

theorem test_decodes_major_09_part1 :
    decodeTableWord 32 0x502D24A7 = some (.amoAdd 5 9 18 22) ∧
    decodeTableWord 32 0x506D24A7 = some (.amoAnd 5 9 18 22) ∧
    decodeTableWord 32 0x50AD24A7 = some (.amoOr 5 9 18 22) ∧
    decodeTableWord 32 0x50ED24A7 = some (.amoXor 5 9 18 22) ∧
    decodeTableWord 32 0x512D24A7 = some (.amoMin 5 9 18 22) ∧
    decodeTableWord 32 0x516D24A7 = some (.amoMax 5 9 18 22) ∧
    decodeTableWord 32 0x51AD24A7 = some (.amoMinu 5 9 18 22) ∧
    decodeTableWord 32 0x51ED24A7 = some (.amoMaxu 5 9 18 22) ∧
    decodeTableWord 32 0x522D24A7 = some (.amoSwap 5 9 18 22) ∧
    decodeTableWord 32 0x526D24A7 = some (.amoCas 5 9 18 22) ∧
    decodeTableWord 32 0x52AD24A7 = some (.amoAddn 5 9 18 22) ∧
    decodeTableWord 32 0x52C124A7 = some (.ldAcq 5 9 18) := by
  refine ⟨rfl, rfl, rfl, rfl, rfl, rfl, rfl, rfl, rfl, rfl, rfl, rfl⟩

theorem test_decodes_major_09_part2 :
    decodeTableWord 32 0x032D2027 = some (.stRel 18 22) ∧
    decodeTableWord 32 0x534124A7 = some (.ldSc 5 9 18) ∧
    decodeTableWord 32 0x03AD2027 = some (.stSc 18 22) ∧
    decodeTableWord 32 0x03C60027 = some (.fence 3) ∧
    decodeTableWord 32 0x04000027 = some (.fenceSc) := by
  refine ⟨rfl, rfl, rfl, rfl, rfl⟩

theorem test_decodes_major_0A_part1 :
    decodeTableWord 32 0x113004AB = some (.csrr 9 275) ∧
    decodeTableWord 32 0x113324AB = some (.csrw 9 18 275) ∧
    decodeTableWord 32 0x113524AB = some (.csrset 9 18 275) ∧
    decodeTableWord 32 0x113724AB = some (.csrclr 9 18 275) ∧
    decodeTableWord 32 0x0049202B = some (.trap 18) ∧
    decodeTableWord 32 0x0058002B = some (.eret) ∧
    decodeTableWord 32 0x0068002B = some (.uiret) ∧
    decodeTableWord 32 0x0079202B = some (.sreplyResume 18) ∧
    decodeTableWord 32 0x0179202B = some (.sreplySignal 18) ∧
    decodeTableWord 32 0x0279202B = some (.sreplyKill 18) ∧
    decodeTableWord 32 0x0189202B = some (.biasflipHost 18) ∧
    decodeTableWord 32 0x0089202B = some (.biasflipDevice 18) := by
  refine ⟨rfl, rfl, rfl, rfl, rfl, rfl, rfl, rfl, rfl, rfl, rfl, rfl⟩

theorem test_decodes_major_0A_part2 : decodeTableWord 32 0x0098002B = some (.wfi) := rfl

theorem test_decodes_major_0B :
    decodeTableWord 32 0x0001202F = some (.spawn 18) ∧
    decodeTableWord 32 0x0040002F = some (.sync) ∧
    decodeTableWord 32 0x0081202F = some (.pubf 18) ∧
    decodeTableWord 32 0x00C0002F = some (.taskend) ∧
    decodeTableWord 32 0x012D24AF = some (.donate 9 18 22) ∧
    decodeTableWord 32 0x016D202F = some (.jinit 18 22) ∧
    decodeTableWord 32 0x018124AF = some (.jdec 9 18) := by
  refine ⟨rfl, rfl, rfl, rfl, rfl, rfl, rfl⟩

theorem test_decodes_major_0C :
    decodeTableWord 32 0x002D2F33 = some (.send 18 22 30) ∧
    decodeTableWord 32 0x006D2F33 = some (.sendm 18 22 30) ∧
    decodeTableWord 32 0x00AD24B3 = some (.hset 9 18 22) ∧
    decodeTableWord 32 0x00C12033 = some (.hclr 18) ∧
    decodeTableWord 32 0x010124B3 = some (.hold 9 18) ∧
    decodeTableWord 32 0x014124B3 = some (.rels 9 18) ∧
    decodeTableWord 32 0x01AD24B3 = some (.hmask 9 18 22) ∧
    decodeTableWord 32 0x01C00033 = some (.hret) ∧
    decodeTableWord 32 0x022D24B3 = some (.mbxw 9 18 22) := by
  refine ⟨rfl, rfl, rfl, rfl, rfl, rfl, rfl, rfl, rfl⟩

theorem test_decodes_major_0D :
    decodeTableWord 32 0x002804B7 = some (.bara 9 20 0) ∧
    decodeTableWord 32 0x006804B7 = some (.barw 9 20 0) ∧
    decodeTableWord 32 0x00A804B7 = some (.barx 9 20 0) ∧
    decodeTableWord 32 0x00ED24B7 = some (.team 9 18 22) ∧
    decodeTableWord 32 0x012D24B7 = some (.geosub 9 18 22) := by
  refine ⟨rfl, rfl, rfl, rfl, rfl⟩

theorem test_decodes_major_0E :
    decodeTableWord 32 0x04C124BB = some (.vld .i32 3 9 18) ∧
    decodeTableWord 32 0x14C124BB = some (.vst .i32 3 9 18) ∧
    decodeTableWord 32 0x24ED24BB = some (.vlds .i32 3 9 18 22) ∧
    decodeTableWord 32 0x34ED24BB = some (.vsts .i32 3 9 18 22) ∧
    decodeTableWord 32 0x44C124BB = some (.vldb .i32 3 9 18) ∧
    decodeTableWord 32 0x54ED24BB = some (.vldi .i32 3 9 18 22) ∧
    decodeTableWord 32 0x64ED24BB = some (.vsti .i32 3 9 18 22) := by
  refine ⟨rfl, rfl, rfl, rfl, rfl, rfl, rfl⟩

theorem test_decodes_major_10_part1 :
    decodeTableWord 32 0x04ED24C3 = some (.vadd .i32 3 9 18 22) ∧
    decodeTableWord 32 0x14ED24C3 = some (.vsub .i32 3 9 18 22) ∧
    decodeTableWord 32 0x24ED24C3 = some (.vmul .i32 3 9 18 22) ∧
    decodeTableWord 32 0x34ED24C3 = some (.vmulh .i32 3 9 18 22) ∧
    decodeTableWord 32 0x44ED24C3 = some (.vmin .i32 3 9 18 22) ∧
    decodeTableWord 32 0x54ED24C3 = some (.vmax .i32 3 9 18 22) ∧
    decodeTableWord 32 0x64ED24C3 = some (.vminu .i32 3 9 18 22) ∧
    decodeTableWord 32 0x74ED24C3 = some (.vmaxu .i32 3 9 18 22) ∧
    decodeTableWord 32 0x84C124C3 = some (.vabs .i32 3 9 18) ∧
    decodeTableWord 32 0x94ED24C3 = some (.vand .i32 3 9 18 22) ∧
    decodeTableWord 32 0xA4ED24C3 = some (.vor .i32 3 9 18 22) ∧
    decodeTableWord 32 0xB4ED24C3 = some (.vxor .i32 3 9 18 22) := by
  refine ⟨rfl, rfl, rfl, rfl, rfl, rfl, rfl, rfl, rfl, rfl, rfl, rfl⟩

theorem test_decodes_major_10_part2 :
    decodeTableWord 32 0xC4ED24C3 = some (.vshl .i32 3 9 18 22) ∧
    decodeTableWord 32 0xD4ED24C3 = some (.vshr .i32 3 9 18 22) ∧
    decodeTableWord 32 0xE4ED24C3 = some (.vsar .i32 3 9 18 22) ∧
    decodeTableWord 32 0xF46D21C3 = some (.vcmp .i32 3 18 22 1) := by
  refine ⟨rfl, rfl, rfl, rfl⟩

theorem test_decodes_major_11_part1 :
    decodeTableWord 32 0x0AED24C7 = some (.vfadd .fp32 3 9 18 22) ∧
    decodeTableWord 32 0x1AED24C7 = some (.vfsub .fp32 3 9 18 22) ∧
    decodeTableWord 32 0x2AED24C7 = some (.vfmul .fp32 3 9 18 22) ∧
    decodeTableWord 32 0x3AED24C7 = some (.vfdiv .fp32 3 9 18 22) ∧
    decodeTableWord 32 0x4AC124C7 = some (.vfsqrt .fp32 3 9 18) ∧
    decodeTableWord 32 0x5AED24C7 = some (.vfmin .fp32 3 9 18 22) ∧
    decodeTableWord 32 0x6AED24C7 = some (.vfmax .fp32 3 9 18 22) ∧
    decodeTableWord 32 0x7AC124C7 = some (.vfabs .fp32 3 9 18) ∧
    decodeTableWord 32 0x8AC124C7 = some (.vfneg .fp32 3 9 18) ∧
    decodeTableWord 32 0x9A6D21C7 = some (.vfcmp .fp32 3 18 22 1) ∧
    decodeTableWord 32 0xAAC124C7 = some (.vfrsq .fp32 3 9 18) ∧
    decodeTableWord 32 0xBAC124C7 = some (.vfexp2 .fp32 3 9 18) := by
  refine ⟨rfl, rfl, rfl, rfl, rfl, rfl, rfl, rfl, rfl, rfl, rfl, rfl⟩

theorem test_decodes_major_11_part2 :
    decodeTableWord 32 0xCAC124C7 = some (.vflog2 .fp32 3 9 18) ∧
    decodeTableWord 32 0xDAED24C7 = some (.vflse .fp32 3 9 18 22) ∧
    decodeTableWord 32 0xEAC124C7 = some (.vfrnd .fp32 3 9 18 0) ∧
    decodeTableWord 32 0xFAC124C7 = some (.vfclass .fp32 3 9 18) := by
  refine ⟨rfl, rfl, rfl, rfl⟩

theorem test_decodes_major_12 :
    decodeTableWord 32 0x08ED24CB = some (.vcvt .bf16 3 9 18 22) ∧
    decodeTableWord 32 0x18C124CB = some (.vbcast .bf16 3 9 18) ∧
    decodeTableWord 32 0x282D24CB = some (.vext .bf16 9 18 22) ∧
    decodeTableWord 32 0x382D24CB = some (.vins .bf16 9 18 22) ∧
    decodeTableWord 32 0x44C004CB = some (.viota .i32 3 9) ∧
    decodeTableWord 32 0x54ED24CB = some (.vpack .i32 3 9 18 22) ∧
    decodeTableWord 32 0x66C324CB = some (.vunpk .i64 3 9 18 1) := by
  refine ⟨rfl, rfl, rfl, rfl, rfl, rfl, rfl⟩

theorem test_decodes_major_13 :
    decodeTableWord 32 0x08ED24CF = some (.vperm .bf16 3 9 18 22) ∧
    decodeTableWord 32 0x14ED24CF = some (.vslide .i32 3 9 18 22) ∧
    decodeTableWord 32 0x28ED24CF = some (.vsel .bf16 3 9 18 22) ∧
    decodeTableWord 32 0x34C124CF = some (.vredadd .i32 3 9 18) ∧
    decodeTableWord 32 0x44C124CF = some (.vredmin .i32 3 9 18) ∧
    decodeTableWord 32 0x54C124CF = some (.vredmax .i32 3 9 18) ∧
    decodeTableWord 32 0x6AC124CF = some (.vfredadd .fp32 3 9 18) ∧
    decodeTableWord 32 0x74C124CF = some (.vscan .i32 3 9 18) ∧
    decodeTableWord 32 0x84C124CF = some (.vcompr .i32 3 9 18) ∧
    decodeTableWord 32 0x94C124CF = some (.vexpnd .i32 3 9 18) := by
  refine ⟨rfl, rfl, rfl, rfl, rfl, rfl, rfl, rfl, rfl, rfl⟩

theorem test_decodes_major_14 :
    decodeTableWord 32 0x00065353 = some (.kand 6 5 3) ∧
    decodeTableWord 32 0x10065353 = some (.kor 6 5 3) ∧
    decodeTableWord 32 0x20065353 = some (.kxor 6 5 3) ∧
    decodeTableWord 32 0x30065353 = some (.kandn 6 5 3) ∧
    decodeTableWord 32 0x40005353 = some (.knot 6 5) ∧
    decodeTableWord 32 0x50012353 = some (.kfrom 6 18) ∧
    decodeTableWord 32 0x600054D3 = some (.kto 9 5) ∧
    decodeTableWord 32 0x700054D3 = some (.kpop 9 5) ∧
    decodeTableWord 32 0x800054D3 = some (.kfirst 9 5) ∧
    decodeTableWord 32 0x90012353 = some (.kfill 6 18) := by
  refine ⟨rfl, rfl, rfl, rfl, rfl, rfl, rfl, rfl, rfl, rfl⟩

theorem test_decodes_major_15 :
    decodeTableWord 32 0x500124D7 = some (.mlease 5 9 18) ∧
    decodeTableWord 32 0x00400057 = some (.mrel) ∧
    decodeTableWord 32 0x508124D7 = some (.mclaim 5 9 18) ∧
    decodeTableWord 32 0x00C12057 = some (.mfree 18) ∧
    decodeTableWord 32 0x510004D7 = some (.mzero 5 9) ∧
    decodeTableWord 32 0x514124D7 = some (.mstat 5 9 18) ∧
    decodeTableWord 32 0x518124D7 = some (.mwait 5 9 18) := by
  refine ⟨rfl, rfl, rfl, rfl, rfl, rfl, rfl⟩

theorem test_decodes_major_16 :
    decodeTableWord 32 0x502D24DB = some (.sld 5 9 18 22) ∧
    decodeTableWord 32 0x006D24DB = some (.sst 9 18 22) ∧
    decodeTableWord 32 0x00AD24DB = some (.sadd 9 18 22) ∧
    decodeTableWord 32 0x00C1205B = some (.sclose 18) ∧
    decodeTableWord 32 0x512D24DB = some (.sstat 5 9 18 22) := by
  refine ⟨rfl, rfl, rfl, rfl, rfl⟩

theorem test_decodes_major_17 :
    decodeTableWord 32 0x502D24DF = some (.ldg 5 9 18 22) ∧
    decodeTableWord 32 0x006D24DF = some (.stg 9 18 22) ∧
    decodeTableWord 32 0x50AD24DF = some (.gstep 5 9 18 22) ∧
    decodeTableWord 32 0x50ED24DF = some (.gwait 5 9 18 22) ∧
    decodeTableWord 32 0x512D24DF = some (.gstat 5 9 18 22) := by
  refine ⟨rfl, rfl, rfl, rfl, rfl⟩

theorem test_decodes_major_18 :
    decodeTableWord 32 0x00032063 = some (.pref 18 1) ∧
    decodeTableWord 32 0x006D2063 = some (.res 18 22) ∧
    decodeTableWord 32 0x00AD2063 = some (.unres 18 22) ∧
    decodeTableWord 32 0x00C32063 = some (.flush 18 1) ∧
    decodeTableWord 32 0x01072063 = some (.inv 18 3) ∧
    decodeTableWord 32 0x01412063 = some (.dinv 18) := by
  refine ⟨rfl, rfl, rfl, rfl, rfl, rfl⟩

theorem test_decodes_compact_bank_0 :
    decodeTableWord 16 0xD120 = some (.addiN 9 52) ∧
    decodeTableWord 16 0xD124 = some (.liN 9 52) ∧
    decodeTableWord 16 0xD128 = some (.shliN 9 52) ∧
    decodeTableWord 16 0x912C = some (.addN 9 18) ∧
    decodeTableWord 16 0x952C = some (.subN 9 18) ∧
    decodeTableWord 16 0x9130 = some (.mvN 9 18) := by
  refine ⟨rfl, rfl, rfl, rfl, rfl, rfl⟩

theorem test_decodes_compact_bank_1 :
    decodeTableWord 16 0xA5C1 = some (.lddN 6 5 20) ∧
    decodeTableWord 16 0xA5C5 = some (.stdN 6 5 20) ∧
    decodeTableWord 16 0xA5C9 = some (.ldwN 6 5 20) ∧
    decodeTableWord 16 0xA5CD = some (.stwN 6 5 20) ∧
    decodeTableWord 16 0xB4B1 = some (.beqzN 5 180) ∧
    decodeTableWord 16 0xB4B5 = some (.bnezN 5 180) := by
  refine ⟨rfl, rfl, rfl, rfl, rfl, rfl⟩

theorem test_decodes_compact_bank_2 :
    decodeTableWord 16 0x9682 = some (.jN 1204) ∧
    decodeTableWord 16 0x9006 = some (.jrN 18) ∧
    decodeTableWord 16 0xD12A = some (.ldspN 9 52) ∧
    decodeTableWord 16 0xD12E = some (.stspN 9 52) := by
  refine ⟨rfl, rfl, rfl, rfl⟩

/-! ### States for the witnesses and the steps -/

/-- A user context that runs at 0x1000 with traps enabled and these scalar registers. -/
def user (rs : List (Nat × Word)) : Ctx :=
  { Ctx.reset false with state := .running, pc := 0x1000, tvec := 0x2001, regs := { Regs.reset with s := rs } }

/-- The same in supervisor mode. -/
def super (rs : List (Nat × Word)) : Ctx :=
  { Ctx.reset true with state := .running, pc := 0x1000, svec := 0x2001, regs := { Regs.reset with s := rs } }

/-- A state with context k current and as given. -/
def put (k : Nat) (c : Ctx) (s : State) : State := { s.setCtx k c with cur := k }

/-- After reset, context 0 is a user context with these registers. -/
def one (rs : List (Nat × Word)) : State := put 0 (user rs) State.reset

/-- The same on service core 14. -/
def service (rs : List (Nat × Word)) : State := put 112 (super rs) State.reset

/-- An outstanding instruction at the first place, its successor issued. -/
def held (la : Nat) (r : Res) : Win :=
  { outst := [{ pos := 0, la := la, pc := 0x1000, next := 0x1004, dropped := [], res := r }], seq := 1, done := [], path := [], wrote := [] }

/-- A wait. -/
def waitFor (how : CtxState) (aux : List Nat) : Wait := { how := how, deadline := none, aux := aux }

/-- Context 0 owes nothing. -/
def owesNothing (s : State) : Bool :=
  decide ((∀ e ∈ (s.core (coreOf 0)).l1, e.2.dirty = 0) ∧ (∀ e ∈ (s.die (dieOf (coreOf 0))).owned, e.2.dirty = true → 0 ∉ e.2.writers) ∧
    (∀ b ∈ (s.die (dieOf (coreOf 0))).held, 0 ∉ b.copy.writers) ∧ s.tokensDue 0 = [])
theorem of_owesNothing {s : State} (h : owesNothing s = true) : s.Flushed 0 := by unfold State.Flushed; exact of_decide_eq_true h

/-- The states above are ready to issue, with traps enabled. -/
theorem witness_ready (rs : List (Nat × Word)) : (one rs).Ready ∧ ((one rs).ctx (one rs).cur).Enabled :=
  ⟨⟨rfl, rfl⟩, by show (0x2001 : Word).toNat % 2 = 1; decide, by show bit (0 : Word).toNat 63 = false; decide⟩
theorem witness_service_ready (rs : List (Nat × Word)) : (service rs).Ready ∧ ((service rs).ctx (service rs).cur).Enabled ∧
    ((service rs).ctx (service rs).cur).sup = true :=
  ⟨⟨rfl, rfl⟩, ⟨by show (0x2001 : Word).toNat % 2 = 1; decide, by show bit (0 : Word).toNat 63 = false; decide⟩, rfl⟩

/-! ### Answers of operations -/

/-- An outcome that is a next state. -/
def isNext : Host.Outcome State Fault Refusal → Bool
  | .next _ => true
  | _ => false

theorem next_of : ∀ {o : Host.Outcome State Fault Refusal}, isNext o = true → ∃ t, o = .next t
  | .next t, _ => ⟨t, rfl⟩

/-- A read or a write of memory that completes, and what it answers. -/
def isOk : MemRes → Bool
  | .ok .. => true
  | _ => false

def okValue : MemRes → Option Nat
  | .ok x _ => some x
  | _ => none

theorem ok_of : ∀ {r : MemRes}, isOk r = true → ∃ x t, r = .ok x t
  | .ok x t, _ => ⟨x, t, rfl⟩

theorem ok_value : ∀ {r : MemRes} {x : Nat}, okValue r = some x → ∃ t, r = .ok x t
  | .ok y t, _, h => ⟨t, by rw [Option.some.inj h]⟩

/-- A read that gives x, and a state after it of which P holds. -/
def answers (P : State → Bool) (x : Nat) : MemRes → Bool
  | .ok y t => y == x && P t
  | _ => false

theorem ok_and_value {P : State → Bool} {Q : State → Prop} {x : Nat} : ∀ {r : MemRes}, answers P x r = true → (∀ t, P t = true → Q t) →
    ∃ t, r = .ok x t ∧ Q t
  | .ok y t, h, f => ⟨t, by simp_all [answers]⟩

/-- A fetch that gives these bits, and a state after it of which P holds. -/
def fetches (P : State → Bool) (len w : Nat) : Fetched → Bool
  | .bits n x f => n == len && x == w && P f
  | _ => false

theorem fetches_of {P : State → Bool} {len w : Nat} : ∀ {r : Fetched}, fetches P len w r = true → ∃ f, r = .bits len w f ∧ P f = true
  | .bits n x f, h => ⟨f, by simp_all [fetches]⟩

/-! ### Witnesses: encodings, steps, registers and traps -/

theorem witness_EncodedInstructionsDecode : (Instr.addi 1 2 3).wellFormed = true ∧ (Instr.vtopk 0 .fp32 0 1 2 3 16).wellFormed = true := ⟨rfl, rfl⟩

theorem witness_AcceptedBytesAreEncodings : decode [0x23, 0x00, 0x40, 0x01] = .ok (.nop, 4) ∧ Instr.nop ≠ .hint := ⟨rfl, by decide⟩

/-- Both lengths of a first parcel that ends in 11, at the majors that part them, and the compact one. -/
theorem witness_FirstParcelDecidesLength :
    ofBytes [0x6F, 0x00] % 4 = 3 ∧ ofBytes [0x6F, 0x00] / 4 % 32 = 0x1B ∧ decode [0x6F, 0x00, 0x00] = .error .truncated ∧
    ofBytes [0x73, 0x00] / 4 % 32 = 0x1C ∧ decode [0x73, 0x00, 0x00, 0x00] = .error .truncated ∧
    decode [0x00, 0x05] = .ok (.addiN 8 1, 2) ∧ decode [0x23, 0x00, 0x40, 0x01] = .ok (.nop, 4) ∧
    decode [0xFB, 0x20, 0x06, 0x01, 0x12, 0x05, 0x00, 0x00] = .ok (.vfma 2 .fp32 1 1 2 3 4, 8) := ⟨rfl, rfl, rfl, rfl, rfl, rfl, rfl, rfl⟩

/-- An `ADD` that is placed where the first step fetches. -/
def placed : State := State.reset.withFetchWord 32 0x502D2483

theorem witness_StepRunsTheDecodedInstruction :
    placed.agent = .context 0 ∧ 0 < contextCount ∧ ((placed.scheduled (.context 0)).ctx 0).state ≠ .free ∧ (placed.scheduled (.context 0)).dark 0 = false ∧
    ∃ s1 : State, s1 = (placed.scheduled (.context 0)).unyield 0 ∧ s1.frozenLaunch 0 = false ∧ ((s1.core 0).counters.any fun e => e.2.uip) = false ∧
      (s1.ctx 0).retry = false ∧ (s1.ctx 0).win.stuck = false ∧ (s1.ctx 0).state = .running ∧ s1.yields 0 = false ∧ (s1.ctx 0).member = false ∧
      (s1.ctx 0).win.done.contains (s1.ctx 0).win.seq = false ∧ s1.portFull 0 = false ∧
      decodeBits 4 0x502D2483 = some (.add 5 9 18 22) ∧ ∃ f : State, s1.fetch 0 = .bits 4 0x502D2483 f ∧ (!f.holds 0 (.add 5 9 18 22)) = true := by
  refine ⟨by decide +kernel, by decide, by decide +kernel, by decide +kernel, _, rfl, by decide +kernel, by decide +kernel, by decide +kernel,
    by decide +kernel, by decide +kernel, by decide +kernel, by decide +kernel, by decide +kernel, by decide +kernel, rfl,
    fetches_of (P := fun f => !f.holds 0 (.add 5 9 18 22)) (by decide +kernel)⟩

theorem witness_IllegalBitsTrap : decodeBits 4 0x3F = none ∧ ((one []).ctx 0).win.outst = [] ∧ ((one []).ctx 0).Enabled := ⟨rfl, rfl, rfl, rfl⟩

theorem witness_StepsKeepMemoryCanonical : placed.MemOk ∧ ∃ t, step placed = .next t :=
  ⟨by unfold State.MemOk; decide +kernel, next_of (by decide +kernel)⟩

/-- A parked instruction whose window has run out, and one whose window is open before a serialising one. -/
def stuckAt (la : Nat) : State := put 0 { user [] with win := held la (.pend .sync Regs.reset (waitFor .parked [])) } State.reset

theorem witness_NothingIssuesPastAResultDue :
    (Instr.nop).wellFormed = true ∧ ((stuckAt 0).ctx 0).win.stuck = true ∧ ((stuckAt 3).ctx 0).win.stuck = false ∧ (Instr.fence 0).serial = true ∧
    ((stuckAt 3).ctx 0).win.waiting = true := by decide +kernel

theorem witness_ResultsAreWrittenAtTheirWindowsEnd :
    ∃ s : State, s = put 0 { user [] with win := held 0 (.ok [.s 5 7]) } State.reset ∧ (s.ctx 0).win.outst.any Outst.faulted = false ∧
      (∀ o ∈ (s.ctx 0).win.outst, ∀ w ∈ o.writes, w.isTile = false) ∧ (∀ o ∈ (s.ctx 0).win.outst, o.due (s.ctx 0).win.seq = true → o.pending = false) ∧
      (s.ctx 0).state = .running := ⟨_, rfl, by decide +kernel, by decide +kernel, by decide +kernel, rfl⟩

/-- Enabled in both modes; not enabled by EN and by INH. -/
theorem witness_TrapEntries :
    ((one []).ctx 0).Enabled ∧ ((one []).ctx 0).sup = false ∧ ((service []).ctx 112).Enabled ∧ ((service []).ctx 112).sup = true ∧
    ((put 0 { user [] with tvec := 0x2000 } State.reset).ctx 0).vec.toNat % 2 = 0 ∧
    ((put 0 { user [] with tcause := 0x8000000000000005 } State.reset).ctx 0).cause.getLsbD 63 = true ∧
    ((put 112 { super [] with svec := 0 } State.reset).ctx 112).vec.toNat % 2 = 0 := ⟨⟨rfl, rfl⟩, rfl, ⟨rfl, rfl⟩, rfl, rfl, rfl, rfl⟩

/-- A handler that runs, and an interrupt that is being served. -/
theorem witness_TrapInstructions :
    ((put 0 { user [] with tcause := 0x8000000000000005 } State.reset).ctx 0).cause.getLsbD 63 = true ∧ ((one []).ctx 0).cause.getLsbD 63 = false ∧
    ((put 0 { user [] with uien := 3 } State.reset).ctx 0).uien.getLsbD 1 = true ∧ ((one []).ctx 0).uien.getLsbD 1 = false ∧
    (put 0 { user [] with tcause := 0x8000000000000005 } State.reset).Ready ∧ (put 0 { user [] with uien := 3 } State.reset).Ready :=
  ⟨rfl, rfl, rfl, rfl, ⟨rfl, rfl⟩, rfl, rfl⟩

theorem witness_Divisions : (one [(4, 7), (5, 3)]).Ready ∧ ((one [(4, 7), (5, 3)]).ctx 0).regs.rs 5 ≠ 0 ∧ ((one [(4, 7)]).ctx 0).regs.rs 5 = 0 ∧
    (one [(4, 7)]).Ready ∧ ((one [(4, 7)]).ctx 0).Enabled := ⟨⟨rfl, rfl⟩, by decide +kernel, rfl, ⟨rfl, rfl⟩, rfl, rfl⟩

/-- Each branch condition both ways: equal, less in one order and not in the other. -/
theorem witness_Branches :
    let g := ((one [(4, 1), (5, 0xFFFFFFFFFFFFFFFF)]).ctx 0).regs
    (one [(4, 1), (5, 0xFFFFFFFFFFFFFFFF)]).Ready ∧ g.rs 4 = g.rs 4 ∧ g.rs 4 ≠ g.rs 5 ∧ (g.rs 5).toInt < (g.rs 4).toInt ∧ ¬(g.rs 4).toInt < (g.rs 5).toInt ∧
    (g.rs 4).toNat < (g.rs 5).toNat ∧ ¬(g.rs 5).toNat < (g.rs 4).toNat ∧ g.rk 0 ≠ 0 ∧ g.rk 1 = 0 ∧ g.rs 1 = 0 :=
  ⟨⟨rfl, rfl⟩, rfl, by decide +kernel, by decide +kernel, by decide +kernel, by decide +kernel, by decide +kernel, by decide +kernel, rfl, rfl⟩

theorem witness_JumpsAndHints :
    (one [(4, 0x2000)]).Ready ∧ (((one [(4, 0x2000)]).ctx 0).regs.rs 4).getLsbD 0 = false ∧ (((one [(4, 0x2001)]).ctx 0).regs.rs 4).getLsbD 0 = true ∧
    ((one [(4, 0x2001)]).ctx 0).Enabled := ⟨⟨rfl, rfl⟩, rfl, rfl, rfl, rfl⟩

/-! ### Witnesses: vector instructions -/

theorem witness_VectorFloats : (one []).Ready ∧ ElTy.bf16.isFloat = true ∧ ElTy.fp32.isFloat = true ∧ ElTy.fp64.isFloat = true := ⟨⟨rfl, rfl⟩, rfl, rfl, rfl⟩

/-- 1 and 1/2 is a number of FP32, and 1 + 2^-24 rounds to 1 with NX; 1 is finite, not zero, and -1 is negative. -/
theorem witness_FloatArithmetic :
    (fmtOf .fp32).round 0 false 3 (-1) = (0x3FC00000, 0) ∧ ((fmtOf .fp32).round 0 false (2 ^ 24 + 1) (-24)).1 = 0x3F800000 ∧
    ((fmtOf .fp32).round 0 false (2 ^ 24 + 1) (-24)).2.testBit 2 = false ∧
    (∃ m e, (fmtOf .fp32).read 0x3F800000 = .fin false m e ∧ m ≠ 0) ∧ (∃ m e, (fmtOf .fp32).read 0xBF800000 = .fin true m e ∧ m ≠ 0) :=
  ⟨by decide +kernel, by decide +kernel, by decide +kernel, ⟨_, _, rfl, by decide⟩, ⟨_, _, rfl, by decide⟩⟩

/-- A conversion that there is, one that there is none of, and packing. -/
theorem witness_VectorMoves :
    (one [(21, 5)]).Ready ∧ (cvtOf (((one [(21, 5)]).ctx 0).regs.rs 21)).refused .i32 = false ∧
    (cvtOf (((one [(21, 7)]).ctx 0).regs.rs 21)).refused .l6 = true ∧ ElTy.i8 ≠ .l6 := ⟨⟨rfl, rfl⟩, by decide +kernel, by decide +kernel, by decide⟩

theorem witness_VectorArrangement : (one []).Ready ∧ ElTy.i8.isInt = true ∧ ElTy.bf16.isFloat = true := ⟨⟨rfl, rfl⟩, rfl, rfl⟩

theorem witness_VectorXForms : (one []).Ready ∧ (1 : Reg) ≠ 2 ∧ ElTy.fp32 ≠ .l6 ∧ ((one []).ctx 0).Enabled := ⟨⟨rfl, rfl⟩, by decide, by decide, rfl, rfl⟩

/-! ### Witnesses: accesses, CSRs, atomics, ordering, system -/

/-- The memory of page tables that map VA 0 to 0x40000 for address space 1: the table of address spaces at 0x8000, four levels from 0x10000. -/
def tables (leaf : Nat) : Mem :=
  Mem.writeN (Mem.writeN (Mem.writeN (Mem.writeN (Mem.writeN [] 0x8008 8 0x10001) 0x10000 8 0x12001) 0x12000 8 0x14001) 0x14000 8 0x16001) 0x16000 8 leaf

/-- A leaf with V, R, W, X, U and LEAF, and these further bits, at 0x40000. -/
def leafOf (more : Nat) : Nat := 0x4009F + more

/-- A state whose dies have these tables, with the translation of VA 0 in die 0, and context k as given, in address space 1. -/
def mapped (leaf : Nat) (k : Nat) (c : Ctx) : State :=
  put k { c with asid := 1 } { State.reset with
    mem := (tables leaf).writeN 0x40000 8 0x1122334455667788
    dies := (List.range 8).map fun d => (d, { Die.reset with ptroot := 0x8001, up := true, tlb := [{ slice := sliceHash 1 0, asid := some 1, va := 0, size := 65536, pte := leaf, pteAt := 0x16000 }] }) }

/-- A load by the page tables above: s4 is 0, s5 8. -/
def mem0 (more : Nat) : State := mapped (leafOf more) 0 (user [(5, 8), (6, 0xF000000000000010)])

/-- The same by a leaf in host memory, and for a core of die 1. -/
def hostPage : State := mapped (2 ^ 51 + leafOf 0) 0 (user [(5, 8)])
def far : State := mapped (leafOf 0) 4096 (user [(5, 8)])
def mappedService : State := mapped (leafOf 0) 112 (super [(5, 8)])

/-- A core with a share of 8 KiB in the cluster window; s4 is the last doubleword of its private scratch, s5 the first of the cluster's. -/
def sharing : State :=
  put 0 (user [(4, 0xF00000000007CFF8), (5, 0xF100000000000000), (6, 0x0500000000000000), (7, 0xF00000000007CFF9), (8, 0xEFFFFFFFFFFFFFFC)])
    { State.reset with cores := [(0, { Core.reset 2 false 0 with pword := 0x10001 })] }


theorem witness_PageWalk :
    ((mem0 0).die 0).ptroot = 0x8001 ∧ (mem0 0).mem.readN 0x8008 8 = 0x10001 ∧ (mem0 0).mem.readN 0x10000 8 = 0x12001 ∧
    (mem0 0).mem.readN 0x12000 8 = 0x14001 ∧ (mem0 0).mem.readN 0x14000 8 = 0x16001 ∧ (mem0 0).mem.readN 0x16000 8 = 0x4009F ∧
    (mapped 0 0 (user [])).mem.readN 0x16000 8 = 0 ∧ (∀ a ∈ [0x8008, 0x10000, 0x12000, 0x14000, 0x16000], (mem0 0).poison.contains (a / 64) = false) ∧
    0x10001 / 2 ^ 13 % 2 ^ 39 * 2 ^ 13 = 0x10000 ∧ 0x8001 / 2 ^ 15 % 2 ^ 37 * 2 ^ 15 + 8 * 1 = 0x8008 := by decide +kernel

/-- A load and a store of the last doubleword of private scratch, and of the first of the cluster window. -/
theorem witness_ScratchAccesses :
    sharing.Ready ∧ sharing.loadOf (.ldD 3 9 4 0) = some (3, 9, 8, false, 0xF00000000007CFF8) ∧
    sharing.storeOf (.stD 5 9 0) = some (9, 8, 0xF100000000000000) ∧ sharing.InScratch 0 0xF00000000007CFF8 8 ∧ sharing.InScratch 0 0xF100000000000000 8 := by
  refine ⟨⟨rfl, rfl⟩, rfl, rfl, ?_, ?_⟩ <;> unfold State.InScratch <;> decide +kernel

/-- A window that is none; an access that runs from window 0xEF into 0xF0; the byte past private scratch; a share that the core lacks. -/
theorem witness_AccessesOutsideTheirWindow :
    (sharing.ctx 0).Enabled ∧ sharing.loadOf (.ldD 0 9 6 0) = some (0, 9, 8, false, 0x0500000000000000) ∧ winTag 0x0500000000000000 = 5 ∧
    sharing.loadOf (.ldD 0 9 8 0) = some (0, 9, 8, false, 0xEFFFFFFFFFFFFFFC) ∧ winTag (0xEFFFFFFFFFFFFFFC + 8 - 1) ≠ winTag 0xEFFFFFFFFFFFFFFC ∧
    sharing.storeOf (.stD 7 9 0) = some (9, 8, 0xF00000000007CFF9) ∧ sharing.scratchBytes 0 ≤ winOff (0xF00000000007CFF9 + 8 - 1) ∧
    winTag (0xF00000000007CFF9 + 8 - 1) = winTag 0xF00000000007CFF9 ∧
    (one [(5, 0xF100000000000000)]).loadOf (.ldB 0 9 5 0) = some (0, 9, 1, true, 0xF100000000000000) ∧ (one []).shareHas 0 0 = false :=
  ⟨⟨rfl, rfl⟩, rfl, rfl, rfl, by decide +kernel, rfl, by decide +kernel, by decide +kernel, rfl, by decide +kernel⟩

theorem witness_TranslatedLoads :
    (mem0 0).Ready ∧ (mem0 0).loadOf (.ldD 0 9 0 0) = some (0, 9, 8, false, 0) ∧ ((mem0 0).started (.ldD 0 9 0 0)).Passes 0 .load 0 8 0x40000 0x4009F ∧
    ∃ x s2, ((mem0 0).started (.ldD 0 9 0 0)).plainRead ((mem0 0).who 0) .load 0 8 = .ok x s2 :=
  ⟨⟨rfl, rfl⟩, rfl, ⟨rfl, by decide, by decide +kernel, by decide +kernel⟩, ok_of (by decide +kernel)⟩

/-- A store at home, to an NC page, to a host-bias page, and to the host's memory. -/
theorem witness_StoresAtHome :
    (mem0 0).Ready ∧ (mem0 0).storeOf (.stD 0 5 1) = some (5, 8, 8) ∧ ((mem0 0).started (.stD 0 5 1)).Passes 0 .store 8 8 0x40008 0x4009F ∧
    ((mem0 0x400).started (.stD 0 5 1)).Passes 0 .store 8 8 0x40008 0x4049F ∧ pteNC 0x4049F = true ∧
    ((mem0 0x40).started (.stD 0 5 1)).Passes 0 .store 8 8 0x40008 0x400DF ∧ pteBias 0x400DF = true ∧ (mem0 0).local_ 0x40008 = true ∧ homeDie 0x40008 = 0 ∧
    uncached 0x4049F = true ∧ uncached 0x400DF = true ∧ ((mem0 0).started (.stD 0 5 1)).inL1 ((mem0 0).who 0) .store 0x40008 0x4009F = false ∧
    (hostPage.started (.stD 0 5 1)).Passes 0 .store 8 8 (2 ^ 51 + 0x40008) (2 ^ 51 + 0x4009F) ∧ hostPage.local_ (2 ^ 51 + 0x40008) = false ∧
    (∀ j, j < 16 → (hostPage.core j).l1.find ((2 ^ 51 + 0x40008) / 64) = none) ∧
    ∃ y s2, ((mem0 0).started (.stD 0 5 1)).plainStore ((mem0 0).who 0) 8 8 8 = .ok y s2 := by
  refine ⟨⟨rfl, rfl⟩, rfl, ⟨rfl, by decide, by decide +kernel, by decide +kernel⟩, ⟨rfl, by decide, by decide +kernel, by decide +kernel⟩, by decide,
    ⟨rfl, by decide, by decide +kernel, by decide +kernel⟩, by decide, by decide +kernel, by decide +kernel, by decide +kernel, by decide +kernel,
    by decide +kernel, ⟨rfl, by decide, by decide +kernel, by decide +kernel⟩, by decide +kernel, by decide +kernel, ok_of (by decide +kernel)⟩

theorem witness_StoresUnderOwnership :
    far.Ready ∧ far.storeOf (.stD 0 5 1) = some (5, 8, 8) ∧ (far.started (.stD 0 5 1)).Passes 4096 .store 8 8 0x40008 0x4009F ∧
    far.local_ 0x40008 = true ∧ homeDie 0x40008 ≠ dieOf (coreOf 4096) ∧ uncached 0x4009F = false ∧
    (far.started (.stD 0 5 1)).inL1 (far.who 4096) .store 0x40008 0x4009F = false :=
  ⟨⟨rfl, rfl⟩, rfl, ⟨rfl, by decide, by decide +kernel, by decide +kernel⟩, rfl, by decide, by decide +kernel, by decide +kernel⟩

/-- A copy of that line in the core's L1, near or outside. -/
def copyOf (outside : Bool) : L1Line :=
  { data := 5, guest := false, wts := 0, rts := 0, outside := outside, fetched := false, va := 0, key := 1, dirty := 0, writers := [], pts := 0 }
def copied (outside : Bool) (s : State) : State := s.modCore (coreOf s.cur) fun x => { x with l1 := [(0x1000, copyOf outside)] }

theorem witness_StoresInTheL1 :
    ∀ s ∈ [copied true far, copied false (mem0 0), copied false far], s.Ready ∧ s.storeOf (.stD 0 5 1) = some (5, 8, 8) ∧
      (s.started (.stD 0 5 1)).Passes s.cur .store 8 8 0x40008 0x4009F ∧ (s.started (.stD 0 5 1)).inL1 (s.who s.cur) .store 0x40008 0x4009F = true ∧
      (((s.started (.stD 0 5 1)).spillCluster (coreOf s.cur) 0x1000 (some (coreOf s.cur))).core (coreOf s.cur)).l1.find 0x1000 ≠ none ∧
      (s.started (.stD 0 5 1)).linePinned (dieOf (coreOf s.cur)) 1 0 = false := by
  unfold State.Ready State.Passes; decide +kernel

/-- A load in user mode, a store in supervisor mode, of a page that no leaf maps. -/
theorem witness_PageFaultsOfAccesses :
    ((mem0 0).started (.ldD 2 9 5 0)).plainRead ((mem0 0).who 0) .load 0x10000 8 = .fault 0x10000 0 3 0 ∧ ((mem0 0).ctx 0).sup = false ∧
    (mappedService.started (.stD 5 9 0)).plainStore (mappedService.who 112) 0x10000 8 0 = .fault 0x10000 0 3 0 ∧ (mappedService.ctx 112).sup = true ∧
    (mapped (leafOf 0) 0 (user [(5, 0x10000)])).loadOf (.ldD 2 9 5 0) = some (2, 9, 8, false, 0x10000) ∧
    (mapped (leafOf 0) 112 (super [(5, 0x10000)])).storeOf (.stD 5 9 0) = some (9, 8, 0x10000) := ⟨rfl, rfl, rfl, rfl, rfl, rfl⟩

/-- A state whose k1 has bits 0 and 1 only: two INT32 elements at the end of private scratch. -/
def twoLanes (at_ : Word) : State := put 0 { user [(4, at_)] with regs := { s := [(4, at_)], v := [], k := [(1, 3)] } } State.reset

theorem witness_VectorMemory :
    (twoLanes 0xF00000000007EFF8).Ready ∧ (∃ f, (twoLanes 0xF00000000007EFF8).vmemOf (.vld .i32 1 2 4) = some (.i32, 1, 2, false, f) ∧
      f 1 = 0xF00000000007EFFC) ∧ (∃ f, (twoLanes 0xF00000000007EFF8).vmemOf (.vst .i32 1 2 4) = some (.i32, 1, 2, true, f)) ∧
    (twoLanes 0xF00000000007EFF8).InScratch 0 0xF00000000007EFF8 4 ∧ (twoLanes 0xF00000000007EFF8).InScratch 0 0xF00000000007EFFC 4 ∧
    (((twoLanes 0).ctx 0).regs.rk 1).getLsbD 1 = true ∧ (((twoLanes 0).ctx 0).regs.rk 1).getLsbD 2 = false := by
  refine ⟨⟨rfl, rfl⟩, ⟨_, rfl, rfl⟩, ⟨_, rfl⟩, ?_, ?_, by decide +kernel, by decide +kernel⟩ <;> unfold State.InScratch <;> decide +kernel

/-- The second element fails: past private scratch, in no scratch window, in a share that the core lacks; the first one does not. -/
theorem witness_VectorElementFaults :
    ((twoLanes 0).ctx 0).Enabled ∧ (twoLanes 0xF00000000007EFFC).InScratch 0 0xF00000000007EFFC 4 ∧
    (twoLanes 0xF00000000007EFFC).scratchBytes 0 < winOff 0xF00000000007F000 + 4 ∧ winTag 0xF00000000007F000 = 0xF0 ∧ winTag 0 = 0 ∧
    winTag 0xF100000000000000 = 0xF1 ∧ (twoLanes 0xF100000000000000).shareHas 0 0 = false := by
  refine ⟨⟨rfl, rfl⟩, ?_, by decide +kernel, by decide, by decide, by decide, by decide +kernel⟩
  unfold State.InScratch; decide +kernel

theorem read_of {α β γ : Type} [DecidableEq β] {x : α × Option β × γ} (h : x.2.1 = none) : ∃ a c, x = (a, none, c) := ⟨x.1, x.2.2, by rw [← h]⟩

/-- A gather and a scatter of element 0 at VA 0. -/
def gathering : State := mapped (leafOf 0) 0 { user [] with regs := { s := [], v := [], k := [(1, 1)] } }

theorem witness_TranslatedGathersAndScatters :
    gathering.Ready ∧ winTag 0 = 0 ∧ winTag (0 + 4 - 1) = 0 ∧
    (∃ got s2, gatherFrom (gathering.env (.vgather 0 .i32 1 2 4 5)) 4 (fun _ => 0) [0] [] none (gathering.started (.vgather 0 .i32 1 2 4 5)) [] = (got, none, s2)) ∧
    scatterStop (gathering.started (.vscatter .i32 1 2 4 5)) (gathering.env (.vscatter .i32 1 2 4 5)) 4 [0] = none :=
  ⟨⟨rfl, rfl⟩, by decide, by decide, read_of (by decide +kernel), by decide +kernel⟩

/-- Numbers at the edges: an unprivileged one, the first and the last privileged ones in supervisor mode, and those past them. -/
theorem witness_CsrAccesses :
    (one []).Ready ∧ Csr.listed 0x020 = true ∧ ((one []).ctx 0).sup = false ∧ (service []).Ready ∧ Csr.listed 0x100 = true ∧ Csr.listed 0x115 = true ∧
    ((service []).ctx 112).sup = true ∧ csrReadOnly 0x020 = false ∧ csrReadOnly 0x001 = true ∧ Csr.listed 0x008 = false ∧ Csr.listed 0x0FF = false ∧
    ((one []).ctx 0).Enabled := ⟨⟨rfl, rfl⟩, rfl, rfl, ⟨rfl, rfl⟩, rfl, rfl, rfl, rfl, rfl, rfl, rfl, rfl, rfl⟩

/-- An `AMO.ADD` of scratch and of memory; a store of a context that owes nothing; addresses that are not aligned and in no window. -/
theorem witness_Atomics :
    sharing.Ready ∧ sharing.Flushed 0 ∧ (∃ f w, sharing.atomOf (.amoAdd 0 9 4 6) = some (0, .atomic, 0xF00000000007CFF8, f, w, true)) ∧
    sharing.InScratch 0 0xF00000000007CFF8 8 ∧ sharing.InScratch 0 0xF100000000000000 8 ∧ (mem0 0).Flushed 0 ∧
    (∃ f w, (mem0 0).atomOf (.amoCas 0 9 0 6) = some (0, .atomic, 0, f, w, true)) ∧
    ((mem0 0).started (.amoCas 0 9 0 6)).Passes 0 .atomic 0 8 0x40000 0x4009F ∧
    (∃ f w, (mem0 0).atomOf (.stRel 0 5) = some (0, .rel, 0, f, w, false)) ∧ ((mem0 0).started (.stRel 0 5)).Passes 0 .rel 0 8 0x40000 0x4009F ∧
    (7 : Nat) % 8 ≠ 0 ∧ winTag 0x0500000000000000 = 5 := by
  refine ⟨⟨rfl, rfl⟩, ?_, ⟨_, _, rfl⟩, ?_, ?_, ?_, ⟨_, _, rfl⟩, ⟨rfl, by decide, by decide +kernel, by decide +kernel⟩, ⟨_, _, rfl⟩,
    ⟨rfl, by decide, by decide +kernel, by decide +kernel⟩, by decide, by decide⟩
  · unfold State.Flushed; decide +kernel
  · unfold State.InScratch; decide +kernel
  · unfold State.InScratch; decide +kernel
  · unfold State.Flushed; decide +kernel

/-- A notify word for class 5 of core 0, and the sum 0. -/
theorem witness_AddAndNotify :
    sharing.Flushed 0 ∧ notifyBad 0x05000000 = false ∧ 3 < notifyClass 0x05000000 ∧ sharing.badDst true (notifyDst 0x05000000) = false ∧
    (0xFFFFFFFFFFFFFFFF + 1 : Word) = 0 := by
  refine ⟨?_, by decide, by decide, by decide +kernel, by decide⟩
  unfold State.Flushed; decide +kernel

theorem witness_AcquireLoads : sharing.InScratch 0 0xF100000000000000 8 ∧ (∃ m s2, (mem0 0).acquireRead ((mem0 0).who 0) 0 false = .ok m s2) ∧
    ((mem0 0).started (.ldAcq 0 9 0)).Passes 0 .acq 0 8 0x40000 0x4009F :=
  ⟨by unfold State.InScratch; decide +kernel, ok_of (by decide +kernel), ⟨rfl, by decide, by decide +kernel, by decide +kernel⟩⟩

theorem witness_OrderingInstructions :
    hostPage.Ready ∧ hostPage.Flushed 0 ∧ hostPage.Passes 0 .acq 0 8 (2 ^ 51 + 0x40000) (2 ^ 51 + 0x4009F) ∧
    hostPage.Passes 0 .rel 0 8 (2 ^ 51 + 0x40000) (2 ^ 51 + 0x4009F) ∧ hostPage.local_ (2 ^ 51 + 0x40000) = false ∧
    (∀ e ∈ (hostPage.die 0).owned, e.2.dirty = false) ∧ (5 : Reg).toNat > 4 ∧ (hostPage.ctx 0).Enabled := by
  refine ⟨⟨rfl, rfl⟩, ?_, ⟨rfl, by decide, by decide +kernel, by decide +kernel⟩, ⟨rfl, by decide, by decide +kernel, by decide +kernel⟩, by decide +kernel,
    by decide +kernel, by decide, rfl, rfl⟩
  unfold State.Flushed; decide +kernel

/-- An SC operation of core 0 at its turn: in scratch, of a line of the die, and a fence of a cluster that owes nothing. -/
theorem witness_SequentiallyConsistentOperations :
    (mem0 0).Ready ∧ (mem0 0).Flushed 0 ∧ (mem0 0).CleanCluster 0 ∧ (∀ e ∈ ((mem0 0).die 0).owned, e.2.dirty = false) ∧
    (mem0 0).Passes 0 .acq 0 8 0x40000 0x4009F ∧ (mem0 0).Passes 0 .rel 0 8 0x40000 0x4009F ∧ (mem0 0).local_ 0x40000 = true ∧
    sharing.InScratch 0 0xF00000000007CFF8 8 ∧
    ∃ e : Env, e = { (mem0 0).env (.stSc 0 5) with wait := some { how := .running, deadline := none, aux := scTurn 1 0 } } ∧
      (∃ m v, ((mem0 0).unqueue 0 1).acquireRead (((mem0 0).unqueue 0 1).who 0) 0 true = .ok m v) ∧
      ∃ m v, ((mem0 0).unqueue 0 1).atomic (((mem0 0).unqueue 0 1).who 0) .rel 0 (fun _ => some 8) = .ok m v := by
  refine ⟨⟨rfl, rfl⟩, ?_, ?_, by decide +kernel, ⟨rfl, by decide, by decide +kernel, by decide +kernel⟩, ⟨rfl, by decide, by decide +kernel, by decide +kernel⟩,
    by decide +kernel, ?_, _, rfl, ok_of (by decide +kernel), ok_of (by decide +kernel)⟩
  · unfold State.Flushed; decide +kernel
  · unfold State.CleanCluster; decide +kernel
  · unfold State.InScratch; decide +kernel

/-- A die that owns a dirty line of another die's memory, for `FLUSH` with HOME. -/
def owning : State := far.modDie 1 fun x => { x with owned := [(0x1000, { data := 5, dirty := true, writers := [4096], pts := 0, since := 0 })] }

theorem witness_CacheInstructions :
    owning.Ready ∧ (owning.started (.flush 0 1)).lineNamed (owning.who 4096) 0 = some (0x1000, leafOf 0) ∧
    ((((owning.started (.flush 0 1)).spillCluster 512 0x1000 none).dropL1 0x1000 fun e _ => clusterOf e != 32).die 1).owned.find 0x1000 =
      some { data := 5, dirty := true, writers := [4096], pts := 0, since := 0 } ∧
    owning.CleanCluster 512 ∧ (owning.started (.flush 5 0)).lineNamed (owning.who 4096) 0x10000 = none ∧ mappedService.Ready ∧ (mappedService.ctx 112).sup = true := by
  refine ⟨⟨rfl, rfl⟩, by decide +kernel, by decide +kernel, ?_, by decide +kernel, ⟨rfl, rfl⟩, rfl⟩
  unfold State.CleanCluster; decide +kernel

/-- Replies to a thread and to a unit, and destinations of other kinds; a page of device bias and of host bias; a `WFI` with and without an event. -/
theorem witness_SystemInstructions :
    (2 ^ 62 + 5) / 2 ^ 62 = 1 ∧ (2 ^ 62 + 5) / 2 ^ 23 % 2 ^ 39 = 0 ∧ (service []).badHandle (2 ^ 63) = false ∧ (service []).badHandle (2 ^ 63 + 2 ^ 44) = true ∧
    mappedService.leaf 0 1 0 = .leaf 0x4009F 0x16000 3 ∧ pteBias 0x4009F = false ∧ (mapped (leafOf 0x40) 112 (super [])).leaf 0 1 0 = .leaf 0x400DF 0x16000 3 ∧
    pteBias 0x400DF = true ∧ (one []).awake 0 = false ∧
    (put 0 { user [] with hold := 2 ^ 9 } { State.reset with cores := [(0, { Core.reset 2 false 0 with recv := [hwMsg 0 9 4 8 5 0 0] })] }).awake 0 = true := by
  decide +kernel

/-! ### Witnesses: tasks, messages, hoists, barriers -/

/-- A task context with a frame published at 0x80 in a mapped page; s4 is 0x40, where a frame of zeros lies, s5 an even target. -/
def tasking (frame : Word) : State := mapped (leafOf 0) 0 { user [(4, 0x40), (5, 0x2000), (6, 1)] with frame := frame }

/-- An entry of its owner's deque; one whose join counter is at VA 0x40. -/
def anyEntry : DqEntry :=
  { snap := 0, frame := 0x80, resume := 0x1234, owner := 0, gen := 0, foot := 0, state := .present, bound := false, fS := false, fD := false, pts := 0, barred := 0 }

/-- A published frame above a deque of 64 entries, with this quota of its ring, which is in a mapped page. -/
def fullDeque (quota : Nat) : State :=
  { tasking 0x81 with
    cores := [(0, { Core.reset 2 false 0 with slot := some 0, deque := List.replicate 64 { anyEntry with frame := 0, resume := 0 }, ringQuota := quota, ringBase := 0x100 })]
    launches := [(0, { Launch.reset with state := .running, clusters := [0], asid := 1 })] }

/-- The same on a core whose second context of two is a handler, which runs. -/
def handling : State :=
  put 1 (user []) { State.reset with cores := [(0, { Core.reset 2 false 0 with pword := 0x12 })] }

theorem witness_PublishedFrame : ∃ s2, ((tasking 0x81).started (.pubf 4)).plainRead ((tasking 0x81).who 0) .load 0x40 64 = .ok 0 s2 :=
  ok_value (by decide +kernel)

theorem witness_FramesAndSpawns :
    (tasking 0x81).Ready ∧ (tasking 0x81).isHandler 0 = false ∧ frameWindow 0x40 = true ∧ frameFault 0 = none ∧ (tasking 0x81).Flushed 0 ∧
    ((tasking 0x81).ctx 0).framePub = true ∧ ((tasking 0x81).core 0).hardware < 64 ∧
    handling.isHandler 1 = true ∧ (handling.ctx 1).Enabled ∧ ((tasking 0).ctx 0).framePub = false ∧ frameWindow (0xF0 * 2 ^ 56) = false := by
  refine ⟨⟨rfl, rfl⟩, by decide +kernel, by decide +kernel, by decide +kernel, ?_, by decide +kernel, by decide +kernel,
    by decide +kernel, ⟨rfl, rfl⟩, by decide +kernel, by decide +kernel⟩
  unfold State.Flushed; decide +kernel

/-- A spill that the ring's quota allows makes room, and one that it does not breaks it. -/
theorem witness_SpawnsThatSpill :
    (∀ s ∈ [fullDeque 32, fullDeque 31], owesNothing s = true ∧ 64 ≤ (s.core 0).hardware ∧ (s.ctx 0).framePub = true ∧ s.isHandler 0 = false) ∧
    ((fullDeque 31).core 0).ringQuota < ((fullDeque 31).core 0).spilled + 32 := by decide +kernel
theorem witness_RoomForASpawn :
    (((fullDeque 32).started (.spawn 5)).makeRoom 0).ctx 0 = ((fullDeque 32).started (.spawn 5)).ctx 0 ∧
    ((((fullDeque 32).started (.spawn 5)).makeRoom 0).core 0).hardware < 64 := by decide +kernel

/-- A task one spawn deep whose continuation lies in its deque, present or stolen with its join counter at VA 0x40. -/
def spawned (q : DqEntry) : State :=
  { mapped (leafOf 0) 0 { user [] with depth := 1 } with cores := [(0, { Core.reset 2 false 0 with deque := [q] })] }

/-- The same entry once it has been stolen, with its join counter at VA 0x40; the state once it has been popped. -/
def goneEntry : DqEntry := { anyEntry with state := .stolen, snap := 0x40 * 2 ^ 128 }
def popped : State :=
  ((((spawned goneEntry).started .taskend).closeTask 0).modCore 0 fun x => { x with deque := [] }).modCtx 0 fun x => { x with depth := 0 }

/-- A stolen task at its bottom, whose parent frame's counter at VA 16 is 0x10. -/
def stolenTask : State := mapped (leafOf 0) 0 { user [] with taskSnap := 2 ^ 198 }

theorem witness_TaskEnds :
    (∀ q ∈ [anyEntry, goneEntry], (spawned q).Ready ∧ (spawned q).Flushed 0 ∧ (spawned q).isHandler 0 = false ∧
      youngest 0 0 0 ((spawned q).core 0).deque = some 0 ∧ ((spawned q).core 0).deque[0]? = some q ∧ ((spawned q).core 0).spilled = 0) ∧
    (∃ v s3, popped.atomic (popped.who 0) .atomic 0x40 (fun m => some ((m + (2 ^ 64 - 1)) % 2 ^ 64)) = .ok v s3) ∧
    youngest 0 5 0 ((spawned anyEntry).core 0).deque = none ∧ (one []).Flushed 0 ∧ frParent ((one []).ctx 0).taskSnap = 0 ∧
    stolenTask.Flushed 0 ∧ frParent (stolenTask.ctx 0).taskSnap = 64 ∧
    (∃ j s2, (stolenTask.started .taskend).plainRead (stolenTask.who 0) .load 80 8 = .ok j s2) ∧
    ∃ v s3, stolenTask.atomic (stolenTask.who 0) .atomic 0 (fun m => some ((m + (2 ^ 64 - 1)) % 2 ^ 64)) = .ok v s3 := by
  refine ⟨?_, ok_of (by decide +kernel), by decide +kernel, ?_, by decide +kernel, ?_, by decide +kernel, ok_of (by decide +kernel), ok_of (by decide +kernel)⟩
  · unfold State.Ready State.Flushed; decide +kernel
  all_goals unfold State.Flushed; decide +kernel

/-- Nothing stolen; stolen, with the join counter at 0x40 or at 0 of a mapped page (which holds 0 and not 0). -/
def joining (frame : Word) (at_ : Nat) : State := mapped (leafOf 0) 0 { user [(4, 0x40), (6, 1)] with frame := frame, snap := at_ * 2 ^ 128 }

theorem witness_JoinsAndDonations :
    (joining 1 0).Ready ∧ (joining 1 0).isHandler 0 = false ∧ ((joining 3 0x40).ctx 0).frameS = true ∧
    ((joining 3 0).ctx 0).framePub = true ∧ (joining 3 0).atomicChecks 0 0 = none ∧ (joining 3 0x40).atomicChecks 0 0x40 = none ∧
    (∃ s2, ((joining 3 0x40).started .sync).acquireRead ((joining 3 0x40).who 0) 0x40 true = .ok 0 s2) ∧
    (∃ s2, ((joining 3 0).started .sync).acquireRead ((joining 3 0).who 0) 0 true = .ok 0x1122334455667788 s2 ∧
      (∃ u a, s2.watchAt ((joining 3 0).who 0) 0 = some (u, a) ∧ s2.watchesAt u < 64)) ∧ frJoin ((joining 3 0x40).ctx 0).snap = 0x40 ∧
    donationFault 0 = none ∧ (∃ s2, ((joining 1 0).started (.donate 3 4 6)).plainRead ((joining 1 0).who 0) .load 0x40 64 = .ok 0 s2 ∧ s2.Flushed 0) := by
  refine ⟨⟨rfl, rfl⟩, by decide +kernel, by decide +kernel, by decide +kernel, by decide +kernel, by decide +kernel, ok_value (by decide +kernel),
    ok_and_value (P := fun s2 => ((s2.watchAt ((joining 3 0).who 0) 0).map fun y => decide (s2.watchesAt y.1 < 64)) == some true) (by decide +kernel) ?_,
    by decide +kernel, by decide +kernel, ok_and_value (P := owesNothing) (by decide +kernel) fun _ h => of_owesNothing h⟩
  intro s2 h
  obtain ⟨⟨u, a⟩, h1, h2⟩ := Option.map_eq_some_iff.1 (eq_of_beq h)
  exact ⟨u, a, h1, of_decide_eq_true h2⟩

/-- Control words of `SEND` and of `SENDM` with LEN 64 and class 5; destinations of each kind; a mask of two cores of cluster 0. -/
theorem witness_Sends :
    (one []).Ready ∧ (one []).Flushed 0 ∧ ((one []).core 0).saving = false ∧ ctlBad false 0x400405 = false ∧ 0x400405 % 64 > 3 ∧
    (one []).badDst true 5 = false ∧ (one []).badDst true (2 ^ 62 + 5) = false ∧ (one []).badDst true (2 ^ 63) = false ∧
    (one []).badDst true (3 * 2 ^ 62) = false ∧ ((one []).die 0).fifo.length < 64 + ((one []).die 0).fifoQuota ∧
    ctlBad true 0x400005 = false ∧ (one []).badMulti true 0x3000000 = false := by
  refine ⟨⟨rfl, rfl⟩, ?_, rfl, by decide, by decide, by decide +kernel, by decide +kernel, by decide +kernel, by decide +kernel, by decide +kernel, by decide,
    by decide +kernel⟩
  unfold State.Flushed; decide +kernel

/-- A control word with LEN 65 and one without NC; a system class; a service core, as one destination and within a mask. -/
theorem witness_SendChecks :
    ctlBad false 0x410405 = true ∧ ctlBad false 0x400505 = true ∧ ctlBad true 0x400405 = true ∧ ctlBad false 0x400403 = false ∧ ctlBad true 0x400003 = false ∧
    (one []).badDst true 14 = true ∧ (one []).badDst false 14 = false ∧ (one []).badMulti true (0x4000 * 2 ^ 24) = true ∧ ((one []).ctx 0).Enabled :=
  ⟨by decide, by decide, by decide, by decide, by decide, by decide +kernel, by decide +kernel, by decide +kernel, rfl, rfl⟩

theorem witness_HandlerTable :
    (one []).Ready ∧ (service []).Ready ∧ (0x744 : Nat) < 2 ^ 11 ∧ 0x744 / 2 ^ 6 % 4 ≠ 0 ∧ (0x704 : Nat) < 2 ^ 11 ∧ 0x704 / 2 ^ 6 % 4 = 0 ∧ 3 < 0x704 % 64 ∧
    ((one []).ctx 0).hold < 2 ^ 64 ∧ (63 : Word).toNat < 64 ∧ 3 < (63 : Word).toNat := ⟨⟨rfl, rfl⟩, ⟨rfl, rfl⟩, by decide, by decide, by decide, by decide,
    by decide, by decide +kernel, by decide, by decide⟩

/-- A context that holds class 9, with a message of it and without; the handler of `handling`. -/
def holding (ms : List Msg) : State :=
  put 0 { user [(4, 9), (5, 0xFFFFFFFFFFFFFFFF), (6, 1)] with hold := 2 ^ 9 } { State.reset with cores := [(0, { Core.reset 2 false 0 with recv := ms })] }

theorem witness_Mailboxes :
    (holding []).Ready ∧ ((holding []).ctx 0).hold.testBit 9 = true ∧ ((holding []).core 0).recv.find? (fun x => x.cls == 9) = none ∧
    (∃ m, ((holding [hwMsg 0 9 4 8 5 0 0]).core 0).recv.find? (fun x => x.cls == 9) = some m) ∧ ((one []).ctx 0).hold.testBit 0 = false ∧
    handling.Ready ∧ handling.isHandler 1 = true ∧ (one []).isHandler 0 = false := by
  refine ⟨⟨rfl, rfl⟩, by decide +kernel, by decide +kernel, ⟨_, rfl⟩, by decide +kernel, ⟨rfl, rfl⟩, by decide +kernel, by decide +kernel⟩

/-- Context 0 beside context 8 (core 1), which runs; s4 names it, s5 names it with another generation, s6 names context 0 itself. -/
def beside : State :=
  put 0 (user [(4, 0x4000000000000001), (5, 0x4000000000008001), (6, 0x4000000000000000)]) (State.reset.setCtx 8 (user []))

/-- Context 0 has left context 8, and remembers it. -/
def hasLeft : State := put 0 { user [] with leader := some (8, 0) } (State.reset.setCtx 8 (user []))

theorem witness_Hoists :
    beside.Ready ∧ beside.isHandler 0 = false ∧ 0x4000000000000001 / 2 ^ 62 = 1 ∧ 0x4000000000000001 / 2 ^ 23 % 2 ^ 39 = 0 ∧ beside.isService 1 = false ∧
    (beside.ctx 8).state ≠ .free ∧ (beside.ctx 8).gen = 0 ∧ beside.isHandler 8 = false ∧ (beside.ctx 8).member = false ∧ beside.followers 8 = [] ∧
    beside.followers 0 = [] ∧ 0x4000000000008001 / 2 ^ 15 % 2 ^ 8 = 1 ∧ (beside.ctx 0).Enabled ∧ (beside.ctx 0).member = false ∧ (beside.ctx 0).leader = none ∧
    (hasLeft.ctx 0).leader = some (8, 0) ∧ (hasLeft.ctx 8).gen = 0 ∧ (hasLeft.ctx 8).state ≠ .free := by
  refine ⟨⟨rfl, rfl⟩, ?_, ?_, ?_, ?_, ?_, ?_, ?_, ?_, ?_, ?_, ?_, ⟨rfl, rfl⟩, rfl, rfl, rfl, ?_, ?_⟩ <;> decide +kernel

theorem witness_HoistsOfFollowers : ∃ s : State, s = put 0 { user [] with state := .following, member := true, leader := some (8, 0) } State.reset ∧
    (s.ctx s.cur).win.outst = [] ∧ (s.ctx s.cur).state = .following ∧ (s.ctx s.cur).member = true := ⟨_, rfl, rfl, rfl, rfl⟩

/-- A barrier that expects two arrivals, and a context that has arrived at its phase 0. -/
def atBarrier (arrived : Nat) (mine : Nat) : State :=
  put 0 { user [] with arr := [(3, mine)] } { State.reset with clusters := [(0, { Cluster.reset 0 with barriers := [(3, { Barrier.reset 2 with arrived := arrived })] })] }

theorem witness_Barriers :
    (atBarrier 0 0).Ready ∧ (atBarrier 0 0).Flushed 0 ∧ ((atBarrier 0 0).barrier 0 3).releasing = false ∧ ((atBarrier 0 0).barrier 0 3).phase < 2 ^ 16 ∧
    ((atBarrier 0 0).barrier 0 3).arrived + 1 < ((atBarrier 0 0).barrier 0 3).expect ∧
    ((atBarrier 1 0).barrier 0 3).expect ≤ ((atBarrier 1 0).barrier 0 3).arrived + 1 ∧ ((atBarrier 1 0).barrier 0 3).words = [] ∧
    ((atBarrier 0 0).ctx 0).arrived 3 = false ∧ ((atBarrier 1 0x10000).ctx 0).arrived 3 = true ∧ ((atBarrier 1 0x10000).ctx 0).lastPhase 3 = 0 ∧
    ((atBarrier 0 0).barrier 0 3).failure 0 = none := by
  refine ⟨⟨rfl, rfl⟩, ?_, ?_⟩
  · unfold State.Flushed; decide +kernel
  · decide +kernel

/-- A proposal of a team of core 0 alone, and of a team that core 0 is not in. -/
def proposing : State := one [(4, BitVec.ofNat 64 (geomReset 0)), (5, 0xFFFFFFFFFFFFFFFF)]

theorem witness_Teams :
    proposing.Ready ∧ proposing.Flushed 0 ∧ proposing.isHandler 0 = false ∧ badTeamWord (geomReset 0) = false ∧
    geomPer (geomReset 0) + 1 ≤ pwTasks (proposing.core 0).pword ∧ (proposing.core 0).saving = false ∧ bit (geomMask (geomReset 0)) 0 = true ∧
    (∀ j, j < 16 → bit (geomMask (geomReset 0)) j = true → proposing.isService j = false) ∧ (proposing.core 0).proposal = none ∧
    (∃ s1 : State, s1 = (proposing.started (.team 3 4 5)).modCore 0 (fun x => { x with proposal := some { ctx := 0, word := geomReset 0, pts := 0, deadline := none } }) ∧
      s1.teamSet 0 16 1 = 1 ∧ s1.agreed 0 1 = true ∧ s1.teamsBusy 0 1 = false) ∧
    badTeamWord 0 = true ∧ badTeamWord (geomReset 1) = false ∧ bit (geomMask (geomReset 1)) 0 = false := by
  refine ⟨⟨rfl, rfl⟩, ?_, by decide +kernel, by decide +kernel, by decide +kernel, by decide +kernel, by decide +kernel, by decide +kernel, by decide +kernel,
    ⟨_, rfl, by decide +kernel, by decide +kernel, by decide +kernel⟩, by decide +kernel, by decide +kernel, by decide +kernel⟩
  unfold State.Flushed; decide +kernel

theorem witness_TeamTiles : 0 < geomRows ((one []).core 0).geom ∧ 0 < geomCols ((one []).core 0).geom ∧ (4 : Reg).toNat % 2 = 0 ∧ (4 : Reg) ≠ 0 ∧
    (2 : Nat) ^ 20 ≤ 2 ^ 20 ∧ (5 : Reg).toNat % 2 ≠ 0 := by decide +kernel

/-! ### Witnesses: engines, counters, the array -/

/-- A core whose private scratch holds a parameter block at its start; s4 names it. -/
def withBlock (b : Nat) : State :=
  put 0 (user [(4, 0xF000000000000000), (5, 1), (6, 0xF000000000000001), (7, 0x500000000000000)])
    { State.reset with cores := [(0, { Core.reset 2 false 0 with scratch := Mem.writeN [] 0 64 b })] }

/-- A transfer of 64 bytes by core 0, counted by counter 5. -/
def aXfer (op : XferOp) (src dst n esize list mask : Nat) : Xfer :=
  { op := op, ctx := 0, gen := 0, sup := false, asid := 0, cc := 5, dst := dst, src := src, n := n, esize := esize, list := list, mask := mask, lo := 0,
    hi := 0, pts := 0, acked := 0, slot := 0, tag := 0, uipc := 0, notify := 0, sender := 0, owed := 64, pieces := 1, error := none }

/-- The block of a `COPY` of 64 bytes, and of a `COPYM` with this mask. -/
def copyBlock (dst src : Nat) : Nat := dst + src * 2 ^ 64 + 64 * 2 ^ 128
def copymBlock (mask : Nat) : Nat := 0xF000000000000100 + 64 * 2 ^ 128 + mask * 2 ^ 192

/-- A copy within private scratch (nothing to lock), one to memory (a range to lock), and a multicast to nobody. -/
theorem witness_EngineIssue :
    ∃ s t u : State, s = withBlock (copyBlock 0xF000000000000100 0xF000000000000200) ∧ t = withBlock (copyBlock 0x100 0xF000000000000200) ∧
      u = withBlock (copymBlock 0) ∧ s.Ready ∧ engOf (.copy 0 3 4 5) = some (.copy, 0, 3, 4, 5) ∧
      (s.started (.copy 0 3 4 5)).plainRead (s.who 0) .load 0xF000000000000000 64 = .ok (copyBlock 0xF000000000000100 0xF000000000000200) (s.started (.copy 0 3 4 5)) ∧
      (s.started (.copy 0 3 4 5)).blockTrap (s.env (.copy 0 3 4 5)) .copy 0xF000000000000000 (copyBlock 0xF000000000000100 0xF000000000000200) = none ∧
      (s.core 0).saving = false ∧ s.Flushed 0 ∧ s.freeXfer 0 = some 0 ∧
      s.requests (s.who 0) .copy (copyBlock 0xF000000000000100 0xF000000000000200) ≠ [] ∧
      s.rangesOf (s.who 0) .copy (copyBlock 0xF000000000000100 0xF000000000000200) 0 = [] ∧
      t.blockTrap (t.env (.copy 0 3 4 5)) .copy 0xF000000000000000 (copyBlock 0x100 0xF000000000000200) = none ∧
      t.rangesOf (t.who 0) .copy (copyBlock 0x100 0xF000000000000200) 0 ≠ [] ∧
      u.blockTrap (u.env (.copym 0 3 4 5)) .copym 0xF000000000000000 (copymBlock 0) = none ∧
      u.requests (u.who 0) .copym (copymBlock 0) = [] ∧ (s.ctx 0).Enabled ∧
      s.blockTrap (s.env (.copy 0 3 4 5)) .copy 0xF000000000000000 0 = some (0x01, 0xF000000000000000) ∧ winTag 0x500000000000000 ∉ [0, 0xF0, 0xF1] := by
  refine ⟨_, _, _, rfl, rfl, rfl, ⟨rfl, rfl⟩, rfl, by rfl, by decide +kernel, rfl, ?_, by decide +kernel, by decide +kernel, by decide +kernel, by decide +kernel,
    by decide +kernel, by decide +kernel, by decide +kernel, ⟨rfl, rfl⟩, by decide +kernel, by decide +kernel⟩
  unfold State.Flushed; decide +kernel

/-- A core without a free record, and a block whose transfer needs one. -/
theorem witness_NoRecordIsFree :
    ∃ s : State, s = (withBlock (copyBlock 0xF000000000000100 0xF000000000000200)).modCore 0 (fun x =>
        { x with xfers := (List.range 128).map fun i => (i, aXfer .copy 0 0 64 0 0 0) }) ∧
      s.freeXfer 0 = none ∧ s.requests (s.who 0) .copy (copyBlock 0xF000000000000100 0xF000000000000200) ≠ [] := ⟨_, rfl, by decide +kernel⟩

/-- Lengths at the ends of their range; an operand that runs out of its window; ranges that touch, and that overlap by a byte. -/
theorem witness_CopyBlockChecks :
    (0 : Nat) < 2 ^ 32 ∧ (2 : Nat) ^ 32 ≤ 2 ^ 32 ∧ 2 ^ 32 < 2 ^ 32 + 1 ∧ winTag 0x0100000000000000 ∉ [0, 0xF0, 0xF1, 0xF2] ∧
    winTag (0xF0FFFFFFFFFFFFFF + 64 - 1) ≠ winTag 0xF0FFFFFFFFFFFFFF ∧ winTag 0x1000 = 0 ∧ winTag (0x1000 + 64 - 1) = 0 ∧
    ¬(0x1000 < 0x1040 + 64 ∧ 0x1040 < 0x1000 + 64) ∧ (0x1000 < 0x103F + 64 ∧ 0x103F < 0x1000 + 64) := by decide

/-- Addends at the ends of their range; a counter that is done and one that is not. -/
theorem witness_CounterInstructions :
    (one []).Ready ∧ -(2 ^ 47) ≤ (0xFFFF800000000000 : Word).toInt ∧ (0x7FFFFFFFFFFF : Word).toInt < 2 ^ 47 ∧ ¬(0x800000000000 : Word).toInt < 2 ^ 47 ∧
    (0xFFFF7FFFFFFFFFFF : Word).toInt < -(2 ^ 47) ∧ ((one []).counter 0 5).done = false ∧ ((one []).counter 0 5).value < 2 ^ 48 ∧
    (∃ s : State, s = (one []).setCounter 0 5 { Counter.reset with done := true, err := true } ∧ (s.counter 0 5).done = true ∧ (s.counter 0 5).err = true) :=
  ⟨⟨rfl, rfl⟩, by decide, by decide, by decide, by decide, by decide +kernel, by decide +kernel, _, rfl, by decide +kernel, by decide +kernel⟩

/-- A held, a wanted and no lease; a core with commands only by their own instructions. -/
def leased (st : LeaseState) (q : List Cmd) : State :=
  put 0 (user [(4, 64), (5, 65)]) { State.reset with cores := [(0, { Core.reset 2 false 0 with lease := { Lease.reset with state := st, n := 4 }, queue := q })] }

theorem witness_LeaseInstructions :
    (leased .held []).Ready ∧ ((leased .held []).core 0).lease.state = .held ∧ ((leased .wait []).core 0).lease.state = .wait ∧
    ((leased .none []).core 0).lease.state = .none ∧ (((leased .none []).ctx 0).regs.rs 4).toNat ≤ 64 ∧ ¬(((leased .none []).ctx 0).regs.rs 5).toNat ≤ 64 ∧
    (∀ q ∈ ((leased .held [newCmd .place 0 0 0 0 0]).core 0).queue, q.op = .place) :=
  ⟨⟨rfl, rfl⟩, rfl, rfl, rfl, by decide +kernel, by decide +kernel, by decide +kernel⟩

/-- A fill that has ended well. -/
def fillOf (roleB : Bool) : Fill :=
  { no := 0, roleB := roleB, fmt := 0, kq := 0, base := 0, stride := 64, ctx := 0, asid := 0, pts := 0, row := 0, data := [], ended := true, code := 0,
    fault := none, readers := 0 }

/-- A core with two tiles, a format word of BF16 and a lease, whose slots 0, 1 and 2 are EMPTY, READY with an A and READY with a B; s4 is 1, s5 2,
s6 the base of private scratch and s7 64. -/
def arrayed (queue : List Cmd) (st : LeaseState) : State :=
  put 0 (user [(4, 1), (5, 2), (6, 0xF000000000000000), (7, 64), (8, 0x1C0), (9, 0x40), (10, 7)]) { State.reset with
    cores := [(0, { Core.reset 2 false 0 with pword := 0x101, fmt := some 0, prog := some 0x800, queue := queue, lease := { Lease.reset with state := st } })],
    clusters := [(0, { Cluster.reset 0 with slots := [(0, { Slot.reset with state := .empty }),
      (1, { Slot.reset with state := .ready, nextNo := 1, fills := [fillOf false] }), (2, { Slot.reset with state := .ready, nextNo := 1, fills := [fillOf true] })] })] }

/-- 61 free slots: a claim of one, one of 64 that finds too few, one with a set reserved bit; slots that are its core's and free ones. -/
theorem witness_SlotInstructions :
    (arrayed [] .none).Ready ∧ ((List.range 64).filter fun i => ((arrayed [] .none).slot 0 i).state == .free).length = 61 ∧ 0x140 % 2 ^ 7 = 64 ∧ 0x140 / 2 ^ 7 % 2 = 0 ∧
    0x1C0 / 2 ^ 7 % 2 = 1 ∧ ((arrayed [] .none).slot 0 1).state ≠ .free ∧ ((arrayed [] .none).slot 0 1).owner = 0 ∧ (arrayed [] .none).slotNamed 0 1 = false ∧
    ((arrayed [] .none).slot 0 3).state = .free ∧ ((arrayed [] .none).ctx 0).Enabled ∧ ((arrayed [] .none).core 0).queue = [] ∧
    ((arrayed [] .none).core 0).storing = [] ∧ (63 : Nat) < 64 ∧ ((arrayed [] .none).slot 0 1).fills.getLast? = some (fillOf false) :=
  ⟨⟨rfl, rfl⟩, by decide +kernel, by decide, by decide, by decide, by decide +kernel, by decide +kernel, by decide +kernel, by decide +kernel, ⟨rfl, rfl⟩, rfl, rfl,
    by decide, rfl⟩

/-- 32 rows of 64 bytes from the start of private scratch; a K of 288 that BF16 does not have; a slot that is free. -/
theorem witness_FillInstructions :
    ((arrayed [] .none).core 0).fmt = some 0 ∧ 32 ≤ kLimit (fwA 0) ∧ elBytes (fwA 0) 32 = 64 ∧ ((arrayed [] .none).slot 0 0).state ≠ .free ∧
    (∀ r, r < 32 → winTag (0xF000000000000000 + r * 64) = 0xF0 ∧ winTag (0xF000000000000000 + r * 64 + 64 - 1) = 0xF0 ∧
      (arrayed [] .none).scratchIn 0 (0xF000000000000000 + r * 64) 64 = true) ∧
    kLimit (fwA 0) < (8 + 1) * 32 ∧ ¬((arrayed [] .none).slot 0 7).state ≠ .free := by decide +kernel

theorem witness_TileInstructions :
    ((arrayed [] .none).core 0).queue = [] ∧ fwValid 0 = true ∧ mpValid 0x800 = true ∧ (1 : Reg).toNat < (arrayed [] .none).accTiles 0 ∧
    (arrayed [] .none).accTiles 0 ≤ (2 : Reg).toNat ∧ ((arrayed [] .none).core 0).fmt = some 0 ∧
    (∀ r, r < 32 → (arrayed [] .none).InScratch 0 (0xF000000000000000 + r * 64) (32 * accBytes 0)) ∧
    (∀ r, r < 32 → winTag (0xF000000000000000 + r * 64 + 32 * accBytes 0 - 1) = winTag (0xF000000000000000 + r * 64)) ∧
    ((arrayed [newCmd .mma 0 0 0 0 0] .held).core 0).queue ≠ [] ∧ ((arrayed [newCmd .mma 0 0 0 0 0] .held).core 0).queue.length < 16 ∧
    16 ≤ ((arrayed (List.replicate 16 (newCmd .mma 0 0 0 0 0)) .held).core 0).queue.length ∧ fwValid 0xF = false ∧ mpValid 0 = false ∧
    ((one []).core 0).fmt = none := by
  unfold State.InScratch; decide +kernel

theorem witness_QueuedInstructions :
    ∃ s : State, s = arrayed [] .held ∧ s.Ready ∧ (1 : Reg).toNat < s.accTiles 0 ∧ (s.core 0).fmt = some 0 ∧ (s.core 0).lease.state ≠ .none ∧ (s.core 0).queue.length < 16 ∧
      s.mayRead 0 1 = true ∧ s.mayRead 0 2 = true ∧ (s.slot 0 1).state = .ready ∧ (s.slot 0 2).state = .ready ∧
      (s.slot 0 1).fills.getLast? = some (fillOf false) ∧ (s.slot 0 2).fills.getLast? = some (fillOf true) ∧ fwA 0 = 0 ∧ fwB 0 = 0 ∧
      fwValid 0x100000044 = true ∧ fwMsel 0x100000044 = true ∧ (s.core 0).prog.isSome = true ∧ ((arrayed [] .none).core 0).lease.state = .none ∧ (s.ctx 0).Enabled :=
  ⟨_, rfl, ⟨rfl, rfl⟩, by decide +kernel, rfl, by decide +kernel, by decide +kernel, by decide +kernel, by decide +kernel, by decide +kernel, by decide +kernel, rfl, rfl,
    by decide, by decide, by decide, by decide, rfl, rfl, rfl, rfl⟩

/-! ### Witnesses: sparse regions and grids -/

theorem exists_of_ok {ε α : Type} : ∀ {x : Except ε α}, x.toOption.isSome = true → ∃ y, x = .ok y
  | .ok y, _ => ⟨y, rfl⟩

theorem ok_and {ε α : Type} {P : α → Bool} : ∀ {x : Except ε α}, x.toOption.any P = true → ∃ y, x = .ok y ∧ P y = true
  | .ok y, h => ⟨y, rfl, h⟩

/-- A descriptor of rank 1, INT32, one shard, pool at VA 0, QUOTA 16, extent 100. -/
def line : Nat := 1 + 2 ^ 32 + 16 * 2 ^ 128 + 100 * 2 ^ 192

/-- Launch slot 0 with that region as entry 0, generation 1, its root an empty leaf; s4 is the handle, s5 coordinate 7, s6 and s7 coordinate 100, s8 the
address of a box from 0 to 99 in private scratch. -/
def sparse : State :=
  let s := mapped (leafOf 0x100) 0 (user [(4, 0x8000000000000100), (5, 7), (6, 100), (8, 0xF000000000000040), (9, 0xFFFF), (10, 0xF000000000000080)])
  { s with
    cores := [(0, { Core.reset 2 false 0 with slot := some 0, cursors := [(0, { Cursor.reset with opened := true, handle := 0x8000000000000100, gen := 1, hi := 99 * 2 ^ 96 })],
                                               scratch := (Mem.writeN [] 0x50 16 99).writeN 0x80 64 line })],
    mem := (s.mem.writeN 0x40000 256 (headerImage (2, 0, 2))).writeN 0x40100 256 (Node.new 1 0).encode,
    regions := [(0, { Region.reset with gen := 1, declared := true, desc := line, at_ := 0xF000000000000080, asid := 1, quota := 16, ext := 100 })] }

/-- The region and its one shard. -/
def theRegion : Region := sparse.region 0
def theShard : Shard := sparse.shardAt 0 0 theRegion 0

theorem sparse_RegionAt (i : Instr) (h : i = .sld 0 3 4 5 ∨ i = .sst 3 4 5 ∨ i = .sadd 3 4 5 ∨ i = .sstat 0 3 4 5 ∨ i = .siter 0 3 4 8 ∨ i = .snext 0 3 4 8 9) :
    (sparse.started i).RegionAt 0 0x8000000000000100 0 theRegion (sparse.started i) := by
  rcases h with rfl | rfl | rfl | rfl | rfl | rfl <;> exact ⟨_, rfl, .inl ⟨rfl, rfl, rfl⟩⟩

theorem witness_SparseAccesses :
    sparse.Ready ∧ theRegion.admits (keyOf4 7 0 0 0) = true ∧ theRegion.admits (keyOf4 100 0 0 0) = false ∧ sparse.ShardFree theShard ∧ spRank theRegion.desc < 3 ∧
    (∃ y, theShard.run sparse (theShard.find (keyOf4 7 0 0 0)) = .ok y) ∧
    (∃ y, theShard.write 0 (keyOf4 7 0 0 0) sparse (do pure (← theShard.sst (keyOf4 7 0 0 0) 5, 0)) = .ok y) ∧
    (∃ y, theShard.write 0 (keyOf4 7 0 0 0) sparse (theShard.sadd (keyOf4 7 0 0 0) 5) = .ok y) ∧
    (∃ y, theShard.run sparse (theShard.stat true) = .ok y) ∧ (∃ y, theShard.run sparse theShard.header = .ok y) ∧
    sparse.regionOf 0 0x8000000000000101 = none ∧ (sparse.ctx 0).Enabled := by
  refine ⟨⟨rfl, rfl⟩, by decide +kernel, by decide +kernel, ?_, by decide +kernel, exists_of_ok ?_, exists_of_ok ?_, exists_of_ok ?_, exists_of_ok ?_,
    exists_of_ok ?_, by decide +kernel, rfl, rfl⟩
  · unfold State.ShardFree; decide +kernel
  all_goals decide +kernel

/-- The same region with coordinate 7 in its root. -/
def sparse7 : State :=
  { sparse with mem := sparse.mem.writeN 0x40100 256 { Node.new 1 0 with version := 1, count := 1, ents := [(keyOf4 7 0 0 0, 5)] }.encode }

/-- A key that is not there and one that is. -/
theorem witness_SparseWritesKeep :
    (∃ a : (List (Nat × Nat) × Nat × Node) × Ev, theShard.find (keyOf4 7 0 0 0) { s := sparse, nodes := [], dirty := [], fresh := [], hdr := none } = .ok a ∧
      (a.1.2.2.value (keyOf4 7 0 0 0) == none) = true) ∧
    ∃ b : (List (Nat × Nat) × Nat × Node) × Ev, theShard.find (keyOf4 7 0 0 0) { s := sparse7, nodes := [], dirty := [], fresh := [], hdr := none } = .ok b ∧
      (b.1.2.2.value (keyOf4 7 0 0 0) == some 5) = true :=
  ⟨ok_and (P := fun (a : (List (Nat × Nat) × Nat × Node) × Ev) => a.1.2.2.value (keyOf4 7 0 0 0) == none) (by decide +kernel),
   ok_and (P := fun (a : (List (Nat × Nat) × Nat × Node) × Ev) => a.1.2.2.value (keyOf4 7 0 0 0) == some 5) (by decide +kernel)⟩

theorem witness_NodesReadBack :
    ∃ y z : Node, y = { Node.new 1 0 with count := 2, next := 2 ^ 24 - 1, ents := [(0, 2 ^ 64 - 1), (2 ^ 128 - 1, 1)] } ∧
      z = { Node.new 2 1 with seps := [2 ^ 127], kids := [5, 6] } ∧ y.kind = 1 ∧ y.ents.length ≤ 10 ∧ (∀ e ∈ y.ents, e.1 < 2 ^ 128 ∧ e.2 < 2 ^ 64) ∧
      z.kind = 2 ∧ z.kids.length = z.seps.length + 1 ∧ (∀ x ∈ z.seps, x < 2 ^ 128) ∧ ∀ c ∈ z.kids, c < 2 ^ 24 :=
  ⟨_, _, rfl, rfl, by decide +kernel⟩

theorem witness_RegionInstructions :
    (sparse.started (.sdecl 0 3 10)).plainRead (sparse.who 0) .load 0xF000000000000080 64 = .ok line (sparse.started (.sdecl 0 3 10)) ∧ badRegion line = false ∧
    sparse.freeRegion 0 = some 1 ∧ sparse.Flushed 0 ∧
    sparse.declStop { k := 0, core := 0, asid := 1, sup := true, unit := true } (spPool line) (List.range 2) = none ∧
    sparse.regionOf 0 0x8000000000000100 = some (0, theRegion) ∧ sparse.regionHeld 0 0 theRegion = false ∧
    (∃ y, theShard.run (sparse.discardAcc 0 1) theShard.freeAll = .ok y) ∧ (State.counts 0 0 theRegion [0] sparse).isSome = true ∧ (one []).freeRegion 0xFFFF = none := by
  refine ⟨by rfl, by decide +kernel, by decide +kernel, ?_, by decide +kernel, rfl, by decide +kernel, exists_of_ok ?_, by decide +kernel, by decide +kernel⟩
  · unfold State.Flushed; decide +kernel
  · decide +kernel

/-- A record that is open with a handle that lives, boxes in bounds; destinations that fit and that overlap. -/
theorem witness_CursorInstructions :
    (sparse.started (.siter 0 3 4 8)).plainRead (sparse.who 0) .load 0xF000000000000040 32 = .ok (99 * 2 ^ 128) (sparse.started (.siter 0 3 4 8)) ∧
    theRegion.boxOk (keyImage (99 * 2 ^ 128 % 2 ^ 128)) (keyImage (99 * 2 ^ 128 / 2 ^ 128)) = true ∧ (sparse.cursor 0 1).opened = false ∧
    (sparse.cursor 0 0).opened = true ∧ (sparse.cursorOf 0 0x8000000000000100).isSome = true ∧ (8 : Reg).toNat + 1 ≤ (9 : Reg).toNat ∧
    ¬((8 : Reg).toNat + 1 ≤ (8 : Reg).toNat) ∧ (State.batches 0 0 theRegion (sparse.cursor 0 0) [0] sparse).isSome = true ∧
    sparse.cursorOf 0 0x8000000000000101 = none := by
  refine ⟨by rfl, ?_⟩
  decide +kernel

/-- The block of a `DENSE` of the box 0 to 3 of that region to private scratch, which s9 names, and one whose handle is none, to memory. -/
def denseBlock (dst handle : Nat) : Nat := dst + handle * 2 ^ 64 + 3 * 2 ^ 256
def densing (dst handle : Nat) : State :=
  let s := sparse.modCore 0 fun x => { x with scratch := x.scratch.writeN 0x100 64 (denseBlock dst handle) }
  s.modCtx 0 fun c => { c with regs := c.regs.ws 9 0xF000000000000100 }

theorem witness_DenseIssue :
    ∃ s : State, s = densing 0xF000000000000200 0x8000000000000100 ∧ s.Ready ∧
      (s.started (.dense 0 3 9 5)).plainRead (s.who 0) .load 0xF000000000000100 64 =
        .ok (denseBlock 0xF000000000000200 0x8000000000000100) (s.started (.dense 0 3 9 5)) ∧
      (s.started (.dense 0 3 9 5)).blockTrap (s.env (.dense 0 3 9 5)) .dense 0xF000000000000100 (denseBlock 0xF000000000000200 0x8000000000000100) = none ∧
      (s.regionOf 0 0x8000000000000100).map (·.1) = some 0 ∧ badBox 1 (keyImage 0) (keyImage 3) = false ∧ s.scratchIn 0 0xF000000000000200 16 = true ∧
      (s.core 0).saving = false ∧ s.freeXfer 0 = some 0 ∧ shardsOf line (keyImage 0) (keyImage 3) ≠ [] ∧
      (densing 0x400 0x8000000000000101).regionOf 0 0x8000000000000101 = none ∧
      (densing 0x400 0x8000000000000101).blockTrap ((densing 0x400 0x8000000000000101).env (.dense 0 3 9 5)) .dense 0xF000000000000100
        (denseBlock 0x400 0x8000000000000101) = none ∧ winTag 0x400 = 0 := by
  refine ⟨_, rfl, ⟨rfl, rfl⟩, by rfl, ?_⟩
  decide +kernel

/-- A grid of rank 1, INT32, 64 cells in two parts with halos of one cell, periodic, DEPTH 2, blocks at VA 0, with this timeout. -/
def ring (timeout : Nat) : Nat :=
  1 + 2 ^ 16 * 2 + 0x11 * 2 ^ 32 + 0o11 * 2 ^ 64 + 64 * 2 ^ 128 + 2 ^ 160 + 2 ^ 192 + 2 * 2 ^ 224 + 2 ^ 240 + 2 ^ 256 + timeout * 2 ^ 384

/-- One cell in one part, without neighbours. -/
def point : Nat := 1 + 2 ^ 16 * 2 + 2 ^ 128 + 2 ^ 160 + 2 ^ 192 + 2 ^ 224 + 2 ^ 240 + 2 ^ 256

theorem witness_PartsCoverTheGrid : 1 ≤ gdP (ring 0) 0 ∧ gdP (ring 0) 0 ≤ gdE (ring 0) 0 ∧ 63 < gdE (ring 0) 0 ∧ badGrid (ring 0) = false := by decide +kernel

/-- Cell -1 of part 0 lies beyond a periodic face and cell 32 in part 1; cell -2 is out. -/
theorem witness_ShellsNameTheirOwners :
    axisCell (ring 0) 0 0 (-1) = .at 1 31 ∧ axisCell (ring 0) 0 0 32 = .at 1 0 ∧ axisCell (ring 0) 0 0 (-2) = .out ∧ gdBnd (ring 0) 0 = 1 := by decide +kernel

/-- A grid as entry 0 of launch slot 0, whose block is at 0x40000; the part is at step 5, with step 6 in its back and in slot 0 of segment 1; s4 is the
handle, the pairs s6, s8 and s10 name cells 0, 31 and -1 of part 0 with tags 5, 6 and 6, and s12 to s14 are words for `GSTEP`, `GSTAT` and `GWAIT`. -/
def gridded (desc : Nat) (timeout : Nat) : State :=
  let s := mapped (leafOf 0x200) 0 (user [(4, 0x8000000000000100), (6, 0), (7, 5), (8, 31), (9, 6), (10, 0x1FFFFF), (11, 6), (12, 1), (13, 1), (14, 6), (15, 0xF000000000000080)])
  { s with
    cores := [(0, { Core.reset 2 false 0 with slot := some 0, scratch := Mem.writeN [] 0x80 64 desc })],
    grids := [(0, { Grid.reset with gen := 1, declared := true, desc := desc, owners := [0, 0], at_ := 0xF000000000000080, asid := 1, timeout := timeout })],
    parts := [(0x40000, { m := 5, front := [(0, 11)], back := [(31, 12)], backTag := some 6,
                          segs := [(1, { slots := [(0, { stamp := some 6, cells := [(31, 13)], pts := 0 })], latest := some 6 })] })] }

theorem gridded_GridAt (i : Instr) (h : i = .ldg 0 3 4 6 ∨ i = .stg 3 4 8 ∨ i = .gwait 0 3 4 14) :
    ((gridded (ring 100) 100).started i).GridAt 0 0x8000000000000100 0 ((gridded (ring 100) 100).grid 0) ((gridded (ring 100) 100).started i) := by
  rcases h with rfl | rfl | rfl <;>
    exact ⟨(gridded (ring 100) 100).grid 0, by decide +kernel, .inl ⟨by decide +kernel, rfl, rfl⟩⟩

theorem witness_GridAccesses :
    ∃ s : State, s = gridded (ring 100) 100 ∧ s.Ready ∧ s.Owns 0 (s.grid 0) 5 ∧ s.PartOpen 0 0 (s.grid 0) 0 true 0x40000 ∧ s.PartOpen 0 0 (s.grid 0) 0 false 0x40000 ∧
      cellAt (ring 100) 0 (wordCoord 1 0) = .inside 0 ∧ cellAt (ring 100) 0 (wordCoord 1 31) = .inside 31 ∧ cellAt (ring 100) 0 (wordCoord 1 0x1FFFFF) = .ghost 1 31 ∧
      (s.partAt (ring 100) 0x40000).m = 5 ∧ (s.partAt (ring 100) 0x40000).backTag = some 6 ∧ (((s.partAt (ring 100) 0x40000).seg 1).slot 0).stamp = some 6 ∧
      newer 6 5 = true ∧ newer 4 5 = false ∧ (s.grid 0).fast = false ∧ 0 < (s.grid 0).timeout := by
  refine ⟨_, rfl, ⟨rfl, rfl⟩, ?_, ?_, ?_, by decide +kernel⟩
  · unfold State.Owns; decide +kernel
  · unfold State.PartOpen; decide +kernel
  · unfold State.PartOpen; decide +kernel

/-- A handle that is none; pairs that are none; part 2 of two; a part that another die owns. -/
theorem witness_GridAccessChecks :
    ∃ s : State, s = gridded (ring 0) 0 ∧ s.Ready ∧ (s.ctx 0).Enabled ∧ s.gridOf 0 0x8000000000000101 = none ∧ (7 : Reg).toNat % 2 = 1 ∧ 2 ^ 21 / 2 ^ (21 * 1) ≠ 0 ∧
      badPart (s.grid 0) (2 * 2 ^ 32) = true ∧ badPart (s.grid 0) (2 ^ 32) = false ∧ ({ s.grid 0 with owners := [0, 1] } : Grid).die 1 ≠ dieOf (coreOf 0) :=
  ⟨_, rfl, ⟨rfl, rfl⟩, ⟨rfl, rfl⟩, by decide +kernel⟩

/-- A part without neighbours, and one that feeds and is fed by part 1. -/
theorem witness_GridSteps :
    ∃ s t : State, s = gridded point 0 ∧ t = gridded (ring 100) 100 ∧ s.Ready ∧ t.Ready ∧ s.Flushed 0 ∧ s.Owns 0 (s.grid 0) 1 ∧ s.PartOpen 0 0 (s.grid 0) 0 true 0x40000 ∧
      feedsOf point 0 = [] ∧ s.pushesOf 0 0x40000 6 = [] ∧ feedsOf (ring 100) 0 = [1] ∧ ((s.partAt point 0x40000).m + 1) % 2 ^ 32 = 6 ∧
      segmentsOf (ring 100) 0 = [1] ∧ segmentsOf point 0 = [] ∧ badPart (s.grid 0) 1 = false ∧ (s.grid 0).pkg 0 = s.pkg.number ∧ 0 < (t.grid 0).timeout := by
  refine ⟨_, _, rfl, rfl, ⟨rfl, rfl⟩, ⟨rfl, rfl⟩, ?_, ?_, ?_, by decide +kernel⟩
  · unfold State.Flushed; decide +kernel
  · unfold State.Owns; decide +kernel
  · unfold State.PartOpen; decide +kernel

theorem witness_GridDeclarations :
    ∃ s : State, s = gridded point 0 ∧ (s.started (.gdecl 0 3 15)).plainRead (s.who 0) .load 0xF000000000000080 64 = .ok point (s.started (.gdecl 0 3 15)) ∧
      partsOk point = true ∧ badGrid point = false ∧ (s.started (.gdecl 0 3 15)).plainRead (s.who 0) .load (0xF000000000000080 + 64) 2 = .ok 0 (s.started (.gdecl 0 3 15)) ∧
      s.unmapped (haloWho 0 0 1) (blockEnds point [0]) = none ∧ (∀ e ∈ blockEnds point [0], s.misplaced (haloWho 0 0 1) (fun _ => 0) e = false) ∧
      s.freeGrid 0 = some 1 ∧ s.Flushed 0 ∧ s.initStop (haloWho 0 0 1) point [0] = none ∧ s.gridOf 0 0x8000000000000100 = some (0, s.grid 0) ∧
      s.gridBusy 0 0x8000000000000100 = false := by
  refine ⟨_, rfl, by rfl, by decide +kernel, by decide +kernel, by rfl, by decide +kernel, by decide +kernel, by decide +kernel, ?_, by decide +kernel, rfl,
    by decide +kernel⟩
  unfold State.Flushed; decide +kernel

/-! ### Witnesses: events -/

/-- Context 0 of a state with one outstanding instruction, due, that waits as w says. -/
def waits (s : State) (i : Instr) (w : Wait) : State :=
  s.modCtx 0 fun c => { c with state := w.how, win := held 0 (.pend i c.regs w) }

/-- The outstanding instruction of such a state. -/
def theOne (s : State) (i : Instr) (w : Wait) : Outst := { pos := 0, la := 0, pc := 0x1000, next := 0x1004, dropped := [], res := .pend i (s.ctx 0).regs w }

/-- What the next attempt of the waiting instruction answers. -/
def Done : Att → Bool
  | .done .. => true
  | _ => false

theorem done_of : ∀ {a : Att}, Done a = true → ∃ ws s, a = .done ws s
  | .done ws s, _ => ⟨ws, s, rfl⟩

theorem waits_ctx (s : State) (i : Instr) (w : Wait) :
    (waits s i w).ctx 0 = { s.ctx 0 with state := w.how, win := held 0 (.pend i (s.ctx 0).regs w) } := by
  rw [waits, State.modCtx_eq, State.ctx_setCtx_same]

theorem waits_Waits (s : State) (i : Instr) (w : Wait) (h : w.how ≠ .blocked) : (waits s i w).Waits 0 (theOne s i w) i (s.ctx 0).regs w :=
  ⟨by rw [waits_ctx]; rfl, rfl, by rw [waits_ctx]; exact Nat.zero_lt_one, fun x => absurd x h⟩

/-- A `SYNC` that waits for nothing any more, and an `SLD` and an `LDG` that their homes can serve. -/
theorem witness_ResultsOfWaits :
    (∃ ws s2, attemptOf .sync ((theOne (one []) .sync (waitFor .parked [])).env 0 .sync Regs.reset (waitFor .parked [])) (waits (one []) .sync (waitFor .parked [])) =
      .done ws s2) ∧
    (∃ ws s2, attemptOf (.sld 0 3 4 5) ((theOne sparse (.sld 0 3 4 5) (waitFor .running [])).env 0 (.sld 0 3 4 5) (sparse.ctx 0).regs (waitFor .running []))
      (waits sparse (.sld 0 3 4 5) (waitFor .running [])) = .done ws s2) ∧ (Instr.sld 0 3 4 5).accesses = 2 ∧ (Instr.ldg 0 3 4 6).accesses = 3 ∧
    (∃ ws s2, attemptOf (.ldg 0 3 4 10) ((theOne (gridded (ring 100) 100) (.ldg 0 3 4 10) (waitFor .running [1])).env 0 (.ldg 0 3 4 10)
      ((gridded (ring 100) 100).ctx 0).regs (waitFor .running [1])) (waits (gridded (ring 100) 100) (.ldg 0 3 4 10) (waitFor .running [1])) = .done ws s2) :=
  ⟨⟨_, _, rfl⟩, done_of (by decide +kernel), rfl, rfl, done_of (by decide +kernel)⟩

/-- A parked `SYNC` of a frame with a stolen continuation: woken by its home with its counter 0, and polling a counter that is not 0. -/
def syncing (at_ : Nat) (w : Wait) : State := waits (joining 7 at_) .sync w
def watching : Wait := { how := .parked, deadline := none, aux := syncWatch 0 0x40040 }
def polling : Wait := { how := .parked, deadline := some 0x50000, aux := syncPolls }

theorem witness_SyncReads :
    (∃ o, (syncing 0x40 watching).Waits 0 o .sync ((joining 7 0x40).ctx 0).regs watching) ∧
    (∃ o, (syncing 0 polling).Waits 0 o .sync ((joining 7 0).ctx 0).regs polling) ∧
    (∀ s ∈ [syncing 0x40 watching, syncing 0 polling], s.isHandler 0 = false ∧ (s.ctx 0).framePub = true ∧ ((s.ctx 0).frameS || (s.ctx 0).frameD) = true ∧
      s.atomicChecks 0 (frJoin (s.ctx 0).snap) = none) ∧
    (∃ s1 : State, s1 = (syncing 0x40 watching).modCtx 0 Ctx.syncWakes ∧ ∃ s2, s1.acquireRead (s1.who 0) 0x40 true = .ok 0 s2 ∧ (s2.ctx 0).win = (s1.ctx 0).win) ∧
    (∃ s1 : State, s1 = (syncing 0 polling).runTo 0 0x50000 ∧ s1.reached 0 0x50000 = true ∧
      ∃ s2, s1.acquireRead (s1.who 0) 0 true = .ok 0x1122334455667788 s2 ∧ (s2.ctx 0).win = (s1.ctx 0).win) := by
  refine ⟨⟨_, waits_Waits _ _ _ (by decide)⟩, ⟨_, waits_Waits _ _ _ (by decide)⟩, by decide +kernel, ⟨_, rfl,
    ok_and_value (P := fun t => decide ((t.ctx 0).win = (((syncing 0x40 watching).modCtx 0 Ctx.syncWakes).ctx 0).win)) (by decide +kernel) fun _ h => of_decide_eq_true h⟩,
    _, rfl, by decide +kernel,
    ok_and_value (P := fun t => decide ((t.ctx 0).win = (((syncing 0 polling).runTo 0 0x50000).ctx 0).win)) (by decide +kernel) fun _ h => of_decide_eq_true h⟩

/-- A context that waits until time 0x50000. -/
def until_ (how : CtxState) (aux : List Nat) : Wait := { how := how, deadline := some 0x50000, aux := aux }

theorem witness_TimesOfWaits :
    (∃ i g w, (waits (holding []) (.mbxw 3 4 5) (until_ .parked [])).Waits 0 (theOne (holding []) (.mbxw 3 4 5) (until_ .parked [])) i g w ∧ w.deadline = some 0x50000) ∧
    ((waits (holding []) (.mbxw 3 4 5) (until_ .parked [])).runTo 0 0x50000).reached 0 0x50000 = true ∧ ((one []).die 0).offset = 0 ∧
    ((one []).die 0).tclk ≤ 0x50000 ∧ 0x50000 < ((one []).die 0).tclk + 2 ^ 63 ∧
    ((waits (gridded (ring 100) 100) (.gwait 0 3 4 8) (until_ .running [1])).runTo 0 0x50000).reached 0 0x50000 = true ∧
    bit ((waits (holding []) (.mbxw 3 4 5) (until_ .parked [])).ctx 0).hold 9 = true ∧ (holding []).oldest 0 9 = none ∧ ((one []).counter 0 5).done = false ∧
    (waits (one []) .wfi (until_ .parked [])).awake 0 = false ∧ ((one []).die 0).power ≠ .d3 ∧
    (∃ s : State, s = waits (gridded (ring 100) 100) (.gwait 0 3 4 8) (until_ .running [1]) ∧ (s.runTo 0 0x50000).Owns 0 (s.grid 0) 6 ∧
      (s.runTo 0 0x50000).PartOpen 0 0 (s.grid 0) 0 false 0x40000) := by
  refine ⟨⟨_, _, _, waits_Waits _ _ _ (by decide), rfl⟩, by decide +kernel, by decide +kernel, by decide +kernel, by decide +kernel, by decide +kernel, by decide +kernel, by decide +kernel, by decide +kernel,
    by decide +kernel, by decide +kernel, _, rfl, ?_, ?_⟩
  · unfold State.Owns; decide +kernel
  · unfold State.PartOpen; decide +kernel

/-- A fault that is due; an answer with a page fault; a context that awaits a reply, and the reply; a launch to kill. -/
theorem witness_FaultEvents :
    (∃ s : State, s = put 0 { user [] with win := held 0 (.trap 0x0B 3) } State.reset ∧ (s.ctx 0).Enabled ∧ (s.ctx 0).win.outst.length = 1) ∧
    (∃ r : AccessReq, ∃ a : Answer, a = { req := r, fault := some (0, 3, 0), value := 0 } ∧ takeAnswer 0 [a] = some (a, []) ∧ ((one []).ctx 0).sup = false ∧
      bit ((one []).ctx 0).mbx.toNat 63 = false) ∧
    takeReply 0 1 [{ thread := 2 ^ 62, code := 1 }] = some ({ thread := 2 ^ 62, code := 1 }, []) ∧
    ({ user [] with mbx := 0x8000000000000000, win := held 0 (.pend (.ldD 0 9 5 0) Regs.reset (waitFor .blocked [8])) } : Ctx).awaits { thread := 2 ^ 62, code := 1 } = true ∧
    (Instr.ldD 0 9 5 0).queues = false := by
  refine ⟨⟨_, rfl, ⟨rfl, rfl⟩, rfl⟩, ⟨{ k := 0, kind := .load, va := 8, size := 8, data := 0 }, _, rfl, rfl, rfl, rfl⟩, by decide +kernel, by decide +kernel, rfl⟩

/-- A fault that streamer 32 of die 0 holds for a request, of a launch that runs. -/
def unitFaulted : State :=
  { (one []).modDie 0 fun x => { x with
      faults := [(32 * 2 ^ 32 + 1, { va := 0x5000, ctx := 0, slot := 3, place := placeInbox, reply := .waiting })]
      inbox := [(32, [{ newReq .copy 0 0x5000 0xF000000000000000 64 with fault := some (32 * 2 ^ 32 + 1) }])] } with
    launches := [(3, { Launch.reset with state := .running, clusters := [0] })] }

theorem witness_UnitFaultReplies :
    ((unitFaulted.die 0).faults.find (32 * 2 ^ 32 + 1)).map (·.reply) = some .waiting ∧ ((unitFaulted.die 0).faults.find (32 * 2 ^ 32 + 1)).map (·.place) = some placeInbox ∧
    (heldBy (32 * 2 ^ 32 + 1) 0 (unitFaulted.inboxOf 0 32)).isSome = true ∧ (unitFaulted.launch 3).state ≠ .free := by decide +kernel

/-- A load, a store and a fill of a mapped page, and a load of one that is not. -/
theorem witness_WalksAndAccesses :
    ((mem0 0).die 0).power = .d0 ∧ ((mem0 0).die 0).lost = false ∧ (∃ pte at_ level, ((mem0 0).modDie 0 fun x => { x with tlb := [] }).walk 0 1 0 = .leaf pte at_ level) ∧
    (∀ x ∈ (((mem0 0).modDie 0 fun x => { x with tlb := [] }).die 0).tlb, x.serves 1 0 = false) ∧
    winTag 0 = 0 ∧ (∃ x t, (mem0 0).plainRead ((mem0 0).who 0) .load 0 8 = .ok x t) ∧ (∃ x t, (mem0 0).plainStore ((mem0 0).who 0) 8 8 5 = .ok x t) ∧
    (∃ x t, (mem0 0).atomic ((mem0 0).who 0) .atomic 0 (fun _ => some 5) = .ok x t) ∧ (mem0 0).plainRead ((mem0 0).who 0) .load 0x10000 8 = .fault 0x10000 0 3 0 ∧
    (∃ s : State, s = (mem0 0).modCore 0 (fun x => { x with pword := 0x84826 }) ∧ s.l1Lines 0 ≠ 0 ∧ (s.core 0).coming = [] ∧
      s.prefetchable (s.who 0) 0 = some (0x40000, leafOf 0) ∧ s.local_ 0x40000 = true ∧ (s.core 0).l1 = []) ∧ (mem0 0x400).prefetchable ((mem0 0x400).who 0) 0 = none := by
  refine ⟨rfl, rfl, ⟨_, _, _, rfl⟩, by decide +kernel, rfl, ok_of (by decide +kernel), ok_of (by decide +kernel), ok_of (by decide +kernel), rfl, ⟨_, rfl, ?_⟩, ?_⟩ <;>
    decide +kernel

/-- Values at the ends of the ranges of `LTSET` and `LTPERIOD`; a frozen window and none. -/
theorem witness_RegisterEvents :
    64 ≤ 2 ^ 20 ∧ (2 : Nat) ^ 20 ≤ 2 ^ 20 ∧ (63 : Nat) < 64 ∧ (2 : Nat) ^ 20 < 2 ^ 20 + 1 ∧ ((one []).ctx 0).frozenT = none ∧
    (∃ s : State, s = put 0 { user [] with frozenT := some (held 2 (.ok [.s 5 7])) } State.reset ∧ ∃ w, (s.ctx 0).frozenT = some w ∧ w.outst.length = 1) :=
  ⟨by decide, by decide, by decide, by decide, rfl, _, rfl, _, rfl, rfl⟩

/-- A context with interrupts enabled, whose counter 5 is pending for it. -/
theorem witness_CompletionInterrupts :
    ∃ s : State, s = (put 0 { user [] with uien := 1 } State.reset).setCounter 0 5 { Counter.reset with uip := true, uipc := 0x3000, armer := 0 } ∧
      ((s.core 0).counters.find 5).map (·.uip) = some true ∧ (∀ m, m < 5 → (s.core 0).counters.find m = none) ∧ (s.ctx 0).state ≠ .free ∧ (s.ctx 0).win.outst = [] ∧
      bit (s.ctx 0).uien.toNat 0 = true ∧ bit (s.ctx 0).uien.toNat 1 = false ∧ (s.ctx 0).retry = false ∧ (s.ctx 0).member = false := ⟨_, rfl, by decide +kernel⟩

/-- Die 1 owns a dirty line of die 0. -/
theorem witness_LinesGoHome :
    ((owning.die 1).owned.find 0x1000).map (·.dirty) = some true ∧ owning.local_ (0x1000 * 64) = true ∧ (owning.die 1).power ≠ .d3 ∧
    (∀ e, e < 8 → e ≠ 1 → (owning.die e).owned.find 0x1000 = none) ∧ owning.dirtyCores 1 0x1000 = [] ∧
    (∃ s : State, s = owning.modCore 512 (fun x => { x with l1 := [(0x1000, { copyOf true with dirty := 3 })] }) ∧ s.dirtyCores 1 0x1000 = [512] ∧
      s.linePinned 1 1 0 = false) := by
  refine ⟨by decide +kernel, by decide +kernel, by decide +kernel, by decide +kernel, by decide +kernel, _, rfl, by decide +kernel⟩

theorem witness_RenewalsAndTokens :
    ∃ s : State, s = far.modDie 1 (fun x => { x with guest := [(0x1000, { data := 5, wts := 0, rts := 3 })] }) ∧
    s.local_ 0x40000 = true ∧ homeDie 0x40000 ≠ dieOf (coreOf 4096) ∧ (s.die 1).power = .d0 ∧ (s.die 1).lost = false ∧ (s.die 0).power = .d0 ∧ (s.die 0).lost = false ∧
    (s.die 1).owned.find (0x40000 / 64) = none ∧ (s.die 1).guest.find (0x40000 / 64) ≠ none ∧ (0 : Nat) < 8 ∧ (8 : Nat) ≤ 8 := ⟨_, rfl, by decide +kernel⟩

/-- An SC operation that has taken its stamp, and one before it. -/
def ordered (l : List ScOp) : State := (one []).modDie 0 fun x => { x with scq := l }

theorem witness_LogicalTime : ∀ c, ∀ e ∈ (State.reset.core c).l1, e.2.dirty = 0 := fun _ e h => absurd h (List.not_mem_nil (a := e))

theorem witness_LogicalTimeAndOrder :
    (State.reset.die 0).power ≠ .d3 ∧ (State.reset.die 0).lost = false ∧ State.reset.local_ (5 * 64) = true ∧
    ((ordered [{ ctx := 0, seq := 1, stamp := some (13107200, 1) }]).die 0).scq.find? (fun x => x.ctx == 0 && x.stamp.isSome) = some { ctx := 0, seq := 1, stamp := some (13107200, 1) } ∧
    keyLt (ScOp.key { ctx := 8, seq := 1, stamp := some (0, 0) }) (ScOp.key { ctx := 0, seq := 1, stamp := some (13107200, 1) }) = true := by decide +kernel

/-- A registration with nothing in its way, and one behind a lock; a line at home; a flip that waits for the host. -/
theorem witness_LocksAndTheHost :
    grantable [] [] { core := 0, xfer := 0, ranges := [(1, 5, 6, true)], reqs := [] } = true ∧
    grantable [] [(0, 1, 6)] { core := 0, xfer := 0, ranges := [(1, 5, 6, true)], reqs := [] } = false ∧
    grantable [{ key := 1, lo := 6, hi := 9, dest := true, core := 8, xfer := 0 }] [] { core := 0, xfer := 0, ranges := [(1, 5, 6, true)], reqs := [] } = false ∧
    (0 : Nat) < 1024 ∧ (State.reset.inboxOf 0 32).length + 1 ≤ 32 ∧ (one []).accessedBefore 0 1 = false ∧ ((one []).die 0).held = [] ∧ ((one []).ctx 0).state ≠ .free ∧
    State.reset.local_ 0x1000 = true ∧ 0x1000 % 2 ^ 36 < Config.hbmBytes ∧ State.reset.poisoned 0x1000 = false := by decide +kernel

/-- A core of launch slot 0 with a handler context, a handler of class 9 and these messages; s.t. context 1 is free. -/
def served (ms : List Msg) (hs : Tab HEntry) : State :=
  { State.reset with
    cores := [(0, { Core.reset 2 false 0 with pword := 0x12, slot := some 0, handlers := hs, recv := ms, hmask := 2 ^ 9 })],
    launches := [(0, { Launch.reset with state := .running, clusters := [0] })] }

/-- A handler entry, and messages of class 9: one for core 0 of launch slot 0, and one that has arrived. -/
def anEntry : HEntry := { pc := 0x4000, prio := 3, arg := 7 }
def coming : Msg := { hwMsg 0 9 4 8 5 0 0 with hsrc := false, sender := 8 }
def pending : Msg := { hwMsg 0 9 4 8 5 0 0 with bound := some anEntry }

/-- Messages that no handler takes, that one takes, and that fill the store; a core of another launch; a thread that is not there. -/
theorem witness_MessageArrivals :
    ({ served [] [] with net := [coming] } : State).nextFor 0 = some (coming, []) ∧
    ({ served [] [] with net := [coming, { coming with nc := 7, cls := 5 }] } : State).nextFor 0 = some ({ coming with nc := 7, cls := 5 }, [coming]) ∧
    (served [] []).renegotiating 0 = false ∧ coming.nc ≠ 7 ∧ coming.hsrc = false ∧
    (served [] []).isService 0 = false ∧ (served [] []).savedHere 0 0 = false ∧ ((served [] []).core 0).slot = some coming.slot ∧
    ((served [] []).core 0).slot ≠ some 5 ∧ (served [] []).threadHere (2 ^ 62) = false ∧ ((served [] []).core 0).handlers.find 9 = none ∧
    ((served [] []).cluster 0).undCount < ((served [] []).cluster 0).undQuota ∧ ((served [] [(9, anEntry)]).core 0).handlers.find 9 = some anEntry ∧
    (served [] [(9, anEntry)]).wouldSpill 0 9 = false ∧ (served (List.replicate 15 pending) [(9, anEntry)]).wouldSpill 0 9 = true ∧
    (served (List.replicate 15 pending) [(9, anEntry)]).ringRoom 0 = true := by decide +kernel

theorem witness_Takes : (served [] []).Takes 0 coming := ⟨.inr (by decide +kernel), by decide +kernel⟩

/-- A bounce at a core with class 0 enabled and an entry, and at one without. -/
theorem witness_BounceArrivals :
    takeFor (fun x => dstCore x.dst == 0) [coming] = some (coming, []) ∧ (served [] []).savedHere coming.slot 0 = false ∧
    ((served [] []).core 0).handlers.find 0 = none ∧ ((served [] [(0, anEntry)]).core 0).handlers.find 0 = some anEntry ∧
    ((one []).core 0).hmask.testBit 0 = true ∧ (served [] [(0, anEntry)]).wouldSpill 0 0 = false := by decide +kernel

theorem witness_HandlerStarts :
    ((served [pending] []).core 0).saving = false ∧ ((served [pending] []).core 0).stopped = false ∧ (served [pending] []).renegotiating 0 = false ∧
    (served [pending] []).freeHandler 0 = some 1 ∧ (served [pending] []).selected 0 = some pending ∧ pending.bound = some anEntry := by decide +kernel

/-- A die whose distributor has a message that core 0 accepts. -/
def offering : State := (served [] [(9, anEntry)]).modDie 0 fun x => { x with fifo := [coming] }

/-- An event queue of 16 entries in host memory with these events waiting. -/
def hostQueue (head tail : Nat) (l : List HostEvent) : EvQ :=
  { base := 2 ^ 51 + 0x1000, entries := 32, header := 2 ^ 51, vector := 1, tail := tail, head := head, buffer := l, drops := 0, signalled := none, owed := true, signals := 0 }

/-- An event of TYPE n. -/
def hostEv (n : Nat) : HostEvent := { type := n, slot := 0, tag := 0, info := 0, payload := 0 }

/-- A state with that event queue as queue 0. -/
def evented (head tail : Nat) (l : List HostEvent) : State := { State.reset with evqs := [(0, hostQueue head tail l)] }

theorem witness_DistributorAndHost :
    (offering.die 0).fifo = [coming] ∧ ((List.range 512).find? fun c => offering.accepts c coming) = some 0 ∧ Tab.get 0 (offering.die 0).pointers 9 = 0 ∧
    offering.offered 0 = some (coming, some 0) ∧ dstKind coming.dst ≠ 1 ∧ offering.savedHere coming.slot 0 = false ∧ (evented 0 0 []).hostAccepts 0 = true ∧ (evented 0 0 (List.replicate 16 (hostEv 1))).hostAccepts 0 = false := by
  decide +kernel

/-- A follower with an `ADD` in its port, and one with a `SYNC`; a context that has left. -/
theorem witness_FollowerEvents :
    decodeBits 4 0x502D2483 = some (.add 5 9 18 22) ∧ (Instr.add 5 9 18 22).leavesHoist = false ∧ Instr.sync.leavesHoist = true ∧
    decodeBits 4 Instr.sync.word = some .sync ∧
    (∃ c : Ctx, c = { user [] with state := .following, member := true, leader := some (8, 0), port := [{ pc := 0x2000, next := 0x2004, taken := none, len := 4, bits := 0x502D2483 }] } ∧
      c.latch = none ∧ c.member = true ∧ c.leader = some (8, 0)) ∧
    ({ user [] with win := held 0 (.pend (.rejoin 0 0) Regs.reset (waitFor .parked (rejoinWaits 0x2000))) } : Ctx).watches = some 0x2000 ∧ (hasLeft.ctx 0).watches = none := by
  exact ⟨by decide +kernel, rfl, rfl, by decide +kernel, ⟨_, rfl, rfl, rfl, rfl⟩, rfl, rfl⟩

/-! Tasks -/

/-- Cores 0 and 1 of a launch: core 1 searches, core 0 has one entry to give. -/
def stealing (st : StealEngine) (q : List DqEntry) : State :=
  { served [] [] with
    cores := [(0, { Core.reset 2 false 0 with slot := some 0, deque := q }), (1, { Core.reset 2 false 1 with slot := some 0, steal := st })] }

/-- The entry, its join counter in the cluster window's start or in memory. -/
def given (st : DqState) : DqEntry :=
  { snap := 0, frame := 0x80, resume := 0x1234, owner := 0, gen := 0, foot := 0, state := st, bound := false, fS := false, fD := false, pts := 0, barred := 0 }

theorem witness_StealRounds :
    ∃ s t : State, s = stealing StealEngine.reset [given .present] ∧ t = stealing { StealEngine.reset with round := true, pos := 12 } [given .present] ∧
      s.searches 1 = true ∧ (s.core 1).steal.round = false ∧ (s.core 1).steal.resumeAt = none ∧ (t.core 1).steal.round = true ∧ t.freeTask 1 = some 8 ∧
      (t.probes 1)[12]? = some (.core 0) ∧ (t.probe 1 (.core 0)).isSome = true ∧ (t.probe 1 (.core 2)) = none ∧
      12 + 1 < stealBudget (t.core 1).stealcfg ∧ stealBudget (t.core 1).stealcfg ≤ 31 + 1 := ⟨_, _, rfl, rfl, by decide +kernel⟩

/-- A claim of that entry by core 1, with the tables of `mapped`, and the same one stolen. -/
def claimed (stolen : Bool) : State :=
  { mapped (leafOf 0) 0 (user []) with
    launches := [(0, { Launch.reset with state := .running, clusters := [0], asid := 1 })],
    cores := [(0, { Core.reset 2 false 0 with slot := some 0, deque := [given .claimed] }),
              (1, { Core.reset 2 false 1 with slot := some 0, claims := [{ newClaim 0 (given .claimed) false 8 [] with stolen := stolen }] })] }

theorem witness_StealDispatches :
    (∃ x, ((claimed false).core 1).claims = [x] ∧ ((claimed false).core 0).spilled = 0 ∧
      (∃ n t, (claimed false).fabric ((claimed false).part 0 0) 0 0 (fun m => (m + 1) % 2 ^ 64) = .ok n t) ∧ placeOf x.entry ((claimed false).core 0) = some 0) ∧
    (∃ x, ((claimed true).core 1).claims = [x] ∧ x.fault = none ∧ x.signalled = none ∧ (claimed true).freeForTask x.ctx = true ∧ coreOf x.ctx = 1 ∧
      x.pins (claimed true) 1 = [] ∧ ∃ n t, (claimed true).fetchTiles 1 x ((claimed true).landedOn 1) x.tiles = .ok n t) :=
  ⟨⟨_, rfl, rfl, ok_of (by decide +kernel), by decide +kernel⟩, ⟨_, rfl, rfl, rfl, by decide +kernel, by decide +kernel, by decide +kernel, ok_of (by decide +kernel)⟩⟩

/-- A launch whose root frame lies at VA 0x40, ready to be read; an entry offered to a queue; a proposal with a deadline. -/
def rooted : State :=
  { mapped (leafOf 0) 0 (user []) with launches := [(0, { Launch.reset with state := .running, clusters := [0], root := 0x40, asid := 1 })] }

theorem witness_TaskQueues :
    (rooted.launch 0).state = .running ∧ (rooted.launch 0).rootReady = false ∧ winTag (rooted.launch 0).root = 0 ∧
    rooted.engStop { k := 0, core := 0, asid := 1, sup := false, unit := false } .engRead 0x40 64 = none ∧
    (∃ o : Offer, o = { queue := 3, entry := given .present, ctx := 0, pkg := 0, status := none } ∧ [o].find? (fun o => o.queue == 3 && o.status.isNone) = some o ∧
      o.pkg = State.reset.pkg.number) := by
  refine ⟨rfl, rfl, by decide +kernel, by decide +kernel, _, rfl, rfl, rfl⟩

theorem ringWrite_ok {s : State} {c i n : Nat} (h : s.engStop (s.overflow c) .engWrite (s.ringAt c i) (128 * n) = none) : ∃ v t, s.ringWrite c i n = .ok v t := by
  unfold State.ringWrite
  simp only [h]
  exact ⟨_, _, rfl⟩
theorem ringRead_ok {s : State} {c i n : Nat} (h : s.engStop (s.overflow c) .engRead (s.ringAt c i) (128 * n) = none) : ∃ v t, s.ringRead c i n = .ok v t := by
  unfold State.ringRead
  simp only [h]
  exact ⟨_, _, rfl⟩

/-- A deque that is full, and one of 32 entries that all lie in its ring. -/
theorem witness_Overflow :
    64 ≤ ((fullDeque 32).core 0).hardware ∧ ((fullDeque 32).core 0).ringFault = none ∧ ∃ v s2, (fullDeque 32).ringWrite 0 0 32 = .ok v s2 :=
  ⟨by decide +kernel, rfl, ringWrite_ok (by decide +kernel)⟩
theorem witness_Refills :
    ∃ s : State, s = (fullDeque 64).modCore 0 (fun x => { x with spilled := 64 }) ∧ (s.core 0).hardware ≤ 16 ∧ (∃ v s2, s.ringRead 0 32 32 = .ok v s2) ∧
      ∀ e ∈ (s.core 0).deque, e.state ≠ .stolen := ⟨_, rfl, by decide +kernel, ringRead_ok (by decide +kernel), by decide +kernel⟩

/-- A release of a team of core 0 with a good word, and with one that is none. -/
def renegotiating (w : Nat) : State :=
  { State.reset with clusters := [(0, { Cluster.reset 0 with barriers := [(3, { Barrier.reset 1 with releasing := true, words := [(w, 0, 0)] })] })] }

theorem witness_RenegotiatedReleases :
    ((renegotiating 1).barrier 0 3).releasing = true ∧ (renegotiating 1).teamId 0 = 0 ∧ ((renegotiating 1).wordFault ((renegotiating 1).barrier 0 3) [0]) = none ∧
    (renegotiating 1).poolBusy [0] 0 = false ∧ ((renegotiating 1).core 0).queue = [] ∧ ((renegotiating 1).core 0).storing = [] ∧ ((renegotiating 1).core 0).l1 = [] ∧ ((renegotiating 0).wordFault ((renegotiating 0).barrier 0 3) [0]).isSome = true ∧
    (renegotiating 1).team 0 = [0] := by decide +kernel

/-! Engines -/

/-- Such a transfer, whose one request waits at its cluster's streamer. -/
def moving (op : XferOp) (src dst n : Nat) (idx : Option Nat) (esize list mask : Nat) : State :=
  { State.reset.modDie 0 (fun x => { x with inbox := [(32, [{ newReq op 0 src dst n with idx := idx }])] }) with
    cores := [(0, { Core.reset 2 false 0 with xfers := [(0, aXfer op src dst n esize list mask)] })] }

theorem witness_CopySegments :
    ∃ s : State, s = moving .copy 0xF000000000000000 0xF000000000000040 64 none 0 0 0 ∧ (firstReq .copy 0 ((s.inboxOf 0 32).take inboxServed)).isSome = true ∧
      (∃ r x, firstReq .copy 0 ((s.inboxOf 0 32).take inboxServed) = some (0, r) ∧ s.xferOf r = some x ∧ x.error = none ∧ r.n = 64 ∧ r.pos = 0) ∧ 64 + 64 ≤ s.scratchBytes 0 ∧
      winTag 0xF000000000000000 = 0xF0 ∧ winOff 0xF000000000000000 + 64 ≤ winOff 0xF000000000000040 :=
  ⟨_, rfl, by decide +kernel, ⟨_, _, rfl, rfl, rfl, rfl, rfl⟩, by decide +kernel, by decide, by decide⟩

theorem witness_ChunksAndMulticasts :
    (∃ r x, firstReq .get 0 (((moving .get 0xF000000000000000 0xF000000000000400 4 (some 3) 8 0xF000000000000800 0).inboxOf 0 32).take inboxServed) = some (0, r) ∧
      (moving .get 0xF000000000000000 0xF000000000000400 4 (some 3) 8 0xF000000000000800 0).xferOf r = some x ∧ r.idx = some 3 ∧ x.error = none) ∧
    (∀ q, q < 4 → winTag ((0xF000000000000000 + idxAt 3 q * 8) % 2 ^ 64) = 0xF0) ∧
    (∃ i m wts t, (moving .get 0xF000000000000000 0xF000000000000400 4 (some 3) 8 0xF000000000000800 0).elements { k := 0, core := 0, asid := 0, sup := false, unit := false } 0 8
      (fun j => (0xF000000000000000 + idxAt 3 j * 8, 0xF000000000000400 + j * 8)) 4 0 0 = (t, i, m, wts)) ∧
    (moving .copym 0 0xF000000000000000 64 none 0 0 3).badMulticast 0 3 0 64 = false :=
  ⟨⟨_, _, rfl, rfl, rfl, rfl⟩, by decide +kernel, ⟨_, _, _, _, rfl⟩, by decide +kernel⟩

theorem witness_HeldPackets :
    ∃ s : State, s = { State.reset with clusters := [(0, { Cluster.reset 0 with residual := [{ mask := 3, off := 64, len := 128, data := 5, core := 0, xfer := 0 }] })] } ∧
      (s.cluster 0).residual = [{ mask := 3, off := 64, len := 128, data := 5, core := 0, xfer := 0 }] := ⟨_, rfl, rfl⟩

/-- The last acknowledgement of a transfer, one of an error, and a request whose fault has been answered. -/
theorem witness_Acknowledgements :
    takeAckFor 0 [{ core := 0, xfer := 0, bytes := 64, wts := 0, last := true, error := none }] = some ({ core := 0, xfer := 0, bytes := 64, wts := 0, last := true, error := none }, []) ∧
    (((moving .copy 0xF000000000000000 0xF000000000000040 64 none 0 0 0).core 0).xfers.find 0).map (fun x => (x.owed, x.pieces, x.error)) = some (64, 1, none) ∧
    notV 0 = false ∧ notV (2 ^ 31 + 5 * 2 ^ 24) = true ∧ unitFaulted.inboxOf 0 32 = [{ newReq .copy 0 0x5000 0xF000000000000000 64 with fault := some (32 * 2 ^ 32 + 1) }] :=
  ⟨rfl, rfl, by decide, by decide, rfl⟩

/-! The array, the index engines and the halo engines -/

/-- Cores 1 and 2 ask for the lease, core 2 first; a lease that has run out. -/
def asking : State :=
  { State.reset with cores := [(1, { Core.reset 2 false 1 with lease := { Lease.reset with state := .wait, n := 4, age := 9 } }),
                               (2, { Core.reset 2 false 2 with lease := { Lease.reset with state := .wait, n := 4, age := 5 } })] }

theorem witness_LeaseEvents :
    asking.holder 0 = none ∧ (asking.core 2).lease.state = .wait ∧ ((asking.cluster 0).lastGrant + 1 + 2) % 16 = 2 ∧
    (∀ j, j < 16 → j ≠ 2 → (asking.core j).lease.state = .wait → (asking.core 2).lease.age < (asking.core j).lease.age) ∧
    ((leased .held []).core 0).lease.out ((leased .held []).arrayCycle 0) = true := by decide +kernel

/-- An INT8 product at the head of the queue of the lease's holder, before and after its start; a fill that has arrived. -/
def multiplying (started : Bool) : State :=
  let f := fun (b : Bool) => { fillOf b with fmt := 1 }
  let q := { newCmd .mma 0 0 1 0x911 0 with slotA := 1, slotB := 2, started := started }
  { put 0 { user [] with win := held 0 (.pend (.mma 0 1 4 5) Regs.reset (waitFor .running (queued 0))) } State.reset with
    cores := [(0, { Core.reset 2 false 0 with pword := 0x101, fmt := some 0x911, queue := [q], lease := { Lease.reset with state := .held, n := 4, left := 4 } })],
    clusters := [(0, { Cluster.reset 0 with slots := [(1, { Slot.reset with state := .ready, fills := [f false] }), (2, { Slot.reset with state := .ready, fills := [f true] }),
      (3, { Slot.reset with state := .filling, fills := [{ fillOf false with ended := false, code := 256 }] })] })] }

theorem witness_ArrayCommands :
    (multiplying false).holder 0 = some 0 ∧ ((multiplying false).core 0).queue.length = 1 ∧ ((multiplying false).core 0).lease.left ≠ 0 ∧
    (∃ q, ((multiplying false).core 0).queue.head? = some q ∧ q.op ≠ .place ∧ q.started = false ∧ (∃ a b, (multiplying false).operandsOf 0 q = .ready a b) ∧
      (multiplying false).tileHeld 0 q.ctx q.tile = false) ∧
    (∃ q, ((multiplying true).core 0).queue.find? (·.started) = some q ∧ fwA q.fmt = 1 ∧ fwAcc q.fmt = 1 ∧ fwSat q.fmt = false) ∧
    (∃ f, ((multiplying true).slot 0 3).fills = [f] ∧ f.ended = false ∧ 256 ≤ f.code) :=
  ⟨by decide +kernel, rfl, by decide +kernel, ⟨_, rfl, by decide +kernel, rfl, ⟨_, _, rfl⟩, by decide +kernel⟩, ⟨_, rfl, by decide +kernel, by decide +kernel, by decide +kernel⟩,
   ⟨_, rfl, rfl, by decide⟩⟩

/-- An accumulator entry that was touched long ago; a push of step 6 whose slot is free and one whose slot holds a step that is needed. -/
def pushing (stamp : Option Nat) : State :=
  { gridded (ring 100) 100 with
    pushes := [{ src := 0x80000, srcPart := 1, dst := 0, dstPart := 0, to_ := 0, depth := 2, step := 6, cells := [(31, 13)], ctx := 0, gen := 0, pts := 0, grid := 0, fault := none, error := none }],
    parts := [(0x40000, { m := 5, front := [], back := [], backTag := none, segs := [(1, { slots := [(0, { stamp := stamp, cells := [], pts := 0 })], latest := stamp })] })] }

theorem witness_SpillsAndPushes :
    (pushing none).blockStop (haloWho 0 0 1) true 0 = none ∧ ((pushing none).pieceAt (haloWho 0 0 1) .engWrite 0 64).1 = 0x40000 ∧ newer 5 5 = false ∧ newer 5 4 = true ∧
    ((((pushing (some 5)).partAt 0 0x40000).seg 1).slot 0).stamp = some 5 ∧
    (∃ t, (sparse.spillOne 0 { slot := 0, num := 0, gen := 1, key := keyOf4 7 0 0 0, value := 5, touch := 0 }) = .ok t) :=
  ⟨by decide +kernel, by decide +kernel, by decide, by decide, by decide +kernel, exists_of_ok (by decide +kernel)⟩

/-! ### Witnesses: what completes -/

theorem witness_NothingStopsTheMachine : State.reset.Schedulable ∧ ∀ e ∈ State.reset.ctxs, e.1 < contextCount := by
  refine ⟨?_, fun _ h => absurd h (List.not_mem_nil (a := _))⟩
  unfold State.Schedulable; decide +kernel

/-- Registers that reach scratch by a full address, a compact one and the stack pointer. -/
def reaching : State := put 0 (user [(4, 0xF000000000000010), (8, 0xF000000000000100), (30, 0xF000000000001000)]) State.reset

theorem witness_ScalarAccessesComplete :
    reaching.Ready ∧ regN 7 = 8 ∧ reaching.InScratch 0 0xF00000000000000F 1 ∧ reaching.InScratch 0 0xF000000000000012 2 ∧ reaching.InScratch 0 0xF00000000000000C 4 ∧
    reaching.InScratch 0 0xF000000000000018 8 ∧ reaching.InScratch 0 (0xF000000000000100 + 31 * 8) 8 ∧ reaching.InScratch 0 (0xF000000000000100 + 31 * 4) 4 ∧
    reaching.InScratch 0 (0xF000000000001000 + 63 * 8) 8 := by
  refine ⟨⟨rfl, rfl⟩, rfl, ?_⟩
  unfold State.InScratch; decide +kernel

/-- Two active lanes of eight bytes: along, strided by s5, and indexed by a vector of zeros. -/
def lanes : State := put 0 { user [] with regs := { s := [(4, 0xF000000000000010), (5, 64)], v := [], k := [(1, 3)] } } State.reset

theorem witness_VectorAccessesComplete :
    lanes.Ready ∧ (∀ j, j < 8 → ((lanes.ctx 0).regs.rk 1).getLsbD j = true → lanes.InScratch 0 (0xF000000000000010 + j * 8) 8 ∧ lanes.InScratch 0 (0xF000000000000010 + j * 64) 8) ∧
    lanes.InScratch 0 0xF000000000000010 8 ∧ ElTy.i64.lanes = 8 ∧ ElTy.i64.width / 8 = 8 := by
  refine ⟨⟨rfl, rfl⟩, ?_⟩
  unfold State.InScratch; decide +kernel

/-- Traps enabled; not enabled in user mode; a handler that runs; an interrupt that is being served. -/
theorem witness_TrapInstructionsComplete :
    (one []).Ready ∧ ((one []).ctx 0).Enabled ∧
    (∃ s : State, s = put 0 { user [] with tcause := 0x8000000000000005 } State.reset ∧ s.Ready ∧ ¬(s.ctx 0).Enabled ∧ (s.ctx 0).sup = false ∧
      (s.ctx 0).cause.getLsbD 63 = true) ∧
    (∃ s : State, s = put 0 { user [] with uien := 3 } State.reset ∧ s.Ready ∧ (s.ctx 0).uien.getLsbD 1 = true) :=
  ⟨⟨rfl, rfl⟩, ⟨rfl, rfl⟩, ⟨_, rfl, ⟨rfl, rfl⟩, by unfold Ctx.Enabled; decide +kernel, rfl, rfl⟩, _, rfl, ⟨rfl, rfl⟩, rfl⟩

/-- A message of class 5 to core 1, and to cores 1 and 2 of cluster 0; entries at even addresses; a held class with a message and without; a handler. -/
theorem witness_MessageInstructionsComplete :
    ((one []).Flushed 0 ∧ ((one []).core 0).saving = false ∧ 3 < 0x400405 % 64 ∧ ctlBad false 0x400405 = false ∧ (one []).badDst true 1 = false ∧
      3 < 0x400005 % 64 ∧ ctlBad true 0x400005 = false ∧ (one []).badMulti true (6 * 2 ^ 24) = false) ∧
    (0x704 < 2 ^ 11 ∧ 0x704 / 2 ^ 6 % 4 = 0 ∧ 3 < 0x704 % 64 ∧ 0x4000 % 2 = 0) ∧
    ((holding []).Ready ∧ ((holding []).ctx 0).hold.testBit 9 = true ∧ ((holding []).core 0).recv.find? (fun m => m.cls == 9) = none ∧
      ((holding []).ctx 0).regs.rs 4 = 9 ∧ ((holding []).ctx 0).regs.rs 7 = 0) ∧
    (∃ m, ((holding [hwMsg 0 9 4 8 5 0 0]).core 0).recv.find? (fun m => m.cls == 9) = some m) ∧ handling.Ready ∧ handling.isHandler 1 = true := by
  refine ⟨⟨of_owesNothing (by decide +kernel), by decide +kernel⟩, by decide, ⟨⟨rfl, rfl⟩, by decide +kernel⟩, ⟨_, rfl⟩, ⟨rfl, rfl⟩, by decide +kernel⟩

/-- An SC operation whose turn has come; an arrival at a barrier whose phase is complete; an offer with its status; a lease that is granted. -/
theorem witness_WaitsComplete :
    (∃ o g, (waits sharing (.ldSc 0 3 5) (waitFor .running (scTurn 0 0))).Waits 0 o (.ldSc 0 3 5) g (waitFor .running (scTurn 0 0)) ∧ (g.rs 5).toNat % 8 = 0 ∧
      (waits sharing (.ldSc 0 3 5) (waitFor .running (scTurn 0 0))).InScratch 0 (g.rs 5).toNat 8) ∧
    (∃ s : State, ∃ o g, s = waits (atBarrier 0 0) (.barx 3 3 0) (waitFor .parked [1]) ∧ s.Waits 0 o (.barx 3 3 0) g (waitFor .parked [1]) ∧ s.isHandler 0 = false ∧
      (s.barrier 0 3).failure 0 = none ∧ ¬((s.ctx 0).arrived 3 = true ∧ (s.barrier 0 3).phase = (s.ctx 0).lastPhase 3)) ∧
    (∃ s : State, ∃ o g, s = waits { one [] with offers := [{ queue := 3, entry := given .present, ctx := 0, pkg := 0, status := some 0 }] } (.donate 3 4 5) (waitFor .running (donateSent 0 0)) ∧
      s.Waits 0 o (.donate 3 4 5) g (waitFor .running (donateSent 0 0)) ∧ (s.offers.find? fun o => o.ctx == 0).bind (·.status) = some 0) ∧
    (∃ o g, (waits (one []) (.mlease 0 3 4) (waitFor .parked leaseGranted)).Waits 0 o (.mlease 0 3 4) g (waitFor .parked leaseGranted)) := by
  refine ⟨⟨_, _, waits_Waits _ _ _ (by decide), by decide +kernel, ?_⟩, ⟨_, _, _, rfl, waits_Waits _ _ _ (by decide), by decide +kernel, by decide +kernel, by decide +kernel⟩,
    ⟨_, _, _, rfl, waits_Waits _ _ _ (by decide), by decide +kernel⟩, _, _, waits_Waits _ _ _ (by decide)⟩
  unfold State.InScratch; decide +kernel

/-- An `MSTC` of element (0, 0) to scratch, whose tile has been read. -/
def elementStore : Cmd := { newCmd .mstc 0 0 1 0x911 0 with base := 0xF000000000000100, stride := 128, masks := 1 + 2 ^ 32, old := some [] }
def storingTile : State :=
  { put 0 { user [] with win := held 3 (.pend (.mstc 1 4 5 6 0) Regs.reset (waitFor .running (queued 0))) } State.reset with
    cores := [(0, { Core.reset 2 false 0 with pword := 0x101, storing := [elementStore] })] }

theorem witness_CommandsComplete :
    (∃ q o g w, ((multiplying true).core 0).queue.find? (·.started) = some q ∧ q.ctx = 0 ∧ ((multiplying true).ctx 0).win.outst = [o] ∧
      o.res = .pend (.mma 0 1 4 5) g w ∧ o.dropped = [] ∧ w.aux = queued q.id ∧ q.op = .mma ∧ o.pos + o.la < ((multiplying true).ctx 0).win.seq ∧
      ∃ a b, (multiplying true).operandsOf 0 q = .ready a b) ∧
    (∃ q o g, (storingTile.core 0).storing.find? (fun y => y.id == q.id) = some q ∧ q.ctx = 0 ∧ (storingTile.ctx 0).win.outst = [o] ∧
      o.res = .pend (.mstc 1 4 5 6 0) g (waitFor .running (queued q.id)) ∧ o.dropped = [] ∧ q.row = 0 ∧ (storingTile.ctx 0).win.seq ≤ o.pos + o.la ∧
      ((List.range 32).flatMap (rowStores q (q.old.getD []))).length = 1 ∧
      ∀ x ∈ (List.range 32).flatMap (rowStores q (q.old.getD [])), storingTile.InScratch 0 x.1 x.2.2) := by
  refine ⟨⟨_, _, _, _, rfl, rfl, rfl, rfl, rfl, rfl, rfl, by decide +kernel, _, _, rfl⟩, elementStore, _, _, rfl, rfl, rfl, rfl, rfl, rfl, by decide +kernel, by decide +kernel, ?_⟩
  unfold State.InScratch; decide +kernel

/-! Queues, saves and the package -/

/-- A package that takes commands, its dies up, its launches and queues as given. -/
def ready (launches : Tab Launch) (queues : Tab HQueue) : State :=
  { State.reset with
    dies := (List.range 8).map fun d => (d, { Die.reset with up := true, tclk := 5 * 65536 }), launches := launches, queues := queues,
    pkg := { Package.reset with bringup := 6, image := some 0 } }

theorem witness_TakesCommands : (ready [] []).TakesCommands := ⟨by decide, by decide +kernel, rfl⟩

/-- A good queue, at the ends of the limits; ring sizes that are none. -/
def spec (format level : Nat) (signal : Bool) : QueueSpec :=
  { ring := 0x100000, entries := 16, evq := 4095, level := level, format := format, signal := signal, conc := 16, asid := 4095 }

theorem witness_QueueCommands :
    (16 : Nat) = 2 ^ 4 ∧ (65536 : Nat) = 2 ^ 16 ∧ (spec 1 0 true).conc ≤ 16 ∧ (spec 1 0 true).asid < 4096 ∧ (32767 : Nat) < 32768 ∧ (ready [] []).isService 14 = true ∧
    (ready [] []).isService 13 = false ∧ ((ready [] []).die 0).power = .d0 ∧ (10000 : Nat) ≤ 10000 ∧ (10000000 : Nat) ≤ 10000000 := by decide +kernel

/-- A good entry of format 1: one cluster, code at 0x1000, partition word 1, a team of one, root at 0x40, the queue's own event queue. -/
def entry (phase : Bool) : Nat :=
  1 + (if phase then 2 ^ 15 else 0) + 2 ^ 16 + 0x1000 * 2 ^ 64 + 2 ^ 128 + 2 ^ 160 + 2 ^ 168 + 0x40 * 2 ^ 192 + 0xFFFF * 2 ^ 256

/-- A queue whose next entry stands as given. -/
def aQueue (ready_ : Option Nat) : HQueue :=
  { spec := spec 1 3 false, tail := 1, head := 0, failed := false, since := 0, rereads := 0, rereadAt := none, ready := ready_, notBefore := 0 }

/-- An entry that passes every check and one whose first check fails. -/
theorem witness_EntryChecks :
    (ready [] []).entryFault (aQueue none) (entry true) = none ∧ (ready [] []).entryFault (aQueue none) (entry true + 1) = some 0x01 ∧
    (ready [] []).entryFault (aQueue none) (entry true + 2 ^ 64) = some 0x03 := by decide +kernel

theorem witness_QueueEntries :
    (aQueue none).failed = false ∧ (aQueue none).head ≠ (aQueue none).tail ∧ (aQueue none).ready = none ∧ (aQueue none).rereadAt = none ∧
    ((entry true / 2 ^ 15 % 2 = 1) ↔ ((aQueue none).head / 16 % 2 = 0)) ∧ ¬((entry false / 2 ^ 15 % 2 = 1) ↔ ((aQueue none).head / 16 % 2 = 0)) ∧
    (16 + 2 ^ 32 - 0) % 2 ^ 32 ≤ 16 ∧ 16 < (17 + 2 ^ 32 - 0) % 2 ^ 32 := by decide +kernel

/-- An entry that is ready is bound to slot 0 and cluster 0. -/
theorem witness_LaunchBinding :
    (firstWaiting (((ready [] [(7, aQueue (some (entry true)))]).allWaiting.filter (ready [] [(7, aQueue (some (entry true)))]).placeable))).map (fun w => (w.queue, w.slot)) = some (7, none) ∧
    (ready [] [(7, aQueue (some (entry true)))]).freeSlot false = some 0 ∧ (ready [] [(7, aQueue (some (entry true)))]).pick 1 0 false = some [0] ∧
    firstWaiting ((ready [] []).allWaiting.filter (ready [] []).placeable) = none := by decide +kernel

/-- A launch of slot 3 on cluster 0 with a LIMIT, in a state of its save. -/
def running (save : Option Nat) : Launch :=
  { Launch.reset with state := .running, clusters := [0], limit := 10, began := some 0, save := save, cmd := save.map fun _ => 1 }

theorem witness_QueueTimes :
    ((ready [(3, running none)] [(7, aQueue (some (entry true)))]).isPending 7 (aQueue (some (entry true)))) = true ∧
    ((ready [(3, running none)] []).launch 3).limit ≠ 0 ∧ ((ready [(3, running none)] []).launch 3).began = some 0 ∧ (ready [(3, running none)] []).commandBusy = false ∧
    ((ready [(3, running none)] []).launch 4).state = .free ∧ (0 : Nat) < (ready [] []).pkg.quantum := by decide +kernel

/-- Rings with room for any event, for the events of launches only, and for none. -/
theorem witness_EventQueues :
    ((0 : Nat) + 16 < 32) ∧ ¬((16 : Nat) + 16 < 32) ∧ (16 : Nat) < 32 ∧ ¬(32 : Nat) < 32 ∧ ((evented 0 16 []).evqs.find 0).isSome = true ∧ (hostQueue 0 32 [hostEv 1]).buffer ≠ [] ∧
    ({ hostQueue 0 32 [hostEv 1] with head := 20 } : EvQ).room (hostEv 1) = true ∧ (hostQueue 0 0 []).owed = true ∧
    (2 ^ 51 + 8 ≤ 2 ^ 51 + 0x1000 + 128 * (16 % 32)) := by decide +kernel

/-- Each step of a save. -/
theorem witness_Saves :
    (ready [(3, running none)] []).commandBusy = false ∧ ((ready [(3, running none)] []).launch 3).save = none ∧ 0x10000 % 65536 = 0 ∧
    0x10000 + (running none).clusters.length * 0x1204000 ≤ 0x1214000 ∧ (∀ n ∈ [1, 2, 3, 4, 5, 6], ((ready [(3, running (some n))] []).launch 3).cmd = some 1) ∧
    (ready [(3, running (some 2))] []).quiet (running (some 2)) = true ∧ (ready [(3, running (some 3))] []).drained (running (some 3)) = true ∧
    (∀ c ∈ (ready [(3, running (some 4))] []).coresOf (running (some 4)), ((ready [(3, running (some 4))] []).core c).claims = []) ∧
    (∀ d, d < 8 → ((ready [(3, running (some 4))] []).die d).held = []) := by decide +kernel

/-- Step 6: every context has released and every deque lies in its ring. -/
theorem witness_LastStep :
    ∃ s : State, s = (ready [(3, running (some 6))] []).place 3 0xFFFF ∧ (s.settled (s.launch 3)).1 = true ∧
      (((s.settled (s.launch 3)).2.spillDeques (s.launch 3)).dequesSpilled (s.launch 3)) = true := ⟨_, rfl, by decide +kernel⟩

theorem witness_SavedImages : ((one [(5, 7)]).ctx 0).win.outst = [] := rfl

/-- A saved launch that is wanted, with its cores and contexts at their reset values but for one. -/
def restoring : State :=
  let l := running none
  let s := ready [] []
  { s with launches := [(3, { l with
      state := .saved, wanted := true, cmd := some 1,
      saved := some { ctxs := (s.ctxsOf l).map fun k => (k, { user [(5, 7)] with gen := k % 2 }), cores := (s.coresOf l).map fun c => (c, Core.reset 2 true c), barriers := [], slots := [],
                      replies := [], arrivals := [], moved := [] } })] }

theorem witness_Restores :
    (firstWaiting (restoring.allWaiting.filter restoring.placeable)).map (·.slot) = some (some 3) ∧ (restoring.launch 3).state = .saved ∧
    (∀ v, (restoring.launch 3).saved = some v → v.ctxs.map (·.1) = restoring.ctxsOf (restoring.launch 3) ∧ v.cores.map (·.1) = restoring.coresOf (restoring.launch 3)) ∧
    (restoring.coresOf (restoring.launch 3)).Nodup ∧ (∀ n ∈ (restoring.launch 3).clusters, (restoring.die (n / 32)).lost = false) := by
  refine ⟨by decide +kernel, rfl, fun v h => ?_, by decide +kernel, by decide +kernel⟩
  obtain rfl := Option.some.inj h
  decide +kernel

/-- A leaf with device bias, one with host bias, and none, at 0x16000. -/
theorem witness_BiasFlipCommands :
    (((ready [] []).mem.writeN 0x16000 8 (leafOf 0)).readN 0x16000 8).testBit 0 = true ∧ pteLeaf (leafOf 0) = true ∧ (leafOf 0).testBit 6 = false ∧ (leafOf 0x40).testBit 6 = true ∧
    ((ready [] []).mem.readN 0x16000 8).testBit 0 = false ∧ (ready [] []).flips = [] := by decide +kernel

theorem witness_ScrubsAndLosses :
    0x50000 % 65536 = 0 ∧ (ready [] []).local_ 0x50000 = true ∧ ((ready [] []).die (homeDie 0x50000)).lost = false ∧ ((ready [] []).die (homeDie 0x50000)).power ≠ .d3 ∧
    (ready [] []).local_ (2 ^ 40) = false ∧ (7 : Nat) < 8 := by decide +kernel

theorem witness_PowerStates :
    (ready [] []).launches = [] ∧ ((ready [] []).die 0).power = .d0 ∧ (∃ e ∈ (ready [(3, running none)] []).launches, e.2.state ∈ [SlotUse.running] ∧ ∃ n ∈ e.2.clusters, n / 32 = 0) ∧
    (((ready [] []).modDie 5 fun x => { x with power := .d3 }).die 5).power = .d3 ∧ (∀ e ∈ ((ready [] []).die 0).inbox, ∀ r ∈ e.2, r.fault ≠ none) := by decide +kernel

/-- Settings at the ends of their ranges and beyond them. -/
theorem witness_PackageSettings :
    (255 : Nat) < 256 ∧ (1600 : Nat) % 25 = 0 ∧ (2300 : Nat) % 25 = 0 ∧ (1601 : Nat) % 25 ≠ 0 ∧ (600 : Nat) ≤ 1900 ∧ [0, 3, 6, 11].length = 4 ∧ (∀ l ∈ [0, 3, 6, 11], l < 12) ∧
    (ready [] []).pkg.number < 256 ∧ ((ready [] []).dropPage 0 (2 ^ 39)).mem.wf = true := by decide +kernel

theorem witness_Trips :
    State.reset.pkg.trip = none ∧
    (∃ s : State, s = { (ready [] []).modDie 5 (fun x => { x with power := .d3 }) with pkg := { (ready [] []).pkg with trip := some 3 } } ∧ s.pkg.trip = some 3 ∧
      s.commandBusy = false ∧ (s.die 5).power = .d3 ∧ ∀ d, d < 8 → d ≠ 5 → (s.die d).power = .d0) := ⟨rfl, _, rfl, by decide +kernel⟩

/-- Each step of the bring-up; dies that have synchronised and the die that reset leaves to do so. -/
theorem witness_BringUp :
    State.reset.pkg.bringup = 0 ∧ (∀ n, n < 6 → ({ State.reset with pkg := { Package.reset with bringup := n } } : State).pkg.bringup = n) ∧ (State.reset.die 1).loss = true ∧
    (∀ d, d < 8 → (((List.range 8).foldl (fun (s : State) d => s.modDie d fun x => { x with loss := false }) State.reset).die d).loss = false) := by decide +kernel

theorem witness_AttestationReports : (ready [] []).pkg.image = some 0 ∧ (ready [] []).pkg.number < 256 := by decide +kernel

/-! Monitors and clocks -/

/-- Unit 3 of die 0 with a control word. -/
def monitored (ctl : Nat) : State := State.reset.modDie 0 fun x => { x with monitors := [(3, { Monitor.reset with ctl := ctl })] }

theorem witness_Monitors :
    ((monitored (1 + 6 * 2)).monitor 0 3).ctl.testBit 0 = true ∧ ((monitored (1 + 6 * 2)).monitor 0 3).ctl / 2 % 2 ^ 15 = 6 ∧
    ((monitored (1 + 10 * 2 + 5 * 2 ^ 32)).monitor 0 3).ctl / 2 ^ 32 % 2 ^ 32 = 5 ∧ ((monitored (1 + 10 * 2 + (2 ^ 32 - 1) * 2 ^ 32)).monitor 0 3).ctl / 2 ^ 32 % 2 ^ 32 = 2 ^ 32 - 1 ∧
    ((monitored (1 + 2 ^ 17)).monitor 0 3).ctl.testBit 17 = true ∧ ((monitored 0).monitor 0 3).ctl.testBit 0 = false := by decide +kernel

/-- Die 1 takes part; an exchange in each of its stages. -/
def exchanging (n : Nat) : State := (ready [] []).modDie 1 fun x => { x with exch := some { stage := n, t1 := 0, t2 := 0, t3 := 0, t4 := 0 } }

theorem witness_TimeExchanges :
    (ready [] []).exchanges 1 = true ∧ ((ready [] []).die 1).exch = none ∧ ((ready [] []).die 1).loss = true ∧ (1 : Nat) ≠ (ready [] []).pkg.gmDie ∧
    (∀ n, n < 5 → (((exchanging n).die 1).exch.map (·.stage)) = some n) ∧ ((exchanging 1).die 1).lastSync = 0 := by decide +kernel

/-! ### Single steps

Each runs one instruction; what it should give is written in the manual's worked tables (named in the docstring) or worked out by hand. -/

/-- The state after an outcome. -/
def after (o : Host.Outcome State Fault Refusal) : State := match o with
  | .next t => t
  | _ => State.reset

/-- Scalar register r of context 0 after an instruction. -/
def gives (i : Instr) (s : State) (r : Reg) : Word := ((after (exec i s)).ctx 0).regs.rs r

/-- Two operands in s4 and s5. -/
def two (x y : Word) : State := one [(4, x), (5, y)]

/-- The trap cause and value of context 0 after an instruction. -/
def trapped (i : Instr) (s : State) : Nat × Word := (((after (exec i s)).ctx 0).tcause.toNat % 2 ^ 32, ((after (exec i s)).ctx 0).tval)

/-- By hand: 7 + 2^64 - 9, unsigned and signed high products, truncating division, shifts that use six bits. -/
theorem test_scalar_arithmetic :
    gives (.add 0 3 4 5) (two 7 (-9)) 3 = -2 ∧ gives (.sub 0 3 4 5) (two 7 9) 3 = -2 ∧ gives (.mulhu 0 3 4 5) (two (-1) (-1)) 3 = -2 ∧
    gives (.mulh 0 3 4 5) (two (-1) (-1)) 3 = 0 ∧ gives (.div 0 3 4 5) (two (-7) 2) 3 = -3 ∧ gives (.rem 0 3 4 5) (two (-7) 2) 3 = -1 ∧
    gives (.divu 0 3 4 5) (two (-7) 2) 3 = 0x7FFFFFFFFFFFFFFC ∧ gives (.sar 0 3 4 5) (two (-8) 65) 3 = -4 ∧ gives (.rotr 0 3 4 5) (two 1 1) 3 = 0x8000000000000000 ∧
    gives (.addsat 0 3 4 5) (two 0x7FFFFFFFFFFFFFFF 1) 3 = 0x7FFFFFFFFFFFFFFF ∧ gives (.clz 0 3 4) (two 1 0) 3 = 63 ∧ gives (.slt 0 3 4 5) (two (-1) 0) 3 = 1 ∧
    gives (.sltu 0 3 4 5) (two (-1) 0) 3 = 0 ∧ gives (.add 0 0 4 5) (two 7 9) 0 = 0 := by decide +kernel

/-- R138: a division by zero traps with 0x05 and the dividend. -/
theorem test_division_by_zero : trapped (.div 0 3 4 5) (two 7 0) = (0x05, 7) := by decide +kernel

/-- By hand: `LUI` of 0xFF0 and the control word of the dot-product example. -/
theorem test_lui_addi : gives (.lui 21 0xFF0) (one []) 21 = 0xFF0000 ∧ gives (.addi 21 21 0x200) (one [(21, 0xFF0000)]) 21 = 0xFF0200 := by decide +kernel

/-- The worked window of 02_encoding, with the load of s5 outstanding: step 2 reads the old value; an instruction that closes the window of 1 finds 100. -/
def windowed (la : Nat) : State := put 0 { user [(4, 0x100000), (5, 7), (7, 3), (8, 10)] with win := held la (.ok [.s 5 100]) } State.reset
theorem test_window_keeps_the_old_value : gives (.add 0 6 5 7) (windowed 2) 6 = 10 ∧ gives (.add 0 6 5 7) (windowed 2) 5 = 7 := by decide +kernel
theorem test_window_ends : gives (.addi 8 8 1) (windowed 1) 8 = 11 ∧ gives (.addi 8 8 1) (windowed 1) 5 = 100 := by decide +kernel

/-- The same, where the instruction writes the load's destination: the loaded 100 is discarded. -/
theorem test_window_discards : gives (.addi 5 0 5) (windowed 1) 5 = 5 := by decide +kernel

/-- A branch taken and not taken, and a link: by hand, displacements count parcels of two bytes. -/
theorem test_branches_and_links :
    ((after (exec (.beq 4 5 8) (two 3 3))).ctx 0).pc = 0x1010 ∧ ((after (exec (.beq 4 5 8) (two 3 4))).ctx 0).pc = 0x1004 ∧
    ((after (exec (.jl 1 0xFFFFE) (one []))).ctx 0).pc = 0xFFC ∧ gives (.jl 1 0xFFFFE) (one []) 1 = 0x1004 := by decide +kernel

/-- R502: a `TRAP` goes to the vector without its enable bit with cause 0x14 and its operand, and saves the address after it. -/
theorem test_trap_entry :
    ((after (exec (.trap 4) (two 0x55 0))).ctx 0).pc = 0x2000 ∧ ((after (exec (.trap 4) (two 0x55 0))).ctx 0).tepc = 0x1004 ∧ trapped (.trap 4) (two 0x55 0) = (0x14, 0x55) := by
  decide +kernel

/-- The worked addresses of 04_pool: every core with SHARED 8, and P of 232 KiB. -/
def stacked (rs : List (Nat × Word)) : State :=
  put 0 (user rs) { State.reset with cores := (List.range 14).map fun c => (c, { Core.reset 2 false c with pword := 0x84826, share := if c = 4 then Mem.writeN [] 0x134 4 0x80000001 else [] }) }
theorem test_worked_addresses :
    gives (.ldW 0 3 4 0) (stacked [(4, 0xF100000000001234)]) 3 = 0xFFFFFFFF80000001 ∧ trapped (.stD 4 0 0) (stacked [(4, 0xF100000000100000)]) = (0x0C, 0xF100000000100000) ∧
    ((after (exec (.stW 4 5 0) (stacked [(4, 0xF000000000039FFC), (5, 0x11223344)]))).core 0).scratch.readN 0x39FFC 4 = 0x11223344 ∧
    trapped (.stD 4 0 0) (stacked [(4, 0xF000000000039FFC)]) = (0x0C, 0xF000000000039FFC) ∧ trapped (.ldD 0 3 4 0) (stacked [(4, 0xF200000000000000)]) = (0x04, 0xF200000000000000) := by
  decide +kernel

/-- The example of 04_pool: 232 KiB at 0x0008_4826, 104 KiB at 0x0008_5026, and ACC 40 is no word. -/
theorem test_partition_words :
    scratchSize 0x84826 = 232 * 1024 ∧ scratchSize 0x85026 = 104 * 1024 ∧ pwValid 0x85026 = true ∧ pwValid (0x85026 + 8 * 128) = false := by decide +kernel

/-- Vectors from their elements. -/
def vec (w : Nat) (l : List Nat) : VReg := vecOf w ((List.range (512 / w)).map fun i => l.getD i 0)

/-- The worked lane of 06_vector: three products into a W48 lane, and its readout to FP32 at scale -1. -/
def dotting : State := put 0 { user [(21, 0xFF0200)] with regs := { s := [(21, 0xFF0200)], k := [], v := [
  (1, vec 8 ([0x06, 0x06, 0x11] ++ List.replicate 61 0x10)), (2, vec 8 ([0x05, 0x3E, 0x11] ++ List.replicate 61 0x10)), (4, vec 64 [0x4BB920A])] } } State.reset
theorem test_worked_dot_product : elem 64 (((after (exec (.vdotl 0 0 4 1 2 3) dotting)).ctx 0).regs.rv 4) 0 = 0x4BB920A := by decide +kernel
theorem test_worked_readout :
    elem 32 (((after (exec (.vcvt .fp32 0 5 4 21) dotting)).ctx 0).regs.rv 5) 0 = 0x40177241 ∧ ((after (exec (.vcvt .fp32 0 5 4 21) dotting)).ctx 0).fflags = 1 := by decide +kernel

/-- The worked top-k of 06_vector. -/
def ranking : State := put 0 { user [] with regs := { s := [], k := [(1, 0xFF)], v := [(9, vec 32
  [0x40000000, 0x7FC00000, 0x40A00000, 0xBF800000, 0x40A00000, 0x80000000, 0x7F800001, 0])] } } State.reset
def ranked (n : BitVec 7) : Regs := ((after (exec (.vtopk 0 .fp32 1 2 9 3 n) ranking)).ctx 0).regs
theorem test_worked_top_k :
    decodeTableWord 64 0x0000251018C0917B = some (.vtopk 0 .fp32 1 2 9 3 4) ∧
    ((List.range 8).map fun i => elem 32 ((ranked 8).rv 2) i) = [0x40A00000, 0x40A00000, 0x40000000, 0, 0x80000000, 0xBF800000, 0x7FC00000, 0x7F800001] ∧
    ((List.range 8).map fun i => elem 32 ((ranked 8).rv 3) i) = [2, 4, 0, 7, 5, 3, 1, 6] ∧ elem 32 ((ranked 4).rv 3) 4 = 0 := by decide +kernel

/-- 03_numbers: eight BF16 products 2^24, 1, 1, 0, 1, 1, 1, 0 give 16,777,220 with NX. -/
theorem test_worked_groups :
    mmaElem 0 [(0x4B80, 0x3F80), (0x3F80, 0x3F80), (0x3F80, 0x3F80), (0, 0), (0x3F80, 0x3F80), (0x3F80, 0x3F80), (0x3F80, 0x3F80), (0, 0)] 0 = (0x4B800002, 1) := by decide +kernel

/-- FIPS 180-4, of 64 bytes of zero. -/
theorem test_sha256 : sha256 0 = 0xf5a5fd42d16a20302798ef6ed309979b43003d2320d9f0e8ea9831a92759fb4b := by decide +kernel

/-- By hand: the sum of an atomic in scratch, and the value before it. -/
theorem test_atomic_add :
    ∃ s : State, s = put 0 (user [(4, 0xF000000000000008), (5, -1)]) { State.reset with cores := [(0, { Core.reset 2 false 0 with scratch := Mem.writeN [] 8 8 7 })] } ∧
      gives (.amoAdd 0 3 4 5) s 3 = 7 ∧ ((after (exec (.amoAdd 0 3 4 5) s)).core 0).scratch.readN 8 8 = 6 := ⟨_, rfl, by decide +kernel⟩

/-- R268: the first arrival of two reads phase 0; R384: the lowest free slots; R420: the leaf's value; R452: cells of the front, the back and a ghost. -/
theorem test_units :
    gives (.bara 3 3 0) (atBarrier 0 0) 3 = 0 ∧ gives (.mclaim 0 3 4) ((arrayed [] .none).modCtx 0 fun c => { c with regs := c.regs.ws 4 2 }) 3 = 0x18 ∧
    gives (.sld 0 3 4 5) sparse7 3 = 5 ∧ gives (.ldg 0 3 4 6) (gridded (ring 0) 0) 3 = 11 ∧ gives (.ldg 0 3 4 8) (gridded (ring 0) 0) 3 = 12 ∧
    gives (.ldg 0 3 4 10) (gridded (ring 0) 0) 3 = 13 ∧ gives (.gstat 0 3 4 13) (gridded (ring 0) 0) 3 = 65536 := by decide +kernel

/-- R522, R523: a unit with source 5 counts the loads that its die's slices perform. -/
theorem test_slice_service :
    ((after (exec (.ldD 0 9 0 0) ((mem0 0).modDie 0 fun x => { x with monitors := [(3, { Monitor.reset with ctl := 0xFFFFFFFF0000000B })] }))).monitor 0 3).count = 1 := by
  decide +kernel

end Sys2Proof.Tests
end

namespace Sys2Proof

/-! ### The length of an instruction (R35) -/

/-- The length that the first parcel gives, by its low bits and its major. -/
theorem instrLen_eq (p : Nat) : instrLen p = if p % 4 = 3 then (if p / 4 % 32 ≤ 0x1B then 4 else 8) else 2 := by
  unfold instrLen
  by_cases h : p % 4 = 3
  · rw [if_neg (not_not_intro h), if_pos h]
  · rw [if_pos h, if_neg h]

/-- A stream that ends inside the instruction of its first parcel is refused. -/
theorem decode_of_short {bs : List Byte} (h : bs.length < instrLen (ofBytes (bs.take 2))) : decode bs = .error .truncated := by
  unfold decode
  split
  · rfl
  · rw [if_pos h]

/-- An instruction that the decoder answers has the length of its first parcel. -/
theorem length_of_decode {bs : List Byte} {i : Instr} {m : Nat} (h : decode bs = .ok (i, m)) : m = instrLen (ofBytes (bs.take 2)) := by
  unfold decode at h
  split at h
  · cases h
  · simp only at h
    split at h
    · cases h
    · split at h
      · cases h; rfl
      · cases h

/-- Settles O3: both halves are the decoder's own two length checks, once the length is read off the first parcel. -/
theorem firstParcelDecidesLength : Obligations.FirstParcelDecidesLength := by
  unfold Obligations.FirstParcelDecidesLength
  intro bs _
  simp only [← instrLen_eq]
  exact ⟨decode_of_short, fun _ _ => length_of_decode⟩

end Sys2Proof

namespace Sys2Proof.Machine

/-! ### The end of a wait (R56 to R61) -/

/-- The only outstanding instruction of a context has its result and its window has run out: the writes that still stand are made, and the context
goes on. -/
theorem State.advance_result (s : State) (k : Nat) (c : Ctx) (o : Outst) (ws : List Wr) (ho : c.win.outst = [o]) (hr : o.res = .ok ws)
    (hd : o.pos + o.la < c.win.seq) (ht : ∀ x ∈ ws, x.isTile = false) :
    (s.setCtx k c).advance k = s.setCtx k { c with
      regs := c.regs.after (ws.filter fun x => !o.dropped.any fun y => x.same y)
      state := if c.state = .parked ∨ c.state = .blocked then (if c.member then .following else .running) else c.state
      serialWait := if c.state = .parked ∨ c.state = .blocked then false else c.serialWait
      win := { c.win with outst := [] } } := by
  have hw : o.writes = ws.filter fun x => !o.dropped.any fun y => x.same y := by simp only [Outst.writes, hr]
  have ht' : ∀ x ∈ o.writes, x.isTile = false := fun x hx => ht x ((List.mem_filter.mp (hw ▸ hx)).1)
  have hl : c.win.limit = c.win.seq := by simp [Win.limit, ho, Outst.faulted, hr]
  have hp : o.ripe c.win.seq = true := by simp [Outst.ripe, Outst.due, Outst.pending, Outst.faulted, hr, hd]
  have hc : (s.setCtx k c).close k = s.setCtx k { c with regs := c.regs.after o.writes, win := { c.win with outst := [] } } := by
    simp only [State.close, State.ctx_setCtx_same, hl, ho, List.filter_cons, hp, if_true, List.filter_nil, List.foldl_cons, List.foldl_nil,
      State.wrs_setCtx _ _ _ _ ht', State.modCtx_setCtx]
    simp
  rw [← hw]
  simp only [State.advance, hc, State.settleTraps, State.setWaitState, State.ctx_setCtx_same, Win.waiting, List.any_nil]
  by_cases h : c.state = .parked ∨ c.state = .blocked <;> simp [h]

/-- An outstanding instruction that is not ripe keeps its place. -/
theorem State.close_eq (s : State) (k : Nat) {o : Outst} (ho : (s.ctx k).win.outst = [o]) (h : ∀ n, o.ripe n = false) :
    s.close k = s.setCtx k (s.ctx k) := by
  have hn : (s.ctx k).win.outst.filter (fun o => o.ripe (s.ctx k).win.limit) = [] := by simp [ho, h]
  have hk : (s.ctx k).win.outst.filter (fun o => !o.ripe (s.ctx k).win.limit) = (s.ctx k).win.outst := by simp [ho, h]
  simp only [State.close, hn, List.foldl_nil, State.modCtx, hk]

theorem sum_map_filter_le (f : Nat → Nat) (p : Nat → Bool) (l : List Nat) : ((l.filter p).map f).sum ≤ (l.map f).sum := by
  induction l with
  | nil => exact Nat.le_refl _
  | cons x l ih =>
    by_cases h : p x = true
    · rw [List.filter_cons_of_pos h, List.map_cons, List.map_cons, List.sum_cons, List.sum_cons]
      exact Nat.add_le_add_left ih _
    · rw [List.filter_cons_of_neg h, List.map_cons, List.sum_cons]
      exact Nat.le_trans ih (Nat.le_add_left _ _)

/-- The skip mask has 15 bits (R60). -/
theorem skipMask_lt (done : List Nat) (p : Nat) : skipMask done p < 2 ^ 15 := by
  have h : ∀ (l : List Nat) (n : Nat), l.foldl (fun m j => m + 2 ^ j) n = n + (l.map (2 ^ ·)).sum := by
    intro l
    induction l with
    | nil => simp
    | cons x l ih => intro n; rw [List.foldl_cons, ih]; simp; omega
  unfold skipMask
  rw [h, Nat.zero_add]
  exact Nat.lt_of_le_of_lt (sum_map_filter_le _ _ _) (by decide)

/-- The only outstanding instruction of a context has faulted and its window has run out: the trap is taken, where it is enabled. -/
theorem State.advance_fault (s : State) (k : Nat) (o : Outst) (code : Nat) (val : Word) (ho : (s.ctx k).win.outst = [o]) (hr : o.res = .trap code val)
    (hd : o.pos + o.la < (s.ctx k).win.seq) (hc : code < 2 ^ 32) (he : (s.ctx k).Enabled) : s.TrapTaken (s.advance k) k code val o.pc := by
  have hf : o.faulted = true := by simp only [Outst.faulted, hr]
  have hdue : o.due (s.ctx k).win.seq = true := by simp only [Outst.due, hd, decide_true]
  have hp : o.pending = false := by simp only [Outst.pending, hr]
  have hcl := s.close_eq k ho fun n => by simp [Outst.ripe, hf]
  have ha : s.advance k = s.setCtx k
      { ((s.ctx k).setTrap (BitVec.ofNat 64 (2 ^ 63 + skipMask ((s.ctx k).win.doneAfter o.pos) o.pos * 2 ^ 32 + code)) val (o.pc &&& ~~~1)) with
        pc := (s.ctx k).vec &&& ~~~1, state := .running, member := false, latch := none,
        frozenT := some ((s.ctx k).win.frozenAt o.pos (s.ctx k).pc ((s.ctx k).win.doneAfter o.pos)), win := Win.reset } := by
    simp only [State.advance, hcl, State.settleTraps, State.ctx_setCtx_same, Win.waiting, ho, List.any_cons, hp, hf, hdue, List.any_nil,
      State.trapOldest, List.find?_cons, hr, State.takeTrap]
    rw [State.enterTrap_enabled _ _ _ _ _ _ _ (by simpa using he), State.setCtx_setCtx, State.ctx_setCtx_same]
    exact State.setWaitState_quiet _ _ _ rfl rfl
  have hm := skipMask_lt ((s.ctx k).win.doneAfter o.pos) o.pos
  generalize skipMask ((s.ctx k).win.doneAfter o.pos) o.pos = m at ha hm
  have hn : (BitVec.ofNat 64 (2 ^ 63 + m * 2 ^ 32 + code)).toNat = 2 ^ 63 + m * 2 ^ 32 + code := by
    rw [BitVec.toNat_ofNat]; omega
  rw [ha]
  cases hs : (s.ctx k).sup
  all_goals
    refine ⟨by simp, by simp, by simp [Ctx.setTrap, hs], ?_, by simp [Ctx.setTrap, hs], by simp [Ctx.setTrap, Ctx.epc, hs]⟩
    simp only [State.ctx_setCtx_same, Ctx.setTrap, Ctx.cause, hs, if_true, if_false, Bool.false_eq_true, hn, bit, beq_iff_eq]
    omega

/-- The only outstanding instruction of a context waits and its window has run out: the context counts as its wait says. -/
theorem State.advance_wait (s : State) (k : Nat) (o : Outst) (i : Instr) (g : Regs) (w : Wait) (ho : (s.ctx k).win.outst = [o])
    (hr : o.res = .pend i g w) (hd : o.pos + o.la < (s.ctx k).win.seq) :
    s.advance k = s.setCtx k (if w.how = .running then s.ctx k else (s.ctx k).waits w.how) := by
  have hf : o.faulted = false := by simp only [Outst.faulted, hr]
  have hp : o.pending = true := by simp only [Outst.pending, hr]
  have hcl := s.close_eq k ho fun n => by simp [Outst.ripe, hp]
  simp only [State.advance, hcl, State.settleTraps, State.ctx_setCtx_same, Win.waiting, ho, List.any_cons, hp, Bool.true_or, if_true,
    State.setWaitState, List.find?_cons, Outst.due, hd, decide_true, Bool.and_self, hr]
  by_cases h : w.how = .running <;> simp [h]

/-- A trap taken in a state whose context differs in nothing that a trap reads is one of the state itself. -/
theorem State.TrapTaken.of_setCtx {s t : State} {k code : Nat} {c : Ctx} {val epc : Word} (h : (s.setCtx k c).TrapTaken t k code val epc)
    (hv : c.vec = (s.ctx k).vec) (hs : c.sup = (s.ctx k).sup) (hg : c.regs = (s.ctx k).regs) : s.TrapTaken t k code val epc := by
  obtain ⟨hrest, hpc, hmode, hcause, hval, hback⟩ := h
  rw [State.setCtx_setCtx] at hrest
  simp only [State.ctx_setCtx_same, hv, hs, hg] at hpc hmode hval
  exact ⟨hrest, hpc, hmode, hcause, hval, hback⟩

/-! ### Later attempts of a waiting instruction (R57, R61) -/

/-- An attempt that is done ends the wait. -/
theorem woke_resolve_done (s : State) (k : Nat) (o : Outst) (ws : List Wr) (ho : (s.ctx k).win.outst = [o])
    (hd : o.pos + o.la < (s.ctx k).win.seq) (ht : ∀ x ∈ ws, x.isTile = false) : s.Woke (resolve k o (.done ws s)) k o ws := by
  simp only [resolve, State.modCtx_eq]
  rw [State.advance_result s k _ { o with res := .ok ws } ws (by simp [Win.resolved, ho]) rfl (by simpa [Win.resolved] using hd) ht]
  rfl

/-- An attempt that traps takes its trap, where that is enabled. -/
theorem trapTaken_resolve_trap (s : State) (k : Nat) (o : Outst) (late : Bool) (code val : Nat) (ho : (s.ctx k).win.outst = [o])
    (hd : o.pos + o.la < (s.ctx k).win.seq) (hc : code < 2 ^ 32) (he : (s.ctx k).Enabled) :
    s.TrapTaken (resolve k o (.trap late code val s)) k code (BitVec.ofNat 64 val) o.pc := by
  simp only [resolve, State.modCtx_eq]
  refine State.TrapTaken.of_setCtx (State.advance_fault _ k { o with res := .trap code (BitVec.ofNat 64 val) } code _ ?_ rfl ?_ hc ?_) rfl rfl rfl
  · simp [ho]
  · simpa using hd
  · rw [State.ctx_setCtx_same]; exact he

/-- An attempt that waits leaves the instruction waiting, and the memory as it was. -/
theorem resolve_wait (s : State) (k : Nat) (o : Outst) (i : Instr) (g : Regs) (w w' : Wait) (ho : (s.ctx k).win.outst = [o])
    (hr : o.res = .pend i g w) (hd : o.pos + o.la < (s.ctx k).win.seq) :
    (resolve k o (.wait w' s)).mem = s.mem ∧ ((resolve k o (.wait w' s)).ctx k).win.outst = [{ o with res := .pend i g w' }] := by
  simp only [resolve, State.modCtx_eq]
  rw [State.advance_wait _ k { o with res := .pend i g w' } i g w' (by simp [ho, hr]) rfl (by simpa using hd)]
  refine ⟨rfl, ?_⟩
  rw [State.ctx_setCtx_same]
  split
  · simp [ho, hr]
  · rw [State.ctx_setCtx_same, Ctx.waits_win]; simp [ho, hr]

/-- What a context waits for depends on the context alone. -/
theorem State.Waits.of_ctx {s t : State} {k : Nat} {o : Outst} {i : Instr} {g : Regs} {w : Wait} (h : s.Waits k o i g w)
    (e : t.ctx k = s.ctx k) : t.Waits k o i g w := by
  obtain ⟨honly, hres, hdue, hcalm⟩ := h
  exact ⟨e ▸ honly, hres, e ▸ hdue, e ▸ hcalm⟩

/-- The one waiting instruction of a context, its fault answered, makes its attempt. -/
theorem State.Waits.retryOne {s : State} {k : Nat} {o : Outst} {i : Instr} {g : Regs} {w : Wait} (h : s.Waits k o i g w) :
    s.retryOne k o = resolve k o (attemptOf i (o.env k i g w) s) := by
  obtain ⟨honly, hres, hdue, hcalm⟩ := h
  have hb : (w.how == .blocked && bit (s.ctx k).mbx.toNat 63) = false := by
    by_cases hw : w.how = .blocked
    · rw [hcalm hw, Bool.and_false]
    · simp [hw]
  simp only [State.retryOne, hres, honly, hb, Bool.or_false]
  simp [mustWait]

/-- So it does among the waiting instructions of its kind. -/
theorem State.Waits.settleOf {s : State} {k : Nat} {o : Outst} {i : Instr} {g : Regs} {w : Wait} (h : s.Waits k o i g w)
    (p : Instr → Bool) (hp : p i = true) : s.settleOf k p = resolve k o (attemptOf i (o.env k i g w) s) := by
  have hpend : o.pending = true := by simp only [Outst.pending, h.res]
  rw [← h.retryOne]
  simp only [State.settleOf, h.only, List.filter_cons, hpend, if_true, List.filter_nil, List.map_cons, List.map_nil, List.foldl_cons,
    List.foldl_nil, State.retryAt, List.find?_cons, decide_true, h.res, hp]

/-- An attempt that is done, made at the arrival of a result or with the others of its kind. -/
theorem State.Waits.woke {s s2 : State} {k : Nat} {o : Outst} {i : Instr} {g : Regs} {w : Wait} (h : s.Waits k o i g w) {ws : List Wr}
    (ha : attemptOf i (o.env k i g w) s = .done ws s2) (hw : (s2.ctx k).win = (s.ctx k).win) (ht : ∀ x ∈ ws, x.isTile = false) :
    s2.Woke (resolve k o (attemptOf i (o.env k i g w) s)) k o ws := by
  rw [ha]
  exact woke_resolve_done s2 k o ws (hw ▸ h.only) (hw ▸ h.due) ht

/-! ### Tables -/

theorem Tab.find_del_same {α : Type} (t : Tab α) (k : Nat) : (t.del k).find k = none := by
  simp [Tab.del, Tab.find]

/-- A change of the values of a table, each by its number. -/
theorem Tab.find_map {α β : Type} (f : Nat → α → β) (t : Tab α) (k : Nat) :
    Tab.find (t.map fun e => (e.1, f e.1 e.2)) k = (t.find k).map (f k) := by
  induction t with
  | nil => rfl
  | cons e t ih =>
    by_cases h : e.1 = k
    · subst h; simp [Tab.find]
    · simpa [Tab.find, List.find?_cons, h] using ih

/-! ### What the reset values of contexts and cores depend on -/

/-- The fields of a die that the reset values of its contexts and cores follow (R20, R121, R159). -/
def Die.roots (x : Die) : Nat × Bool × Nat := (x.service, x.up, x.firstGen)

/-- Every die of t has the roots that it has in s. -/
def State.SameRoots (s t : State) : Prop := ∀ d, (t.die d).roots = (s.die d).roots

theorem State.SameRoots.refl (s : State) : s.SameRoots s := fun _ => rfl

theorem State.SameRoots.trans {s t u : State} (h : s.SameRoots t) (h' : t.SameRoots u) : s.SameRoots u := fun d => (h' d).trans (h d)

theorem State.SameRoots.of_dies {s t : State} (h : t.dies = s.dies) : s.SameRoots t := fun d => by simp only [State.die, h]

theorem State.SameRoots.modDie (s : State) (d : Nat) {f : Die → Die} (hf : ∀ x, (f x).roots = x.roots) : s.SameRoots (s.modDie d f) := by
  intro e
  by_cases h : e = d
  · subst h; rw [State.die_modDie_same, hf]
  · rw [State.die_modDie_ne _ _ _ _ h]

theorem State.SameRoots.foldl {α : Type} {f : State → α → State} (hf : ∀ (s : State) x, s.SameRoots (f s x)) (l : List α) (s : State) :
    s.SameRoots (l.foldl f s) := by
  induction l generalizing s with
  | nil => exact .refl s
  | cons x l ih => exact (hf s x).trans (ih _)

theorem State.SameRoots.isService {s t : State} (h : s.SameRoots t) (c : Nat) : t.isService c = s.isService c := by
  have := congrArg (·.1) (h (dieOf c))
  simp only [Die.roots] at this
  simp only [State.isService, this]

theorem State.SameRoots.ctx {s t : State} (h : s.SameRoots t) (hc : t.ctxs = s.ctxs) (k : Nat) : t.ctx k = s.ctx k := by
  have := congrArg (·.2.2) (h (dieOf (coreOf k)))
  simp only [Die.roots] at this
  simp only [State.ctx, h.isService, this, hc]

theorem State.SameRoots.core {s t : State} (h : s.SameRoots t) (hc : t.cores = s.cores) (c : Nat) : t.core c = s.core c := by
  have h1 := congrArg (·.1) (h (dieOf c))
  have h2 := congrArg (·.2.1) (h (dieOf c))
  simp only [Die.roots] at h1 h2
  simp only [State.core, h1, h2, hc]

/-! ### Changes of every core and of every die -/

/-- A change made to every core that the table lists. -/
theorem State.core_map (s : State) (f : Nat → Core → Core) (c : Nat) :
    ({ s with cores := s.cores.map fun e => (e.1, f e.1 e.2) } : State).core c = f c (s.core c) ∨
    ({ s with cores := s.cores.map fun e => (e.1, f e.1 e.2) } : State).core c = s.core c := by
  simp only [State.core, Tab.get_eq_find, Tab.find_map f]
  cases s.cores.find c
  · exact .inr rfl
  · exact .inl rfl

/-- One change made to every die up to the n-th. -/
theorem State.die_foldl_modDie (s : State) (f : Die → Die) (n d : Nat) :
    ((List.range n).foldl (fun s e => s.modDie e f) s).die d = if d < n then f (s.die d) else s.die d := by
  induction n with
  | zero => simp
  | succ n ih =>
    rw [List.range_succ, List.foldl_append, List.foldl_cons, List.foldl_nil]
    by_cases h : d = n
    · subst h; simp [ih]
    · rw [State.die_modDie_ne _ _ _ _ h, ih]
      have : d < n + 1 ↔ d < n := by omega
      simp only [this]

/-- Such changes reach nothing but the dies. -/
theorem State.foldl_modDie_rest {α : Type} (f : α → Nat) (g : α → Die → Die) (l : List α) (s : State) :
    l.foldl (fun s e => s.modDie (f e) (g e)) s = { s with dies := (l.foldl (fun s e => s.modDie (f e) (g e)) s).dies } := by
  induction l generalizing s with
  | nil => rfl
  | cons e l ih => rw [List.foldl_cons, ih]; rfl

/-! ### Time (R31, R275) -/

theorem Die.counted_roots (x : Die) (t r : Nat) : (x.counted t r).roots = x.roots := rfl

theorem Die.slewed_roots (x : Die) (t r : Nat) : (x.slewed t r).roots = x.roots := by
  unfold Die.slewed; dsimp only; split <;> rfl

theorem Die.ran_roots (x : Die) (t r : Nat) : (x.ran t r).roots = x.roots := by
  unfold Die.ran
  split <;> simp only [Die.counted_roots, Die.slewed_roots]

/-- The time that passes until a clock shows t reaches nothing but the dies, and their roots stay. -/
theorem State.runTo_rest (s : State) (d t : Nat) : s.runTo d t = { s with dies := (s.runTo d t).dies } := by
  unfold State.runTo
  extract_lets n m
  split
  · rfl
  · exact State.foldl_modDie_rest id (fun _ x => x.ran m 0) _ s

theorem State.sameRoots_runTo (s : State) (d t : Nat) : s.SameRoots (s.runTo d t) := by
  unfold State.runTo
  extract_lets n m
  split
  · exact .refl s
  · exact .foldl (fun s e => .modDie s e fun x => x.ran_roots _ _) _ s

@[simp] theorem State.runTo_ctx (s : State) (d t k : Nat) : (s.runTo d t).ctx k = s.ctx k :=
  (s.sameRoots_runTo d t).ctx (by rw [State.runTo_rest]) k

@[simp] theorem State.runTo_core (s : State) (d t c : Nat) : (s.runTo d t).core c = s.core c :=
  (s.sameRoots_runTo d t).core (by rw [State.runTo_rest]) c

/-- What is left on a clock until a time that lies ahead, by less than half a turn. -/
theorem State.left_of_ahead (s : State) (d t : Nat) (h : s.now d ≤ t) (h' : t < s.now d + 2 ^ 63) : s.left d t = t - s.now d := by
  unfold State.left State.reached serialGe
  generalize s.now d = n at h h'
  by_cases e : n = t
  · have : (n + (2 ^ 64 - t % 2 ^ 64)) % 2 ^ 64 < 2 ^ (64 - 1) := by omega
    rw [decide_eq_true this, if_pos rfl]; omega
  · have : ¬(n + (2 ^ 64 - t % 2 ^ 64)) % 2 ^ 64 < 2 ^ (64 - 1) := by omega
    rw [decide_eq_false this, if_neg Bool.false_ne_true]; omega

/-- A clock that runs and is not being slewed takes the time that passes. -/
theorem Die.ran_tclk (x : Die) (n : Nat) (hp : x.power ≠ .d3) (ho : x.offset = 0) : (x.ran n 0).tclk = x.tclk + n := by
  have h : (x.slewed n (0 / cycleUnit)).tclk = x.tclk + n := by simp [Die.slewed, ho]; omega
  unfold Die.ran
  split
  · exact h
  · exact h
  · exact h
  · contradiction

/-- Time runs on until the clock shows a time that lies ahead. -/
theorem State.runTo_tclk (s : State) (d t : Nat) (hd : d < 8) (hp : (s.die d).power ≠ .d3) (ho : (s.die d).offset = 0)
    (h : (s.die d).tclk ≤ t) (h' : t < (s.die d).tclk + 2 ^ 63) : ((s.runTo d t).die d).tclk = t := by
  have hl : s.left d t = t - (s.die d).tclk := s.left_of_ahead d t h h'
  unfold State.runTo
  simp only [hl]
  by_cases e : t - (s.die d).tclk = 0
  · rw [if_pos e]; omega
  · rw [if_neg e, State.die_foldl_modDie, if_pos hd, Die.ran_tclk _ _ hp ho, ho]
    simp
    omega

/-! ### Monitor samples (R522) -/

theorem State.latency_rest (s : State) (d n a : Nat) : s.latency d n a = { s with dies := (s.latency d n a).dies, draws := (s.latency d n a).draws } := by
  unfold State.latency; split <;> rfl

theorem State.sameRoots_latency (s : State) (d n a : Nat) : s.SameRoots (s.latency d n a) := by
  unfold State.latency
  split
  · exact .modDie { s with draws := s.draws + 1 } d fun _ => rfl
  · exact .refl s

@[simp] theorem State.latency_ctx (s : State) (d n a k : Nat) : (s.latency d n a).ctx k = s.ctx k :=
  (s.sameRoots_latency d n a).ctx (by rw [State.latency_rest]) k

@[simp] theorem State.latency_core (s : State) (d n a c : Nat) : (s.latency d n a).core c = s.core c :=
  (s.sameRoots_latency d n a).core (by rw [State.latency_rest]) c

theorem State.latency_launch (s : State) (d n a slot : Nat) : (s.latency d n a).launch slot = s.launch slot := by rw [State.latency_rest]; rfl

/-! ### What the movement of lines leaves alone (R298 to R302) -/

/-- t is s but for what the movement of lines may change: of a context its ltime and its write set, of a core its L1. The roots of the dies stay. -/
structure State.Coheres (s t : State) : Prop where
  roots : s.SameRoots t
  ctx : ∀ j, t.ctx j = { s.ctx j with ltime := (t.ctx j).ltime, writes := (t.ctx j).writes }
  core : ∀ c, t.core c = { s.core c with l1 := (t.core c).l1 }

theorem State.Coheres.refl (s : State) : s.Coheres s := ⟨.refl s, fun _ => rfl, fun _ => rfl⟩

theorem State.Coheres.trans {s t u : State} (h : s.Coheres t) (h' : t.Coheres u) : s.Coheres u := by
  refine ⟨h.roots.trans h'.roots, fun j => ?_, fun c => ?_⟩
  · have e := h'.ctx j
    rw [h.ctx j] at e
    exact e
  · have e := h'.core c
    rw [h.core c] at e
    exact e

theorem State.Coheres.foldl {α : Type} {f : State → α → State} (hf : ∀ (s : State) x, s.Coheres (f s x)) (l : List α) (s : State) :
    s.Coheres (l.foldl f s) := by
  induction l generalizing s with
  | nil => exact .refl s
  | cons x l ih => exact (hf s x).trans (ih _)

/-- A change that reaches neither the contexts nor the cores. -/
theorem State.Coheres.of_tables {s t : State} (hr : s.SameRoots t) (hx : t.ctxs = s.ctxs) (hc : t.cores = s.cores) : s.Coheres t :=
  ⟨hr, fun j => by rw [hr.ctx hx], fun c => by rw [hr.core hc]⟩

theorem State.Coheres.modDie (s : State) (d : Nat) {f : Die → Die} (hf : ∀ x, (f x).roots = x.roots) : s.Coheres (s.modDie d f) :=
  .of_tables (.modDie s d hf) rfl rfl

theorem State.Coheres.modCtx (s : State) (k : Nat) {f : Ctx → Ctx} (hf : ∀ c, f c = { c with ltime := (f c).ltime, writes := (f c).writes }) :
    s.Coheres (s.modCtx k f) := by
  refine ⟨.refl s, fun j => ?_, fun _ => rfl⟩
  by_cases h : j = k
  · subst h; rw [State.ctx_modCtx_same]; exact hf _
  · rw [State.ctx_modCtx_ne _ _ _ _ h]

theorem State.Coheres.modCore (s : State) (c : Nat) {f : Core → Core} (hf : ∀ x, f x = { x with l1 := (f x).l1 }) : s.Coheres (s.modCore c f) := by
  refine ⟨.refl s, fun _ => rfl, fun e => ?_⟩
  by_cases h : e = c
  · subst h; rw [State.core_modCore_same]; exact hf _
  · rw [State.modCore, State.core_setCore_ne _ _ _ _ h]

/-- A change of the L1s of all cores. -/
theorem State.Coheres.mapL1 (s : State) (f : Nat → Tab L1Line → Tab L1Line) :
    s.Coheres { s with cores := s.cores.map fun (e : Nat × Core) => (e.1, { e.2 with l1 := f e.1 e.2.l1 }) } := by
  refine ⟨.refl s, fun _ => rfl, fun c => ?_⟩
  rcases s.core_map (fun c x => { x with l1 := f c x.l1 }) c with h | h <;> rw [h]

theorem State.coheres_raisePts (s : State) (k p : Nat) : s.Coheres (s.raisePts k p) := .modCtx s k fun _ => rfl

theorem State.coheres_stampWrite (s : State) (l p : Nat) : s.Coheres (s.stampWrite l p).1 := .of_tables (.modDie _ _ fun _ => rfl) rfl rfl

theorem State.coheres_dropL1 (s : State) (l : Nat) (keep : Nat → L1Line → Bool) : s.Coheres (s.dropL1 l keep) :=
  .mapL1 s fun c t => t.filter fun x => x.1 != l || keep c x.2

theorem State.coheres_updateL1 (s : State) (c l m x : Nat) (away : Bool) : s.Coheres (s.updateL1 c l m x away) :=
  .mapL1 s fun e t => if away then l1Passed c l e t else l1Stored c l m x e t

theorem State.coheres_notePacket (s : State) (d pa cls : Nat) (ks : List Nat) (wts : Nat) (r : Bool) : s.Coheres (s.notePacket d pa cls ks wts r) := by
  unfold State.notePacket
  extract_lets to_ t n at_ s1
  exact .trans (t := s1) (.modDie s d fun _ => rfl) (.foldl (fun s k => .modCtx s k fun _ => rfl) ks s1)

theorem State.coheres_own (s : State) (d l : Nat) (f : Nat → Nat) (ks : List Nat) (p : Nat) : s.Coheres (s.own d l f ks p) := by
  unfold State.own
  exact .modDie s d fun _ => rfl

theorem State.coheres_cleaned (s : State) (c l : Nat) : s.Coheres (s.cleaned c l) := .modCore s c fun _ => rfl

theorem State.coheres_holdBytes (s : State) (b : HeldBytes) : s.Coheres (s.holdBytes b) := .modDie s _ fun _ => rfl

/-- The state with another memory. -/
theorem State.coheres_mem (s : State) (m : Mem) : s.Coheres { s with mem := m } := .of_tables (.of_dies rfl) rfl rfl

theorem State.coheres_writeBack (s : State) (d l : Nat) : s.Coheres (s.writeBack d l) := by
  unfold State.writeBack
  split
  · exact .refl s
  · split
    · refine .trans ?_ (State.coheres_dropL1 _ _ _)
      refine .trans ?_ (State.coheres_notePacket _ _ _ _ _ _ _)
      refine .trans ?_ (.modDie _ _ fun _ => rfl)
      exact .trans (s.coheres_stampWrite _ _) (State.coheres_mem _ _)
    · exact .refl s

theorem State.coheres_soak (s : State) (d l : Nat) : s.Coheres (s.soak d l) := by
  refine .foldl (fun s c => ?_) _ s
  split
  · exact .refl s
  · dsimp only
    split
    · exact .trans (s.coheres_cleaned c l) (State.coheres_holdBytes _ _)
    · exact .trans (s.coheres_cleaned c l) (State.coheres_own _ _ _ _ _ _)

theorem State.coheres_recall (s : State) (l : Nat) : s.Coheres (s.recall l) := by
  refine .foldl (fun s d => ?_) _ s
  split
  · refine .trans ?_ (State.coheres_dropL1 _ _ _)
    refine .trans ?_ (.modDie _ _ fun _ => rfl)
    exact .trans (s.coheres_soak d l) (State.coheres_writeBack _ _ _)
  · exact .refl s

theorem State.coheres_reach (s : State) (b : HeldBytes) : s.Coheres (s.reach b) := by
  unfold State.reach
  dsimp only
  split
  · refine .trans ?_ (.foldl (fun s k => s.coheres_raisePts k _) _ _)
    refine .trans ?_ (State.coheres_updateL1 _ _ _ _ _ _)
    refine .trans ?_ (State.coheres_mem _ _)
    exact .trans (s.coheres_recall b.line) (State.coheres_stampWrite _ _ _)
  · refine .trans ?_ (State.coheres_updateL1 _ _ _ _ _ _)
    refine .trans ?_ (State.coheres_own _ _ _ _ _ _)
    split
    · exact .refl s
    · exact s.coheres_recall b.line

theorem State.coheres_spill (s : State) (c l : Nat) : s.Coheres (s.spill c l) := by
  unfold State.spill
  split
  · exact .refl s
  · split
    · exact .refl s
    · dsimp only
      split
      · exact .trans (s.coheres_cleaned c l) (State.coheres_holdBytes _ _)
      · exact .trans (s.coheres_cleaned c l) (State.coheres_reach _ _)

theorem State.coheres_spillIf (s : State) (c : Nat) (p : Nat → L1Line → Bool) : s.Coheres (s.spillIf c p) :=
  .foldl (fun s l => s.coheres_spill c l) _ s

theorem State.coheres_acquire (s : State) (c : Nat) : s.Coheres (s.acquire c) := by
  unfold State.acquire
  exact .trans (s.coheres_spillIf c _) (.modCore _ c fun _ => rfl)

/-! ### Completion counters and the order of tables do not move lines -/

/-- A core without its completion counters. -/
def Core.uncounted (x : Core) : Core := { x with counters := [] }

/-- The cores of a table without their completion counters. -/
def Tab.uncounted (t : Tab Core) : Tab Core := t.map fun e => (e.1, e.2.uncounted)

/-- t is s but for the completion counters of cores and the order in which contexts are listed. -/
structure State.Twin (s t : State) : Prop where
  rest : t = { s with ctxs := t.ctxs, cores := t.cores }
  cores : Tab.uncounted t.cores = Tab.uncounted s.cores
  ctx : ∀ j, t.ctx j = s.ctx j

section Twins

variable {s t : State}

/-- Twins answer alike what does not look at contexts or cores. -/
theorem State.Twin.read (h : s.Twin t) {α : Type} (f : State → α) (hf : ∀ x c, f { s with ctxs := x, cores := c } = f s) : f t = f s := by
  rw [h.rest]; exact hf _ _

theorem State.Twin.die (h : s.Twin t) (d : Nat) : t.die d = s.die d := h.read (·.die d) fun _ _ => rfl

theorem State.Twin.mem (h : s.Twin t) : t.mem = s.mem := h.read (·.mem) fun _ _ => rfl

theorem State.Twin.uncounted (h : s.Twin t) (c : Nat) : (t.core c).uncounted = (s.core c).uncounted := by
  have e : (t.cores.find c).map Core.uncounted = (s.cores.find c).map Core.uncounted := by
    rw [← Tab.find_map fun _ => Core.uncounted, ← Tab.find_map fun _ => Core.uncounted]
    exact congrArg (Tab.find · c) h.cores
  have hd := h.die (dieOf c)
  simp only [State.core, Tab.get_eq_find, hd]
  cases ht : t.cores.find c <;> cases hs : s.cores.find c <;> simp_all

theorem State.Twin.l1 (h : s.Twin t) (c : Nat) : (t.core c).l1 = (s.core c).l1 := by
  have e := congrArg Core.l1 (h.uncounted c)
  exact e

theorem State.dirtyCores_uncounted (s : State) (d l : Nat) : ({ s with cores := Tab.uncounted s.cores } : State).dirtyCores d l = s.dirtyCores d l := by
  simp only [State.dirtyCores, Tab.uncounted, List.filter_map, List.map_map]
  rfl

theorem State.Twin.dirtyCores (h : s.Twin t) (d l : Nat) : t.dirtyCores d l = s.dirtyCores d l := by
  rw [← State.dirtyCores_uncounted t, ← State.dirtyCores_uncounted s, h.cores]
  rfl

/-! What twins become by the same change. -/

theorem State.Twin.foldl {α : Type} {f : State → α → State} (hf : ∀ {s t : State} x, s.Twin t → (f s x).Twin (f t x)) (h : s.Twin t) (l : List α) :
    (l.foldl f s).Twin (l.foldl f t) := by
  induction l generalizing s t with
  | nil => exact h
  | cons x l ih => exact ih (hf x h)

theorem State.Twin.withMem (h : s.Twin t) (m : Mem) : ({ s with mem := m } : State).Twin { t with mem := m } :=
  ⟨by rw [h.rest], h.cores, fun j => (h.ctx j)⟩

theorem State.Twin.withStamps (h : s.Twin t) (x : Tab (Nat × Nat)) : ({ s with stamps := x } : State).Twin { t with stamps := x } :=
  ⟨by rw [h.rest], h.cores, fun j => (h.ctx j)⟩

theorem State.Twin.modDie (h : s.Twin t) (d : Nat) {f : Die → Die} (hf : ∀ x, (f x).roots = x.roots) : (s.modDie d f).Twin (t.modDie d f) := by
  refine ⟨?_, h.cores, fun j => ?_⟩
  · rw [h.rest]; rfl
  · rw [(State.SameRoots.modDie s d hf).ctx rfl, (State.SameRoots.modDie t d hf).ctx rfl, h.ctx]

theorem State.Twin.modCtx (h : s.Twin t) (k : Nat) (f : Ctx → Ctx) : (s.modCtx k f).Twin (t.modCtx k f) := by
  refine ⟨?_, h.cores, fun j => ?_⟩
  · rw [h.rest]; rfl
  · by_cases e : j = k
    · subst e; rw [State.ctx_modCtx_same, State.ctx_modCtx_same, h.ctx]
    · rw [State.ctx_modCtx_ne _ _ _ _ e, State.ctx_modCtx_ne _ _ _ _ e, h.ctx]

theorem State.Twin.mapL1 (h : s.Twin t) (f : Nat → Tab L1Line → Tab L1Line) :
    ({ s with cores := s.cores.map fun (e : Nat × Core) => (e.1, { e.2 with l1 := f e.1 e.2.l1 }) } : State).Twin
      { t with cores := t.cores.map fun (e : Nat × Core) => (e.1, { e.2 with l1 := f e.1 e.2.l1 }) } := by
  refine ⟨?_, ?_, h.ctx⟩
  · rw [h.rest]
  · have e : ∀ x : Tab Core, Tab.uncounted (x.map fun (e : Nat × Core) => (e.1, { e.2 with l1 := f e.1 e.2.l1 })) =
        (Tab.uncounted x).map fun (e : Nat × Core) => (e.1, { e.2 with l1 := f e.1 e.2.l1 }) := fun x => by
      simp only [Tab.uncounted, List.map_map]; rfl
    rw [e, e, h.cores]

theorem Tab.uncounted_put (x : Tab Core) (c : Nat) (y : Core) : Tab.uncounted (x.put c y) = (Tab.uncounted x).put c y.uncounted := by
  simp only [Tab.uncounted, Tab.put, Tab.del, List.map_cons, List.filter_map]
  rfl

theorem State.Twin.modCore (h : s.Twin t) (c : Nat) {f : Core → Core} (hf : ∀ x, (f x).uncounted = (f x.uncounted).uncounted) :
    (s.modCore c f).Twin (t.modCore c f) := by
  refine ⟨?_, ?_, h.ctx⟩
  · rw [h.rest]; rfl
  · rw [State.modCore_cores, State.modCore_cores, Tab.uncounted_put, Tab.uncounted_put, h.cores, hf, hf (s.core c), h.uncounted]

theorem State.Twin.raisePts (h : s.Twin t) (k p : Nat) : (s.raisePts k p).Twin (t.raisePts k p) := h.modCtx k _

theorem State.Twin.lineStamps (h : s.Twin t) (l : Nat) : t.lineStamps l = s.lineStamps l := h.read (·.lineStamps l) fun _ _ => rfl

theorem State.Twin.stampWrite (h : s.Twin t) (l p : Nat) :
    (s.stampWrite l p).1.Twin (t.stampWrite l p).1 ∧ (t.stampWrite l p).2 = (s.stampWrite l p).2 := by
  have hs : t.stamps = s.stamps := h.read (·.stamps) fun _ _ => rfl
  simp only [State.stampWrite, h.lineStamps, hs]
  exact ⟨(h.withStamps _).modDie _ fun _ => rfl, trivial⟩

theorem State.Twin.dropL1 (h : s.Twin t) (l : Nat) (keep : Nat → L1Line → Bool) : (s.dropL1 l keep).Twin (t.dropL1 l keep) :=
  h.mapL1 fun c t => t.filter fun x => x.1 != l || keep c x.2

theorem State.Twin.updateL1 (h : s.Twin t) (c l m x : Nat) (away : Bool) : (s.updateL1 c l m x away).Twin (t.updateL1 c l m x away) :=
  h.mapL1 fun e t => if away then l1Passed c l e t else l1Stored c l m x e t

theorem State.Twin.notePacket (h : s.Twin t) (d pa cls : Nat) (ks : List Nat) (wts : Nat) (r : Bool) :
    (s.notePacket d pa cls ks wts r).Twin (t.notePacket d pa cls ks wts r) := by
  have hl : t.local_ pa = s.local_ pa := h.read (·.local_ pa) fun _ _ => rfl
  have hn : ∀ d, t.now d = s.now d := fun d => h.read (·.now d) fun _ _ => rfl
  simp only [State.notePacket, hl, hn, h.die]
  refine .foldl (fun k h => h.modCtx k _) ?_ ks
  exact h.modDie d fun _ => rfl

theorem State.Twin.homeLine (h : s.Twin t) (l : Nat) : t.homeLine l = s.homeLine l := h.read (·.homeLine l) fun _ _ => rfl

theorem State.Twin.own (h : s.Twin t) (d l : Nat) (f : Nat → Nat) (ks : List Nat) (p : Nat) : (s.own d l f ks p).Twin (t.own d l f ks p) := by
  have hn : t.now d = s.now d := h.read (·.now d) fun _ _ => rfl
  simp only [State.own, h.die, h.homeLine, hn]
  exact h.modDie d fun _ => rfl

theorem State.Twin.cleaned (h : s.Twin t) (c l : Nat) : (s.cleaned c l).Twin (t.cleaned c l) := h.modCore c fun _ => rfl

theorem State.Twin.holdBytes (h : s.Twin t) (b : HeldBytes) : (s.holdBytes b).Twin (t.holdBytes b) := h.modDie _ fun _ => rfl

theorem State.Twin.linePinned (h : s.Twin t) (d key va : Nat) : t.linePinned d key va = s.linePinned d key va :=
  h.read (·.linePinned d key va) fun _ _ => rfl

theorem State.Twin.writeBack (h : s.Twin t) (d l : Nat) : (s.writeBack d l).Twin (t.writeBack d l) := by
  unfold State.writeBack
  rw [h.die]
  split
  · exact h
  · rename_i o _
    split
    · obtain ⟨h1, hw⟩ := h.stampWrite l o.pts
      simp only [hw, h1.mem]
      refine State.Twin.dropL1 ?_ _ _
      refine State.Twin.notePacket ?_ _ _ _ _ _ _
      refine State.Twin.modDie ?_ _ fun _ => rfl
      exact h1.withMem _
    · exact h

theorem State.Twin.soak (h : s.Twin t) (d l : Nat) : (s.soak d l).Twin (t.soak d l) := by
  unfold State.soak
  rw [h.dirtyCores]
  refine .foldl (fun {s t} c h => ?_) h _
  rw [h.l1]
  split
  · exact h
  · have h1 := h.cleaned c l
    simp only [h1.linePinned]
    split
    · exact h1.holdBytes _
    · exact h1.own _ _ _ _ _

theorem State.Twin.recall (h : s.Twin t) (l : Nat) : (s.recall l).Twin (t.recall l) := by
  unfold State.recall
  refine .foldl (fun {s t} d h => ?_) h _
  rw [h.die]
  split
  · refine State.Twin.dropL1 ?_ _ _
    refine State.Twin.modDie ?_ _ fun _ => rfl
    exact (h.soak d l).writeBack d l
  · exact h

theorem State.Twin.reach (h : s.Twin t) (b : HeldBytes) : (s.reach b).Twin (t.reach b) := by
  unfold State.reach
  dsimp only
  split
  · obtain ⟨h1, hw⟩ := (h.recall b.line).stampWrite b.line b.copy.pts
    simp only [hw, h1.mem, h1.homeLine]
    refine .foldl (fun k h => h.raisePts k _) ?_ _
    refine State.Twin.updateL1 ?_ _ _ _ _ _
    exact h1.withMem _
  · rw [h.die]
    refine State.Twin.updateL1 (State.Twin.own ?_ _ _ _ _ _) _ _ _ _ _
    split
    · exact h
    · exact h.recall b.line

theorem State.Twin.spill (h : s.Twin t) (c l : Nat) : (s.spill c l).Twin (t.spill c l) := by
  unfold State.spill
  rw [h.l1]
  split
  · exact h
  · split
    · exact h
    · have h1 := h.cleaned c l
      simp only [h1.linePinned]
      split
      · exact h1.holdBytes _
      · exact h1.reach _

theorem State.Twin.acquire (h : s.Twin t) (c : Nat) : (s.acquire c).Twin (t.acquire c) := by
  unfold State.acquire State.spillIf
  rw [h.l1]
  exact State.Twin.modCore (.foldl (fun l h => h.spill c l) h _) c fun _ => rfl

end Twins

/-- An acquire by a core does not depend on where the table lists the core. -/
theorem State.acquire_setCore_core (s : State) (c : Nat) : (s.setCore c (s.core c)).acquire c = s.acquire c := by
  have hs : ∀ (l : List Nat), (l.foldl (fun s l => s.spill c l) (s.setCore c (s.core c))) = l.foldl (fun s l => s.spill c l) s ∨
      (l.foldl (fun s l => s.spill c l) s = s ∧ l.foldl (fun s l => s.spill c l) (s.setCore c (s.core c)) = s.setCore c (s.core c)) := by
    intro l
    induction l with
    | nil => exact .inr ⟨rfl, rfl⟩
    | cons x l ih =>
      rw [List.foldl_cons, List.foldl_cons]
      have hc : (s.setCore c (s.core c)).cleaned c x = s.cleaned c x := by simp [State.cleaned, State.modCore]
      cases hf : (s.core c).l1.find x with
      | none =>
        have h1 : s.spill c x = s := by simp only [State.spill, hf]
        have h2 : (s.setCore c (s.core c)).spill c x = s.setCore c (s.core c) := by simp only [State.spill, State.core_setCore_same, hf]
        rw [h1, h2]; exact ih
      | some y =>
        by_cases hd : y.dirty = 0
        · have h1 : s.spill c x = s := by simp only [State.spill, hf, if_pos hd]
          have h2 : (s.setCore c (s.core c)).spill c x = s.setCore c (s.core c) := by simp only [State.spill, State.core_setCore_same, hf, if_pos hd]
          rw [h1, h2]; exact ih
        · left
          simp only [State.spill, State.core_setCore_same, hf, if_neg hd, hc]
  unfold State.acquire State.spillIf
  rw [State.core_setCore_same]
  rcases hs _ with h | ⟨h1, h2⟩
  · rw [h]
  · rw [h1, h2]; simp [State.modCore]

/-! ### The end of a launch (R255, R489) -/

/-- A host event reaches memory, its queue and the agenda alone. -/
theorem State.hostEvent_rest (s : State) (n : Nat) (e : HostEvent) : s.hostEvent n e =
    { s with mem := (s.hostEvent n e).mem, evqs := (s.hostEvent n e).evqs, agenda := (s.hostEvent n e).agenda } := by
  unfold State.hostEvent
  split
  · rfl
  · split <;> rfl

/-- The messages written before a launch's last event reach the network beside that. -/
theorem State.lastMessages_rest (s : State) (n : Nat) : s.lastMessages n =
    { s with net := (s.lastMessages n).net, mem := (s.lastMessages n).mem, evqs := (s.lastMessages n).evqs, agenda := (s.lastMessages n).agenda } := by
  unfold State.lastMessages
  extract_lets own m
  generalize s.net.filter own = l
  generalize he : ({ s with net := s.net.filter fun m => !own m } : State) = s1
  have h1 : s1 = { s with net := s1.net, mem := s1.mem, evqs := s1.evqs, agenda := s1.agenda } := by rw [← he]
  clear he
  induction l generalizing s1 with
  | nil => exact h1
  | cons x l ih =>
    rw [List.foldl_cons]
    refine ih _ ?_
    split
    · rw [State.hostEvent_rest, h1]
    · exact h1

/-- A core that a launch leaves runs none, and its contexts are free; the others are as they were. -/
theorem State.leaveCore_slot (s : State) (c e : Nat) : ((s.leaveCore c).core e).slot = if e = c then none else (s.core e).slot := by
  have hf : ∀ (l : List Nat) (s : State), ((l.foldl (fun s i => s.modCtx (c * 8 + i) Ctx.freed) s).core e).slot = (s.core e).slot := by
    intro l
    induction l with
    | nil => exact fun _ => rfl
    | cons i l ih => exact fun s => ih _
  unfold State.leaveCore
  by_cases h : e = c
  · subst h; rw [State.core_modCore_same, if_pos rfl]
  · rw [State.modCore, State.core_setCore_ne _ _ _ _ h, if_neg h, hf]

theorem State.leaveCore_state (s : State) (c j : Nat) : ((s.leaveCore c).ctx j).state = if j / 8 = c then .free else (s.ctx j).state := by
  have hf : ∀ n, (((List.range n).foldl (fun s i => s.modCtx (c * 8 + i) Ctx.freed) s).ctx j).state =
      if c * 8 ≤ j ∧ j < c * 8 + n then .free else (s.ctx j).state := by
    intro n
    induction n with
    | zero => rw [if_neg (by omega)]; rfl
    | succ n ih =>
      rw [List.range_succ, List.foldl_append, List.foldl_cons, List.foldl_nil]
      by_cases h : j = c * 8 + n
      · subst h; rw [State.ctx_modCtx_same, if_pos (by omega)]; rfl
      · rw [State.ctx_modCtx_ne _ _ _ _ h, ih]
        exact ite_congr (propext (by omega)) (fun _ => rfl) fun _ => rfl
  unfold State.leaveCore
  rw [State.modCore_ctx, hf]
  exact ite_congr (propext (by omega)) (fun _ => rfl) fun _ => rfl

/-- Every core of a list is left, with its contexts. -/
theorem State.foldl_leaveCore (s : State) (l : List Nat) (c : Nat) (h : c ∈ l) :
    ((l.foldl State.leaveCore s).core c).slot = none ∧ ∀ j, j < 8 → ((l.foldl State.leaveCore s).ctx (c * 8 + j)).state = .free := by
  have hs : ∀ (l : List Nat) (s : State), ((l.foldl State.leaveCore s).core c).slot = if c ∈ l then none else (s.core c).slot := by
    intro l
    induction l with
    | nil => exact fun _ => rfl
    | cons x l ih =>
      intro s
      rw [List.foldl_cons, ih, State.leaveCore_slot]
      by_cases h1 : c = x <;> by_cases h2 : c ∈ l <;> simp [h1, h2]
  have hx : ∀ (j : Nat) (l : List Nat) (s : State), ((l.foldl State.leaveCore s).ctx j).state = if j / 8 ∈ l then .free else (s.ctx j).state := by
    intro j l
    induction l with
    | nil => exact fun _ => rfl
    | cons x l ih =>
      intro s
      rw [List.foldl_cons, ih, State.leaveCore_state]
      by_cases h1 : j / 8 = x <;> by_cases h2 : j / 8 ∈ l <;> simp [h1, h2]
  refine ⟨by rw [hs, if_pos h], fun j hj => ?_⟩
  have : (c * 8 + j) / 8 = c := by omega
  rw [hx, this, if_pos h]

/-- What writers' marks are dropped reaches the L1s and the dies alone. -/
theorem State.coheres_forgetWriters (s : State) (cs : List Nat) : s.Coheres (s.forgetWriters cs) := by
  unfold State.forgetWriters
  extract_lets gone s1
  have h1 : s.Coheres s1 := by
    refine .foldl (fun s d => ?_) _ s
    exact .modDie s d fun _ => rfl
  refine h1.trans ?_
  exact .mapL1 s1 fun _ t => t.map fun y => (y.1, { y.2 with writers := y.2.writers.filter fun k => !gone k })

theorem State.coheres_acks (s : State) (a : List Ack) : s.Coheres { s with acks := a } := .of_tables (.of_dies rfl) rfl rfl

/-- Once its cores have let go of a launch, the rest of its clearing leaves contexts and cores alone. -/
theorem State.coheres_clearCores (s : State) (l : Launch) : ((s.coresOf l).foldl State.leaveCore s).Coheres (s.clearCores l) := by
  unfold State.clearCores
  extract_lets cs s1 s2 s3 s4 s5
  have h2 : s1.Coheres s2 := by
    refine .foldl (fun s n => ?_) _ s1
    exact .of_tables (.of_dies rfl) rfl rfl
  have h3 : s2.Coheres s3 := by
    refine .foldl (fun s d => ?_) _ s2
    exact .modDie s d fun _ => rfl
  have h5 : s4.Coheres s5 := by
    refine .foldl (fun s d => ?_) _ s4
    split
    · exact .refl s
    · exact .of_tables (.of_dies rfl) rfl rfl
  exact (((h2.trans h3).trans (s3.coheres_forgetWriters cs)).trans h5).trans (s5.coheres_acks _)

theorem State.coheres_dropTables (s : State) (n : Nat) : s.Coheres (s.dropTables n) := by
  unfold State.dropTables
  extract_lets s1
  have h1 : s.Coheres s1 := by
    refine .foldl (fun s d => ?_) _ s
    exact .modDie s d fun _ => rfl
  refine h1.trans ?_
  exact .of_tables (.of_dies rfl) rfl rfl

theorem State.coheres_dropMarks (s : State) (n : Nat) : s.Coheres (s.dropMarks n) := .of_tables (.of_dies rfl) rfl rfl

theorem State.coheres_launches_post (s : State) (x : Tab Launch) (e : Event) : s.Coheres (({ s with launches := x } : State).post e) :=
  .of_tables (.of_dies rfl) rfl rfl

theorem State.dropCommand_rest (s : State) (n : Nat) (l : Launch) : s.dropCommand n l =
    { s with mem := (s.dropCommand n l).mem, evqs := (s.dropCommand n l).evqs, agenda := (s.dropCommand n l).agenda } := by
  unfold State.dropCommand
  split
  · split
    · exact s.hostEvent_rest _ _
    · rfl
  · rfl

theorem State.coheres_dropCommand (s : State) (n : Nat) (l : Launch) : s.Coheres (s.dropCommand n l) := by
  rw [State.dropCommand_rest]; exact .of_tables (.of_dies rfl) rfl rfl

/-- What of a launch is left when it has ended. -/
theorem State.endLaunch_over (s : State) (n : Nat) (h : (s.launch n).state ≠ .free) :
    ((s.endLaunch n).launch n).state = .free ∧
    ((s.launch n).state = .running → ∀ c ∈ s.coresOf (s.launch n), ((s.endLaunch n).core c).slot = none ∧
      ∀ j, j < 8 → ((s.endLaunch n).ctx (c * 8 + j)).state = .free) ∧
    (∀ e ∈ (s.endLaunch n).regions, e.1 / 64 ≠ n) ∧ (∀ e ∈ (s.endLaunch n).grids, e.1 / 32 ≠ n) := by
  unfold State.endLaunch
  extract_lets l s1 s2 gone
  rw [if_neg h]
  have hr : s2 = { s1 with mem := s2.mem, evqs := s2.evqs, agenda := s2.agenda } := State.dropCommand_rest ..
  refine ⟨?_, fun hs c hc => ?_, fun e he => ?_, fun e he => ?_⟩
  · simp [State.launch, gone]
  · have h1 : (s.clearCores l).Coheres s1 := by
      have : l.state ≠ .saved := by rw [hs]; decide
      simp only [s1, if_neg this]
      exact .trans (State.coheres_dropTables _ n) (State.coheres_dropMarks _ n)
    have h3 := (((s.coheres_clearCores l).trans h1).trans (s1.coheres_dropCommand n l)).trans (s2.coheres_launches_post (s2.launches.put n gone) .queueBind)
    obtain ⟨hslot, hfree⟩ := s.foldl_leaveCore (s.coresOf l) c hc
    exact ⟨by rw [h3.core c]; exact hslot, fun j hj => by rw [h3.ctx]; exact hfree j hj⟩
  · have : s2.regions = s1.regions := by rw [hr]
    simp only [State.post_regions, this] at he
    simpa using (List.mem_filter.mp he).2
  · have : s2.grids = s1.grids := by rw [hr]
    simp only [State.post_grids, this] at he
    simpa using (List.mem_filter.mp he).2

/-- A launch that is finished is over, and its LAUNCH_END has been given to its event queue. -/
theorem State.launchOver_finishLaunch (s : State) (n cause : Nat) (h : (s.launch n).state ≠ .free) : s.LaunchOver (s.finishLaunch n cause) n 2 cause := by
  have hl : (s.lastMessages n).launch n = s.launch n := by rw [State.lastMessages_rest]; rfl
  have hc : (s.lastMessages n).coresOf (s.launch n) = s.coresOf (s.launch n) := by rw [State.lastMessages_rest]; rfl
  have ho := (s.lastMessages n).endLaunch_over n (hl ▸ h)
  rw [hl, hc] at ho
  obtain ⟨hfree, hcores, hregions, hgrids⟩ := ho
  exact ⟨(s.lastMessages n).endLaunch n, hfree, hcores, hregions, hgrids, by rw [State.finishLaunch, if_neg h]⟩

/-! ### Results of waits (R56, R252, R414, R450) -/

/-- The arrival of the first result lets the one waiting instruction make its attempt. -/
theorem State.Waits.exec_resultArrival {s : State} {k : Nat} {o : Outst} {i : Instr} {g : Regs} {w : Wait} (h : s.Waits k o i g w) :
    exec (.resultArrival k 0) s = .next (resolve k o (attemptOf i (o.env k i g w) s)) := by
  have hf : o.faulted = false := by simp only [Outst.faulted, h.res]
  rw [Machine.exec_resultArrival, execResultArrival, h.only, ← h.retryOne]
  simp [hf]

theorem resultsOfWaits : Parts.ResultsOfWaits := by
  unfold Parts.ResultsOfWaits
  intro s k o i g w ws s2 h ha hw ht ends
  have hwoke := h.woke ha hw ht
  refine ⟨⟨_, h.exec_resultArrival, hwoke⟩, fun hi => ⟨_, ?_, hwoke⟩, fun hi => ⟨_, ?_, hwoke⟩⟩
  · rw [exec_indexEngineEvent, execIndexEngineEvent, h.settleOf _ (by simp [hi])]
  · rw [exec_partHomeEvent, execPartHomeEvent, h.settleOf _ (by simp [hi])]

/-- A deadline passes: time runs on to it, and the one waiting instruction of its kind makes its attempt. -/
theorem State.Waits.timeout {s : State} {k t : Nat} {o : Outst} {i : Instr} {g : Regs} {w : Wait} (h : s.Waits k o i g w) (hd : w.deadline = some t)
    (p : Instr → Bool) (hp : p i = true) :
    s.timeout k p = resolve k o (attemptOf i (o.env k i g w) (s.runTo (dieOf (coreOf k)) t)) := by
  have ht : (s.ctx k).deadlineOf p = some t := by
    simp [Ctx.deadlineOf, h.only, h.res, hp, hd]
  rw [State.timeout, ht]
  exact (h.of_ctx (s.runTo_ctx _ _ _)).settleOf p hp

/-! ### SYNC (R245, R252) -/

/-- The core's own checks of a doubleword look at nothing but cores. -/
theorem State.atomicChecks_of_core {s t : State} (h : ∀ c, t.core c = s.core c) (c va : Nat) : t.atomicChecks c va = s.atomicChecks c va := by
  have hs : ∀ n o, t.shareHasAll c o n = s.shareHasAll c o n := by
    intro n
    induction n with
    | zero => exact fun _ => rfl
    | succ n ih => intro o; simp only [State.shareHasAll, State.shareHas, h, ih]
  have hi : t.scratchIn c va 8 = s.scratchIn c va 8 := by
    unfold State.scratchIn State.scratchBytes
    rw [h, hs]
  unfold State.atomicChecks
  rw [hi]

/-- A parked `SYNC` that has been woken reads its counter. -/
theorem trySync_woken {e : Env} {s : State} {k : Nat} {w : Wait} (hk : e.k = k) (hw : e.wait = some w) (ha : w.aux = syncWoken)
    (hh : s.isHandler k = false) (hp : (s.ctx k).framePub = true) (hf : ((s.ctx k).frameS || (s.ctx k).frameD) = true) :
    trySync e s = readSync e s := by
  obtain ⟨how, t, aux, stops⟩ := w
  subst ha hk
  simp only [trySync, hw, syncWoken, hh, hp, hf, Bool.and_self, Bool.false_eq_true, if_false, if_true]

/-- So does one without a watch whose time has passed. -/
theorem trySync_polls {e : Env} {s : State} {w : Wait} (hw : e.wait = some w) (ha : w.aux = syncPolls) (ht : s.passed e.die w.deadline = true) :
    trySync e s = readSync e s := by
  obtain ⟨how, t, aux, stops⟩ := w
  subst ha
  simp only at ht
  simp only [trySync, hw, syncPolls, ht, if_true]

/-- What `SYNC` makes of its counter: at 0 it is done, an acquire; else it parks. -/
theorem readSync_zero {e : Env} {s s2 : State} (hc : s.atomicChecks e.core (frJoin (s.ctx e.k).snap) = none)
    (hr : s.acquireRead (s.who e.k) (frJoin (s.ctx e.k).snap) true = .ok 0 s2) :
    readSync e s = .done [] ((s2.modCtx e.k fun c => { c with frame := c.frame &&& ~~~4 }).acquire e.core) := by
  simp only [readSync, hc, hr, lsu, if_true]

theorem parkSync_waits (e : Env) (c : Nat) (s : State) : ∃ w, parkSync e c s = .wait w s ∧ w.how = .parked := by
  unfold parkSync
  split
  · split <;> exact ⟨_, rfl, rfl⟩
  · exact ⟨_, rfl, rfl⟩

theorem readSync_parks {e : Env} {s s2 : State} {x : Nat} (hc : s.atomicChecks e.core (frJoin (s.ctx e.k).snap) = none)
    (hr : s.acquireRead (s.who e.k) (frJoin (s.ctx e.k).snap) true = .ok x s2) (hx : x ≠ 0) : ∃ w, readSync e s = .wait w s2 ∧ w.how = .parked := by
  simp only [readSync, hc, hr, lsu, if_neg hx]
  exact parkSync_waits _ _ _

/-- A waiting `SYNC` whose attempt reads its counter, at 0. -/
theorem State.Waits.sync_ends {s s2 : State} {k : Nat} {o : Outst} {g : Regs} {w : Wait} (h : s.Waits k o .sync g w)
    (ht : trySync (o.env k .sync g w) s = readSync (o.env k .sync g w) s) (hc : s.atomicChecks (coreOf k) (frJoin (s.ctx k).snap) = none)
    (hr : s.acquireRead (s.who k) (frJoin (s.ctx k).snap) true = .ok 0 s2) (hw : (s2.ctx k).win = (s.ctx k).win) :
    ((s2.modCtx k fun y => { y with frame := y.frame &&& ~~~4 }).acquire (coreOf k)).Woke (resolve k o (attemptOf .sync (o.env k .sync g w) s)) k o [] := by
  refine h.woke (ws := []) (ht.trans (readSync_zero hc hr)) ?_ (by simp)
  have e := (State.coheres_acquire (s2.modCtx k fun y => { y with frame := y.frame &&& ~~~4 }) (coreOf k)).ctx k
  exact (congrArg Ctx.win e).trans ((congrArg Ctx.win (State.ctx_modCtx_same s2 k _)).trans hw)

/-- And at another value. -/
theorem State.Waits.sync_parks {s s2 : State} {k x : Nat} {o : Outst} {g : Regs} {w : Wait} (h : s.Waits k o .sync g w)
    (ht : trySync (o.env k .sync g w) s = readSync (o.env k .sync g w) s) (hc : s.atomicChecks (coreOf k) (frJoin (s.ctx k).snap) = none)
    (hr : s.acquireRead (s.who k) (frJoin (s.ctx k).snap) true = .ok x s2) (hx : x ≠ 0) (hw : (s2.ctx k).win = (s.ctx k).win) :
    ∃ w' : Wait, w'.how = .parked ∧ (resolve k o (attemptOf .sync (o.env k .sync g w) s)).mem = s2.mem ∧
      ((resolve k o (attemptOf .sync (o.env k .sync g w) s)).ctx k).win.outst = [{ o with res := .pend .sync g w' }] := by
  obtain ⟨w', hread, hhow⟩ := readSync_parks (e := o.env k .sync g w) hc hr hx
  have ha : attemptOf .sync (o.env k .sync g w) s = .wait w' s2 := ht.trans hread
  rw [ha]
  exact ⟨w', hhow, resolve_wait s2 k o .sync g w w' (hw ▸ h.only) h.res (hw ▸ h.due)⟩

/-- The wake-up of a parked `SYNC` spends its watch. -/
theorem State.Waits.syncWakes {s : State} {k u at_ : Nat} {o : Outst} {g : Regs} {w : Wait} (h : s.Waits k o .sync g w)
    (ha : w.aux = syncWatch u at_) :
    (s.modCtx k Ctx.syncWakes).Waits k { o with res := .pend .sync g { w with aux := syncWoken } } .sync g { w with aux := syncWoken } := by
  have ho : o.watch.isSome = true := by
    obtain ⟨how, t, aux, stops⟩ := w
    subst ha
    simp only [Outst.watch, h.res, syncWatch]
    rfl
  refine ⟨?_, rfl, ?_, ?_⟩
  · simp only [State.ctx_modCtx_same, Ctx.syncWakes, h.only, List.map_cons, List.map_nil, h.res, ho, if_true]
  · simpa [Ctx.syncWakes] using h.due
  · simpa [Ctx.syncWakes] using h.calm

theorem syncReads : Parts.SyncReads := by
  unfold Parts.SyncReads
  intro s k o g w _ h _ core c hh hp hf hc reads
  refine ⟨fun u at_ ha x s2 hr hw => ?_, fun t ha hd hreach x s2 hr hw => ?_⟩
  · have h1 := h.syncWakes ha
    have hctx : (s.modCtx k Ctx.syncWakes).ctx k = (s.ctx k).syncWakes := s.ctx_modCtx_same k _
    have ht := trySync_woken (k := k) (s := s.modCtx k Ctx.syncWakes)
      (e := Outst.env { o with res := .pend .sync g { w with aux := syncWoken } } k .sync g { w with aux := syncWoken }) rfl rfl rfl hh
      (by rw [hctx]; exact hp) (by rw [hctx]; exact hf)
    have hsnap : ((s.modCtx k Ctx.syncWakes).ctx k).snap = (s.ctx k).snap := by rw [hctx]; rfl
    have he : exec (.syncWake k) s = .next _ := (exec_syncWake k s).trans (congrArg Host.Outcome.next (h1.settleOf Instr.isSync rfl))
    refine ⟨fun hx => ?_, fun hx => ?_⟩
    · subst hx
      exact ⟨_, _, he, rfl, rfl, h1.sync_ends ht (hsnap ▸ hc) (hsnap ▸ hr) hw⟩
    · obtain ⟨w', hhow, hmem, hout⟩ := h1.sync_parks ht (hsnap ▸ hc) (hsnap ▸ hr) hx hw
      exact ⟨_, w', he, hhow, hmem, hout⟩
  · have h1 : (s.runTo (dieOf core) t).Waits k o .sync g w := h.of_ctx (s.runTo_ctx _ _ _)
    have ht := trySync_polls (s := s.runTo (dieOf core) t) (e := o.env k .sync g w) rfl ha (by rw [hd]; exact hreach)
    have hsnap : ((s.runTo (dieOf core) t).ctx k).snap = (s.ctx k).snap := by rw [State.runTo_ctx]
    have hc1 : (s.runTo (dieOf core) t).atomicChecks core c = none := (State.atomicChecks_of_core (s.runTo_core _ _) core c).trans hc
    have he : exec (.syncPoll k) s = .next _ := (exec_syncPoll k s).trans (congrArg Host.Outcome.next (h.timeout hd Instr.isSync rfl))
    refine ⟨fun hx => ?_, fun hx => ?_⟩
    · subst hx
      exact ⟨_, _, he, rfl, rfl, h1.sync_ends ht (hsnap ▸ hc1) (hsnap ▸ hr) hw⟩
    · obtain ⟨w', hhow, hmem, hout⟩ := h1.sync_parks ht (hsnap ▸ hc1) (hsnap ▸ hr) hx hw
      exact ⟨_, w', he, hhow, hmem, hout⟩

/-! ### Waits whose time passes (R218, R349, R505) -/

/-- An instruction that has waited keeps its deadline. -/
theorem Outst.until_env (o : Outst) (k : Nat) (i : Instr) (g : Regs) {w : Wait} {t : Nat} (hd : w.deadline = some t) (s : State) (x : Word) :
    (o.env k i g w).until s x = some t := by
  simp only [Env.until, Outst.env, Option.bind_some, hd]

theorem tryMbxw_timeout {e : Env} {s : State} {d a b : Reg} (hn : e.n a < 64) (hh : bit (s.ctx e.k).hold (e.n a) = true)
    (ho : s.oldest e.core (e.n a) = none) (ht : s.passed e.die (e.until s (e.s b)) = true) : tryMbxw d a b e s = .done [.s d 0] s := by
  have hc : (decide (64 ≤ e.n a) || !bit (s.ctx e.k).hold (e.n a)) = false := by simp [hh, hn]
  simp only [tryMbxw, hc, ho, ht, Bool.false_eq_true, if_false, if_true]

theorem tryCtrw_timeout {e : Env} {s : State} {d a : Reg} {n : Nat} (hx : (s.counter e.core n).done = false)
    (ht : s.passed e.die (e.until s (e.s a)) = true) : tryCtrw d a n e s = .done [.s d (BitVec.ofNat 64 (s.counter e.core n).word)] s := by
  simp only [tryCtrw, hx, ht, Bool.false_eq_true, if_false, if_true]

theorem tryWfi_timeout {e : Env} {s : State} (ht : s.passed e.die (e.until s 64000) = true) : tryWfi e s = .done [] s := by
  simp only [tryWfi, ht, Bool.or_true, if_true]

/-! ### Waits for a stale halo (R453, R457) -/

/-- An operation that waits for a halo finishes under the descriptor it has found. -/
theorem withGrid_waits {e : Env} {h n : Nat} {s : State} {g : Grid} (hw : e.haloWaits = true) (hg : s.gridOf (s.slotOf e.core) h = some (n, g))
    (go : Nat → Grid → State → Att) : withGrid e h s go = go n g s := by
  simp only [withGrid, hg, hw, Bool.not_true, Bool.and_false, Bool.false_eq_true, if_false]

/-- An event of an open part is performed at its block. -/
theorem onPart_open {e : Env} {n p pa : Nat} {g : Grid} {write : Bool} {s : State} (h : s.PartOpen e.k n g p write pa) (f : Nat → State → Att) :
    onPart e n g p write s f = f pa s := by
  obtain ⟨hfault, hstop, hpa⟩ := h
  simp only [onPart, hfault, hstop, hpa]

/-- The context may work on a part of its die. -/
theorem State.Owns.mine {s : State} {e : Env} {g : Grid} {w : Nat} (h : s.Owns e.k g w) : s.notMine g e (wordPart w) false = false := by
  obtain ⟨_, hpkg, hdie⟩ := h
  simp [State.notMine, hpkg, hdie, Env.die]

theorem tryGwait_timeout {e : Env} {s : State} {d a b : Reg} {n pa : Nat} {g : Grid} (hw : e.haloWaits = true)
    (hg : s.gridOf (s.slotOf e.core) (e.n a) = some (n, g)) (ho : s.Owns e.k g (e.n b)) (hp : s.PartOpen e.k n g (wordPart (e.n b)) false pa)
    (hs : ∃ q ∈ segmentsOf g.desc (wordPart (e.n b)),
      (((s.partAt g.desc pa).seg q).slot (e.n b % 2 ^ 32 % gdDepth g.desc)).stamp ≠ some (e.n b % 2 ^ 32))
    (hl : ∀ q ∈ segmentsOf g.desc (wordPart (e.n b)), ∀ u, ((s.partAt g.desc pa).seg q).latest = some u → newer u (e.n b % 2 ^ 32) = false)
    (ht : s.passed e.die (e.until s (BitVec.ofNat 64 g.timeout)) = true) :
    tryGwait d a b e s = .done [.s d 0] (s.latency e.die 4 (wordPart (e.n b))) := by
  have hall : (((segmentsOf g.desc (wordPart (e.n b))).map (s.partAt g.desc pa).seg).map fun z => z.slot (e.n b % 2 ^ 32 % gdDepth g.desc)).all
      (fun h => h.stamp == some (e.n b % 2 ^ 32)) = false := by
    obtain ⟨q, hq, hne⟩ := hs
    rw [List.all_eq_false]
    exact ⟨_, List.mem_map.mpr ⟨_, List.mem_map.mpr ⟨q, hq, rfl⟩, rfl⟩, by simpa using hne⟩
  have hlate : (((segmentsOf g.desc (wordPart (e.n b))).map (s.partAt g.desc pa).seg).any fun z =>
      (z.latest.map fun l => newer l (e.n b % 2 ^ 32)).getD false && (z.slot (e.n b % 2 ^ 32 % gdDepth g.desc)).stamp != some (e.n b % 2 ^ 32)) = false := by
    rw [List.any_eq_false]
    intro z hz
    obtain ⟨q, hq, rfl⟩ := List.mem_map.mp hz
    cases hu : ((s.partAt g.desc pa).seg q).latest with
    | none => simp
    | some u =>
      have := hl q hq u hu
      simp only [Option.map_some, Option.getD_some, this, Bool.false_and]
      simp
  have hbad := ho.1
  simp only [tryGwait, withGrid_waits hw hg, hbad, ho.mine, Bool.false_eq_true, if_false, onPart_open hp, hall, hlate, ht, Bool.or_true, if_true,
    waited, hw]

theorem tryLdg_timeout {e : Env} {s : State} {d a b : Reg} {n pa q j : Nat} {g : Grid} (hw : e.haloWaits = true)
    (hg : s.gridOf (s.slotOf e.core) (e.n a) = some (n, g)) (heven : b.toNat % 2 = 0) (hb : b ≠ 0)
    (hx : e.n b / 2 ^ (21 * gdRank g.desc) = 0) (ho : s.Owns e.k g (e.n (b + 1)))
    (hp : s.PartOpen e.k n g (wordPart (e.n (b + 1))) false pa)
    (hcell : cellAt g.desc (wordPart (e.n (b + 1))) (wordCoord (gdRank g.desc) (e.n b)) = .ghost q j)
    (hs : (((s.partAt g.desc pa).seg q).slot (e.n (b + 1) % 2 ^ 32 % gdDepth g.desc)).stamp ≠ some (e.n (b + 1) % 2 ^ 32))
    (hl : ∀ u, ((s.partAt g.desc pa).seg q).latest = some u → newer u (e.n (b + 1) % 2 ^ 32) = false)
    (ht : s.passed e.die (e.until s (BitVec.ofNat 64 g.timeout)) = true) : tryLdg d a b e s = .trap true 0x07 (e.n (b + 1)) s := by
  have hb' : b.toNat ≠ 0 := fun h => hb (BitVec.eq_of_toNat_eq h)
  have hop : gridOperand e b g s = .ok (wordPart (e.n (b + 1)), e.n (b + 1) % 2 ^ 32, .ghost q j) := by
    have hbad := ho.1
    have hzero : (0 != 0) = false := rfl
    simp only [gridOperand, heven, hb', hx, hbad, ho.mine, hcell, hzero, Nat.zero_ne_one, decide_false, Bool.or_self, if_false, Bool.false_eq_true]
  have hlate : (((s.partAt g.desc pa).seg q).latest.map fun l => newer l (e.n (b + 1) % 2 ^ 32)).getD false = false := by
    cases hu : ((s.partAt g.desc pa).seg q).latest with
    | none => rfl
    | some u => exact hl u hu
  simp only [tryLdg, withGrid_waits hw hg, hop, onPart_open hp, if_neg hs, hlate, ht, Bool.or_true, if_true, Bool.false_eq_true, if_false]
  simp

theorem timesOfWaits : Parts.TimesOfWaits := by
  unfold Parts.TimesOfWaits
  intro s k o i z w t l d a b _ h hd s1 c
  refine ⟨fun hpow hoff hle hlt hdie => s.runTo_tclk _ t hdie hpow hoff hle hlt, fun hreach => ?_⟩
  have h1 : s1.Waits k o i z w := h.of_ctx (s.runTo_ctx _ _ _)
  have hctx : s1.ctx k = s.ctx k := s.runTo_ctx _ _ _
  have hcore : s1.core (coreOf k) = s.core (coreOf k) := s.runTo_core _ _ _
  have hpass : ∀ x, s1.passed (dieOf (coreOf k)) ((o.env k i z w).until s1 x) = true := fun x => by
    rw [o.until_env k i z hd]; exact hreach
  have hends : ∀ p : Instr → Bool, p i = true → (Host.Outcome.next (s.timeout k p) : Host.Outcome State Fault Refusal) =
      .next (resolve k o (attemptOf i (o.env k i z w) s1)) := fun p hp => congrArg Host.Outcome.next (h.timeout hd p hp)
  refine ⟨fun hi hn hh ho => ?_, fun n hi hx => ?_, fun hi _ => ?_, fun n gr pa hg haux => ?_⟩
  · subst hi
    have hoff := tryMbxw_timeout (e := o.env k (.mbxw d a b) z w) (d := d) hn ((congrArg (fun c => bit c.hold _) hctx).trans hh)
      ((congrArg (fun x : Core => x.recv.find? _) hcore).trans ho) (hpass (z.rs b))
    exact ⟨_, (exec_mbxwTimeout k s).trans (hends Instr.isMbxw rfl), h1.woke hoff rfl (by simp [Wr.isTile])⟩
  · subst hi
    have hsame : s1.counter (coreOf k) n.toNat = s.counter (coreOf k) n.toNat := congrArg (fun x : Core => Tab.get Counter.reset x.counters _) hcore
    have hoff := tryCtrw_timeout (e := o.env k (.ctrw l d a n) z w) (s := s1) (d := d) (n := n.toNat) ((congrArg Counter.done hsame).trans hx) (hpass (z.rs a))
    rw [← hsame]
    exact ⟨_, (exec_ctrwTimeout k s).trans (hends Instr.isCtrw rfl), h1.woke hoff rfl (by simp [Wr.isTile])⟩
  · subst hi
    exact ⟨_, (exec_wfiTimeout k s).trans (hends Instr.isWfi rfl), h1.woke (tryWfi_timeout (hpass _)) rfl (by simp)⟩
  · have hhalo : (o.env k i z w).haloWaits = true := by simp [Env.haloWaits, Outst.env, haux]
    refine ⟨fun hi ho hp hs hl => ?_, fun q j hi heven hb hx ho hp hcell hs hl hen => ?_⟩
    · subst hi
      obtain ⟨_, hmem, hne⟩ := hs
      obtain ⟨q, hq, rfl⟩ := List.mem_map.mp hmem
      have hoff := tryGwait_timeout (d := d) (a := a) (b := b) hhalo hg ho hp ⟨q, hq, hne⟩ (fun q hq => hl _ (List.mem_map.mpr ⟨q, hq, rfl⟩)) (hpass _)
      exact ⟨_, (exec_gwaitTimeout k s).trans (hends Instr.isGwait rfl), h1.woke hoff (congrArg Ctx.win (s1.latency_ctx _ _ _ k)) (by simp [Wr.isTile])⟩
    · subst hi
      have hoff := tryLdg_timeout (d := d) (a := a) (b := b) hhalo hg heven hb hx ho hp hcell hs hl (hpass _)
      refine ⟨_, (exec_gridLoadTimeout k s).trans (hends Instr.isLdg rfl), ?_⟩
      have htrap := trapTaken_resolve_trap s1 k o true 0x07 (z.rs (b + 1)).toNat h1.only h1.due (by decide) (hctx ▸ hen)
      rw [BitVec.ofNat_toNat, BitVec.setWidth_eq] at htrap
      exact (congrArg (resolve k o) hoff).symm ▸ htrap

/-! ### Page faults and their replies (R293, R296, R498) -/

/-- A message of the hardware to a core is in the network. -/
theorem State.send_hwMsg (s : State) {dst : Nat} (h : dst < 2 ^ 62) (cls nc len payload slot pts : Nat) :
    s.send (hwMsg dst cls nc len payload slot pts) =
      ({ s with net := s.net ++ [{ hwMsg dst cls nc len payload slot pts with born := s.pkg.born }], pkg := { s.pkg with born := s.pkg.born + 1 } } : State).post
        (.messageArrival (dstCore dst)) := by
  have hk : dstKind dst = 0 := by unfold dstKind bits; omega
  simp only [State.send, hwMsg, hk]

/-- The pager of a core of the package is a core. -/
theorem State.pager_lt (s : State) {k : Nat} (h : k < contextCount) : s.pager (coreOf k) < 2 ^ 62 := by
  unfold contextCount at h
  unfold State.pager coreOf
  omega

theorem Acc.code_accOf (x : AccessKind) : (accOf x).code = match x with
    | .load | .fill => 0
    | .store => 1
    | .atomic => 2 := by
  cases x <;> rfl

/-- The pager of a core is sent the message of a page fault, and nothing else of the state changes that a context sees. -/
theorem State.postFault_sent (s : State) {k : Nat} (hk : k < contextCount) (payload pts : Nat) :
    ∃ m : Msg, (s.postFault (coreOf k) payload pts).answers = s.answers ∧ (s.postFault (coreOf k) payload pts).mem = s.mem ∧
      (s.postFault (coreOf k) payload pts).ctx k = s.ctx k ∧ (s.postFault (coreOf k) payload pts).net = s.net ++ [m] ∧
      m.dst = s.pager (coreOf k) ∧ m.cls = 2 ∧ m.nc = 4 ∧ m.len = 48 ∧ m.payload = payload := by
  rw [State.postFault, State.send_hwMsg _ (s.pager_lt hk)]
  exact ⟨_, rfl, rfl, rfl, rfl, rfl, rfl, rfl, rfl, rfl⟩

/-- A page fault of a context that none waits for: its word is in MBX, and its message is sent to the pager. -/
theorem State.pageFault_sent (s : State) {k : Nat} (hk : k < contextCount) (a : Acc) (va cause level pte : Nat) (hm : bit (s.ctx k).mbx.toNat 63 = false) :
    ∃ m : Msg, (s.pageFault k a va cause level pte).answers = s.answers ∧ (s.pageFault k a va cause level pte).mem = s.mem ∧
      ((s.pageFault k a va cause level pte).ctx k).mbx = BitVec.ofNat 64 (2 ^ 63 + a.code * 2 ^ 60 + va % 2 ^ 56) ∧
      (s.pageFault k a va cause level pte).net = s.net ++ [m] ∧ m.dst = s.pager (coreOf k) ∧ m.cls = 2 ∧ m.nc = 4 ∧ m.len = 48 ∧
      m.payload = faultPayload va (s.ctx k).asid a.code cause level (!(s.ctx k).sup) (s.threadWord k) (s.core (coreOf k)).faultCount pte 0 := by
  let s1 : State := (s.modCore (coreOf k) fun x => { x with faultCount := (x.faultCount + 1) % 2 ^ 32 }).setCtx k { s.ctx k with
    mbx := BitVec.ofNat 64 (2 ^ 63 + a.code * 2 ^ 60 + va % 2 ^ 56), faultNo := (s.core (coreOf k)).faultCount }
  have hpost : s.pageFault k a va cause level pte = s1.postFault (coreOf k) (faultPayload va (s.ctx k).asid a.code cause level (!(s.ctx k).sup)
      (s1.threadWord k) (s.core (coreOf k)).faultCount pte 0) (s.ctx k).ltime := by
    unfold State.pageFault
    exact if_neg (by simp [hm])
  have hctx : s1.ctx k = { s.ctx k with mbx := BitVec.ofNat 64 (2 ^ 63 + a.code * 2 ^ 60 + va % 2 ^ 56), faultNo := (s.core (coreOf k)).faultCount } :=
    State.ctx_setCtx_same _ _ _
  have hthread : s1.threadWord k = s.threadWord k := by simp only [State.threadWord, hctx]
  have hpager : s1.pager (coreOf k) = s.pager (coreOf k) := by
    have hcore := State.core_modCore_same s (coreOf k) fun x => { x with faultCount := (x.faultCount + 1) % 2 ^ 32 }
    have : (s1.core (coreOf k)).pagermap = (s.core (coreOf k)).pagermap := (congrArg Core.pagermap hcore :)
    simp only [State.pager, this]
  rw [hpost, hthread]
  obtain ⟨m, hans, hmem, hkeep, hnet, hdst, hrest⟩ := s1.postFault_sent hk (faultPayload va (s.ctx k).asid a.code cause level (!(s.ctx k).sup)
    (s.threadWord k) (s.core (coreOf k)).faultCount pte 0) (s.ctx k).ltime
  exact ⟨m, hans, hmem, by rw [hkeep, hctx], hnet, hdst.trans hpager, hrest⟩

/-- The reply to a context's page fault, where the context still waits for it. -/
theorem State.reply_awaited {s : State} {k code : Nat} {r : Reply} {rest : List Reply} (h : takeReply k code s.replies = some (r, rest))
    (ha : (s.ctx k).awaits r = true) (act : State → State) : s.reply k code act =
      act ((({ s with replies := rest } : State).latency (dieOf (coreOf k)) 3 (s.pager (coreOf k))).modCtx k fun x =>
        { x with mbx := x.mbx &&& ~~~(0x8000000000000000 : Word) }) := by
  have ha' : ((({ s with replies := rest } : State).latency (dieOf (coreOf k)) 3 (s.pager (coreOf k))).ctx k).awaits r = true := by
    rw [State.latency_ctx]; exact ha
  simp only [State.reply, h]
  exact if_pos ha'

/-- A signalled access leaves nothing in the queues unless it is a queued tile command. -/
theorem State.unplace_eq (s : State) (k : Nat) {i : Instr} (w : Wait) (h : i.queues = false) : s.unplace k i w = s := by
  unfold State.unplace
  split
  · cases h
  · cases h
  · rfl

/-- `SIGNAL` to the blocked access of a context: it traps with 0x13. -/
theorem State.trapTaken_signal {s : State} {k : Nat} {o : Outst} {i : Instr} {g : Regs} {w : Wait} (ho : (s.ctx k).win.outst = [o]) (hr : o.res = .pend i g w)
    (hd : o.pos + o.la < (s.ctx k).win.seq) (hw : w.how = .blocked) (hq : i.queues = false) (he : (s.ctx k).Enabled) :
    s.TrapTaken (s.signal k) k 0x13 (BitVec.ofNat 64 (w.aux.headD 0)) o.pc := by
  have hs : s.signal k = (s.setCtx k { s.ctx k with win := { (s.ctx k).win with
      outst := [{ o with res := .trap 0x13 (BitVec.ofNat 64 (w.aux.headD 0)) }] } }).advance k := by
    simp only [State.signal, ho, List.find?_cons, hr, hw, beq_self_eq_true, State.unplace_eq _ _ _ hq, List.map_cons, List.map_nil, if_true]
  rw [hs]
  have hfault := State.advance_fault (s.setCtx k { s.ctx k with win := { (s.ctx k).win with
      outst := [{ o with res := .trap 0x13 (BitVec.ofNat 64 (w.aux.headD 0)) }] } }) k { o with res := .trap 0x13 (BitVec.ofNat 64 (w.aux.headD 0)) } 0x13
    (BitVec.ofNat 64 (w.aux.headD 0))
  refine State.TrapTaken.of_setCtx (hfault ?_ rfl ?_ (by decide) ?_) rfl rfl rfl
  all_goals rw [State.ctx_setCtx_same]
  · exact hd
  · exact he

theorem faultEvents : Parts.FaultEvents := by
  unfold Parts.FaultEvents
  intro s k hk c core
  refine ⟨fun o code val ho hr hd hc he => ⟨_, rfl, s.advance_fault k o code val ho hr hd hc he⟩,
    fun a rest cause level pte ht hf hu hs => ?_, ?_⟩
  · have hfree : ((s.ctx k).state == .free) = false := by simpa using hs
    have hno : ¬((s.ctx k).sup || (s.ctx k).state == .free) = true := by
      have hs' : (s.ctx k).state ≠ .free := hs
      have hu' : (s.ctx k).sup = false := hu
      simp [hs', hu']
    have hx : exec (.pageFaultAnswer k) s = .next (({ s with answers := rest } : State).pageFault k (accOf a.req.kind) a.req.va cause level pte) := by
      rw [exec_pageFaultAnswer, execPageFaultAnswer, ht]
      simp only [hf]
      exact if_neg hno
    refine ⟨fun hm => ?_, fun hm => ?_⟩
    · rw [hx]
      exact congrArg Host.Outcome.next (if_pos hm)
    · obtain ⟨m, hans, hmem, hmbx, hnet, hdst, hcls, hnc, hlen, hpay⟩ :=
        State.pageFault_sent { s with answers := rest } hk (accOf a.req.kind) a.req.va cause level pte hm
      rw [Acc.code_accOf] at hmbx hpay
      have hsup : (!(({ s with answers := rest } : State).ctx k).sup) = true := by
        rw [show (({ s with answers := rest } : State).ctx k).sup = false from hu]; rfl
      rw [hsup] at hpay
      exact ⟨_, m, hx, hans, hmem, hmbx, hnet, hdst, hcls, hnc, hlen, hpay⟩
  · intro code r rest ht ha s1
    have hrep := fun act => s.reply_awaited ht ha act
    refine ⟨fun hc => ?_, fun o i g w hc ho hr hd hw hq he => ?_, fun hc hn hs => ?_⟩
    · subst hc
      exact congrArg Host.Outcome.next (hrep _)
    · subst hc
      have hctx : s1.ctx k = { c with mbx := c.mbx &&& ~~~(0x8000000000000000 : Word) } := by
        rw [State.ctx_modCtx_same, State.latency_ctx]; rfl
      refine ⟨_, congrArg Host.Outcome.next (hrep _), ?_⟩
      exact State.trapTaken_signal (by rw [hctx]; exact ho) hr (by rw [hctx]; exact hd) hw hq (by rw [hctx]; exact he)
    · subst hc
      refine ⟨_, congrArg Host.Outcome.next (hrep _), ?_⟩
      have hslot : s1.slotOf core = s.slotOf core := by
        have : s1.core core = s.core core := State.latency_core { s with replies := rest } _ _ _ core
        simp only [State.slotOf, this]
      have hlaunch : s1.launch (s.slotOf core) = s.launch (s.slotOf core) := 
        State.latency_launch { s with replies := rest } _ _ _ _
      rw [← hslot]
      exact s1.launchOver_finishLaunch _ 1 (by rw [hslot, hlaunch]; exact hs)

/-! ### Faults that units hold (R361 to R363, R504) -/

/-- The fields of a unit fault's handle. -/
theorem unitHandle_fields {d u no : Nat} (hd : d < 8) (hu : u < 64) (hn : no < 2 ^ 32) :
    bits (2 ^ 63 + d * 2 ^ 41 + u * 2 ^ 35 + no) 43 41 = d ∧ bits (2 ^ 63 + d * 2 ^ 41 + u * 2 ^ 35 + no) 40 35 = u ∧
      (2 ^ 63 + d * 2 ^ 41 + u * 2 ^ 35 + no) % 2 ^ 32 = no := by
  unfold bits
  refine ⟨?_, ?_, ?_⟩ <;> omega

/-- The reply to a fault that waits goes to the unit of its handle. -/
theorem exec_unitFaultReply_waiting {s : State} {d u no : Nat} {f : UnitFault} (hd : d < 8) (hu : u < 64) (hn : no < 2 ^ 32)
    (hf : (s.die d).faults.find (u * 2 ^ 32 + no) = some f) (hw : f.reply = .waiting) (code : Nat) :
    exec (.unitFaultReply (2 ^ 63 + d * 2 ^ 41 + u * 2 ^ 35 + no) code) s = .next (s.unitReply d u (u * 2 ^ 32 + no) code f) := by
  obtain ⟨h1, h2, h3⟩ := unitHandle_fields hd hu hn
  rw [exec_unitFaultReply, execUnitFaultReply, h1, h2, h3]
  simp only [hf, hw, if_true]

/-- A request that leaves an inbox leaves the others there, the acknowledgements, and the faults of the die. -/
theorem State.dropReq_rest (s : State) (d u i : Nat) : (s.dropReq d u i).inboxOf d u = (s.inboxOf d u).eraseIdx i ∧
    ((s.dropReq d u i).die d).faults = (s.die d).faults ∧ (s.dropReq d u i).acks = s.acks := by
  unfold State.dropReq
  extract_lets l s1
  have h1 : s1.inboxOf d u = l ∧ (s1.die d).faults = (s.die d).faults ∧ s1.acks = s.acks := by
    refine ⟨?_, ?_, rfl⟩
    · simp [s1, State.inboxOf, State.setInbox]
    · simp [s1, State.setInbox]
  split
  · exact h1
  · exact h1

/-- `SIGNAL` for a request that an inbox holds: the request leaves, acknowledged with error 0x13. -/
theorem State.signalReq_acked {s : State} {d u key j : Nat} {r : Req} (h : heldBy key 0 (s.inboxOf d u) = some (j, r)) :
    (s.signalReq d u key).inboxOf d u = (s.inboxOf d u).eraseIdx j ∧ ((s.signalReq d u key).die d).faults = (s.die d).faults ∧
      ∃ a : Ack, (s.signalReq d u key).acks = s.acks ++ [a] ∧ a.core = r.core ∧ a.xfer = r.xfer ∧ a.bytes = 0 ∧ a.last = true ∧ a.error = some 0x13 := by
  obtain ⟨hleft, hfaults, hacks⟩ := s.dropReq_rest d u j
  simp only [State.signalReq, h]
  exact ⟨hleft, hfaults, _, congrArg (· ++ [_]) hacks, rfl, rfl, rfl, rfl, rfl⟩

theorem unitFaultReplies : Parts.UnitFaultReplies := by
  unfold Parts.UnitFaultReplies
  intro s d u no code f hd hu hn handle key hf hw
  have hx := exec_unitFaultReply_waiting hd hu hn hf hw code
  let gone := s.modDie d fun x => { x with faults := x.faults.del key }
  refine ⟨fun hc hp => ?_, fun j r hc hp hj => ?_, fun hc hs => ?_⟩
  · subst hc
    rw [hx, State.unitReply, hp]
    rfl
  · subst hc
    have hr : s.unitReply d u key 1 f = gone.signalReq d u key := by rw [State.unitReply, hp]; rfl
    have hin : gone.inboxOf d u = s.inboxOf d u := by simp [gone, State.inboxOf]
    rw [← hin] at hj
    obtain ⟨hleft, hfaults, a, ha, hans⟩ := State.signalReq_acked hj
    refine ⟨_, a, hx.trans (congrArg Host.Outcome.next hr), hleft.trans (by rw [hin]), ?_, ha, hans⟩
    rw [hfaults, State.die_modDie_same]
    exact Tab.find_del_same _ _
  · subst hc
    have hr : s.unitReply d u key 2 f = gone.finishLaunch f.slot 1 := by rw [State.unitReply]; rfl
    exact ⟨_, hx.trans (congrArg Host.Outcome.next hr), gone.launchOver_finishLaunch f.slot 1 hs⟩

/-! ### What a read of a line at its slice sees (R289 to R293, R298) -/

/-- A monitor sample changes nothing of a die but its monitors. -/
theorem State.latency_die (s : State) (d n a e : Nat) : (s.latency d n a).die e = { s.die e with monitors := ((s.latency d n a).die e).monitors } := by
  unfold State.latency
  split
  · by_cases h : e = d
    · subst h; rw [State.die_modDie_same]; rfl
    · rw [State.die_modDie_ne _ _ _ _ h]; rfl
  · rfl

/-- What of a state the lines of the L1s and the slices of a die are read from. -/
structure State.SameLines (s t : State) (d : Nat) : Prop where
  core : ∀ c, t.core c = s.core c
  ctx : ∀ k, t.ctx k = s.ctx k
  held : (t.die d).held = (s.die d).held
  mem : t.mem = s.mem
  pkg : t.pkg = s.pkg

section SameLines

variable {s t : State} {d : Nat}

theorem State.SameLines.trans {u : State} (h : s.SameLines t d) (h' : t.SameLines u d) : s.SameLines u d :=
  ⟨fun c => (h'.core c).trans (h.core c), fun k => (h'.ctx k).trans (h.ctx k), h'.held.trans h.held, h'.mem.trans h.mem, h'.pkg.trans h.pkg⟩

theorem State.SameLines.snooped {c : Nat} (h : s.SameLines t (dieOf c)) (l line : Nat) : t.snooped c l line = s.snooped c l line := by
  simp only [State.snooped, h.held, h.core]

theorem State.sameLines_latency (s : State) (e n a d : Nat) : s.SameLines (s.latency e n a) d :=
  ⟨s.latency_core e n a, s.latency_ctx e n a, by rw [State.latency_die], s.latency_mem e n a, by rw [State.latency_rest]⟩

theorem State.sameLines_modDie (s : State) (e d : Nat) {f : Die → Die} (hr : ∀ x, (f x).roots = x.roots) (hf : ∀ x, (f x).held = x.held) :
    s.SameLines (s.modDie e f) d := by
  refine ⟨(State.SameRoots.modDie s e hr).core rfl, (State.SameRoots.modDie s e hr).ctx rfl, ?_, rfl, rfl⟩
  by_cases h : d = e
  · subst h; rw [State.die_modDie_same, hf]
  · rw [State.die_modDie_ne _ _ _ _ h]

theorem State.sameLines_stamps (s : State) (x : Tab (Nat × Nat)) (d : Nat) : s.SameLines { s with stamps := x } d := ⟨fun _ => rfl, fun _ => rfl, rfl, rfl, rfl⟩

theorem State.sameLines_raiseHome (s : State) (e p d : Nat) : s.SameLines (s.raiseHome e p) d := s.sameLines_modDie e d (fun _ => rfl) fun _ => rfl

theorem State.sameLines_stampRead (s : State) (l p d : Nat) : s.SameLines (s.stampRead l p).1 d := by
  unfold State.stampRead
  exact .trans (s.sameLines_stamps _ d) (State.sameLines_raiseHome _ _ _ d)

theorem State.sameLines_renew (s : State) (e l p d : Nat) : s.SameLines (s.renew e l p).1 d := by
  unfold State.renew
  rcases s.lineStamps l with ⟨w, r⟩
  dsimp only
  refine .trans ?_ (State.sameLines_modDie _ e d (fun _ => rfl) fun _ => rfl)
  exact .trans (s.sameLines_stamps _ d) (State.sameLines_raiseHome _ _ _ d)

theorem State.sameLines_sliceRead (s : State) (e l p : Nat) (b : Bool) (d : Nat) : s.SameLines (s.sliceRead e l p b).2.1 d := by
  have hs : s.SameLines s d := ⟨fun _ => rfl, fun _ => rfl, rfl, rfl, rfl⟩
  unfold State.sliceRead
  dsimp only
  split
  · exact hs
  · split
    · exact s.sameLines_stampRead l p d
    · split
      · exact hs
      · split
        · split
          · exact hs
          · exact s.sameLines_renew e l p d
        · exact s.sameLines_renew e l p d

theorem State.sameLines_served (s : State) (e asid va pa pte : Nat) (home : Bool) (d : Nat) : s.SameLines (s.served e asid va pa pte home) d := by
  unfold State.served
  dsimp only
  split
  · exact (s.sameLines_latency _ _ _ d).trans (State.sameLines_latency _ _ _ _ d)
  · exact s.sameLines_latency _ _ _ d

end SameLines

/-- A line of the package as the slice of a die reads it for a pts: at its home, of the copy that the die owns, or of a guest copy whose lease stands. -/
def State.sliceLine (s : State) (d l p : Nat) : Nat :=
  if homeDie (l * 64) = d then s.homeLine l
  else match (s.die d).owned.find l, (s.die d).guest.find l with
    | some o, _ => o.data
    | none, some g => if serialGe 24 g.rts p then g.data else s.homeLine l
    | none, none => s.homeLine l

theorem State.sliceRead_line (s : State) (d l p : Nat) (h : s.local_ (l * 64) = true) : (s.sliceRead d l p false).1 = s.sliceLine d l p := by
  unfold State.sliceRead State.sliceLine
  simp only [h, Bool.not_true, Bool.false_eq_true, if_false, Bool.or_false, decide_eq_true_eq]
  by_cases hd : homeDie (l * 64) = d
  · rw [if_pos hd, if_pos hd]
  · rw [if_neg hd, if_neg hd]
    cases (s.die d).owned.find l with
    | some o => rfl
    | none =>
      cases (s.die d).guest.find l with
      | none => rfl
      | some g => by_cases hg : serialGe 24 g.rts p = true <;> simp [hg]

/-- Monitor samples of an access leave what its slice reads. -/
theorem State.sliceLine_latency (s : State) (e n a d l p : Nat) : (s.latency e n a).sliceLine d l p = s.sliceLine d l p := by
  rw [State.sliceLine, State.latency_die]
  simp only [State.sliceLine, State.homeLine, State.latency_mem]

theorem State.sliceLine_served (s : State) (e asid va pa pte : Nat) (home : Bool) (d l p : Nat) :
    (s.served e asid va pa pte home).sliceLine d l p = s.sliceLine d l p := by
  unfold State.served
  dsimp only
  split
  · rw [State.sliceLine_latency, State.sliceLine_latency]
  · exact s.sliceLine_latency _ _ _ d l p

/-- The line of an address has its home and its package. -/
theorem homeDie_line (pa : Nat) : homeDie (pa / 64 * 64) = homeDie pa := by unfold homeDie bits; omega

theorem State.local_line (s : State) (pa : Nat) : s.local_ (pa / 64 * 64) = s.local_ pa := by
  have h1 : pa / 64 * 64 / 2 ^ 51 = pa / 2 ^ 51 := by omega
  have h2 : pa / 64 * 64 / 2 ^ 39 = pa / 2 ^ 39 := by omega
  simp only [State.local_, bit, bits, h1, h2]

/-- What a load of a line that the core's L1 does not hold would see. -/
theorem State.lineSeen_of_absent (s : State) (w : Who) {pa pte : Nat} (hl : s.local_ pa = true) (hu : unleased pte = false)
    (hn : (s.core w.core).l1.find (pa / 64) = none) :
    s.lineSeen w true pa pte = s.snooped w.core (pa / 64) (s.sliceLine (dieOf w.core) (pa / 64) (s.ctx w.k).ltime) := by
  simp only [State.lineSeen, hn, hl, hu, Option.filter_none, ite_self, Bool.not_true, Bool.false_eq_true, if_false, or_false, State.sliceLine, homeDie_line]
  by_cases hd : homeDie pa = dieOf w.core
  · rw [if_pos hd, if_pos hd]
  · rw [if_neg hd, if_neg hd]
    cases (s.die (dieOf w.core)).owned.find (pa / 64) with
    | some o => rfl
    | none =>
      cases (s.die (dieOf w.core)).guest.find (pa / 64) with
      | none => rfl
      | some g => by_cases hg : serialGe 24 g.rts (s.ctx w.k).ltime = true <;> simp [Option.filter, hg]

/-! ### Walks, accesses at slices, and misses (R287, R289, R290, R293) -/

/-- A line that is put into the L1 of a core is there, with as many lines beside it as it has room for. -/
theorem State.fillL1_find (s : State) (c l : Nat) (x : L1Line) (h : s.l1Lines c ≠ 0) :
    ((s.fillL1 c l x).core c).l1.find l = some x ∧ ((s.fillL1 c l x).core c).l1.length ≤ s.l1Lines c := by
  unfold State.fillL1
  extract_lets n out
  rw [State.core_modCore_same]
  refine ⟨?_, List.length_take_le _ _⟩
  obtain ⟨m, hm⟩ := Nat.exists_eq_succ_of_ne_zero h
  simp only [n, hm, Tab.put, Nat.succ_eq_add_one, List.take_succ_cons, Tab.find, List.find?_cons, beq_self_eq_true, Option.map_some]

/-- The line that a miss brings into the L1 of its core, as its slice reads it. -/
theorem State.fill_l1 (s : State) (w : Who) {va pa pte : Nat} (hl : s.local_ pa = true) (hu : unleased pte = false)
    (hn : (s.core w.core).l1.find (pa / 64) = none) (hs : s.l1Lines w.core ≠ 0) : ∃ x : L1Line,
      ((s.fill w va pa pte true false).core w.core).l1.find (pa / 64) = some x ∧ x.fetched = false ∧ x.dirty = 0 ∧ x.data = s.lineSeen w true pa pte ∧
      ((s.fill w va pa pte true false).core w.core).l1.length ≤ s.l1Lines w.core := by
  have hgo : ¬(!s.local_ pa || (true && ((s.core w.core).l1.find (pa / 64)).isSome)) = true := by simp [hl, hn]
  let d := dieOf w.core
  let s1 := s.served d w.asid va pa pte (s.readsHome d (pa / 64) (s.ctx w.k).ltime)
  let s2 := (s1.sliceRead d (pa / 64) (s1.ctx w.k).ltime false).2.1
  have h1 : s.SameLines s1 d := s.sameLines_served _ _ _ _ _ _ d
  have h2 : s.SameLines s2 d := h1.trans (s1.sameLines_sliceRead _ _ _ _ d)
  have hline : (s1.sliceRead d (pa / 64) (s1.ctx w.k).ltime false).1 = s.sliceLine d (pa / 64) (s.ctx w.k).ltime := by
    have hloc : s1.local_ (pa / 64 * 64) = true := by
      rw [State.local_line]; simpa only [State.local_, h1.pkg] using hl
    rw [State.sliceRead_line _ _ _ _ hloc, State.sliceLine_served, h1.ctx]
  have hfill : ∃ x : L1Line, s.fill w va pa pte true false = s2.fillL1 w.core (pa / 64) x ∧ x.fetched = false ∧ x.dirty = 0 ∧
      x.data = s2.snooped w.core (pa / 64) (s1.sliceRead d (pa / 64) (s1.ctx w.k).ltime false).1 := by
    unfold State.fill
    exact ⟨_, if_neg hgo, rfl, rfl, rfl⟩
  obtain ⟨x, hfill, hfetched, hdirty, hdata⟩ := hfill
  have hroom : s2.l1Lines w.core = s.l1Lines w.core := by simp only [State.l1Lines, h2.core]
  obtain ⟨hfind, hlen⟩ := s2.fillL1_find w.core (pa / 64) x (hroom ▸ hs)
  rw [hfill]
  refine ⟨x, hfind, hfetched, hdirty, ?_, hroom ▸ hlen⟩
  rw [hdata, h2.snooped, hline, s.lineSeen_of_absent w hl hu hn]

/-- An address whose line may be brought in has a leaf that a lease covers. -/
theorem State.unleased_of_prefetchable {s : State} {w : Who} {va pa pte : Nat} (h : s.prefetchable w va = some (pa, pte)) : unleased pte = false := by
  unfold State.prefetchable at h
  split at h
  · cases h
  · split at h
    · split at h
      · cases h
      · rename_i hno
        cases h
        simp only [Bool.or_eq_true, not_or, bne_iff_ne, ne_eq, Decidable.not_not] at hno
        simp [unleased, hno]
    · cases h

theorem walksAndAccesses : Parts.WalksAndAccesses := by
  unfold Parts.WalksAndAccesses
  intro s
  refine ⟨fun die asid va pte at_ level hp hlost ht hwalk => ?_, fun r ht hp hlost => ?_⟩
  · have hw : s.working die = true := by simp [State.working, hp, hlost]
    have hany : (s.die die).tlb.any (fun t => t.serves asid va) = false := by simpa using ht
    simp only [exec_pageWalk, execPageWalk, hw, hany, hwalk, Bool.not_true, Bool.or_self, Bool.false_eq_true, if_false]
  · have hgo : ¬(winTag r.va ≠ 0 || !s.working (dieOf (s.who r.k).core)) = true := by simp [State.working, State.who, ht, hp, hlost]
    have hx : exec (.translatedAccess r) s = match r.kind with
      | .load => .next (s.answered r (s.plainRead (s.who r.k) .load r.va r.size))
      | .store => .next (s.answered r (s.plainStore (s.who r.k) r.va r.size (r.data % 2 ^ (8 * r.size))))
      | .atomic => .next (s.answered r (s.atomic (s.who r.k) .atomic r.va fun _ => some (r.data % 2 ^ 64)))
      | .fill => .next (s.missFill (s.who r.k) r.va) := if_neg hgo
    refine ⟨fun x t hk h => ?_, fun x t hk h => ?_, fun x t hk h => ?_, fun va cause level pte hk h => ?_,
      fun pa pte hk hl hc hpf hloc hn => ?_, fun e hk he hpf => ?_⟩
    · rw [hx, hk, h]; rfl
    · rw [hx, hk, h]; rfl
    · rw [hx, hk, h]; rfl
    · rw [hx, hk, h]; rfl
    · have hm : s.missFill (s.who r.k) r.va = s.fill (s.who r.k) r.va pa pte true false := by
        rw [State.missFill, show (s.core (s.who r.k).core).coming.find? (fun e => e.1 == r.va / 64) = none from hc]
        simp only [hpf]
        exact if_neg hl
      obtain ⟨x, hfind, hfetched, hdirty, hdata, hlen⟩ := s.fill_l1 (s.who r.k) (va := r.va) hloc (State.unleased_of_prefetchable hpf) hn hl
      rw [← hm] at hfind hlen
      exact ⟨_, x, by rw [hx, hk], hfind, hfetched, hdirty, hdata, hlen⟩
    · refine ⟨_, by rw [hx, hk], ?_⟩
      have hm : s.missFill (s.who r.k) r.va = s.setCore (coreOf r.k) { s.core (coreOf r.k) with
          coming := (s.core (coreOf r.k)).coming.erase e, pfdrop := countUp (s.core (coreOf r.k)).pfdrop 1 } := by
        rw [State.missFill, show (s.core (s.who r.k).core).coming.find? (fun e => e.1 == r.va / 64) = some e from he]
        have hpf' : (s.modCore (s.who r.k).core fun y => { y with coming := y.coming.erase e }).prefetchable (s.who r.k) r.va = none := hpf
        simp only [hpf', Option.isSome_some, if_true]
        rw [State.modCore, State.core_modCore_same, State.modCore, State.setCore_setCore]
        rfl
      rw [hm, State.core_setCore_same]
      exact ⟨rfl, rfl⟩

/-! ### Writes of LTSET, LTPERIOD and TEPC (R303, R304, R500) -/

theorem Regs.after_append (g : Regs) (ws xs : List Wr) : g.after (ws ++ xs) = (g.after ws).after xs := by
  induction ws generalizing g with
  | nil => rfl
  | cons w ws ih => cases w <;> exact ih _

/-- The writes of instructions that write no tile, in their order. -/
theorem State.foldl_wrs_setCtx (s : State) (k : Nat) (c : Ctx) (l : List Outst) (h : ∀ o ∈ l, ∀ y ∈ o.writes, y.isTile = false) :
    l.foldl (fun s o => s.wrs k o.writes) (s.setCtx k c) = s.setCtx k { c with regs := c.regs.after (l.flatMap Outst.writes) } := by
  induction l generalizing c with
  | nil => rfl
  | cons o l ih =>
    rw [List.foldl_cons, State.wrs_setCtx _ _ _ _ (h o (by simp)), ih _ fun x hx => h x (by simp [hx]), List.flatMap_cons, Regs.after_append]

/-- A context whose windows were frozen by a trap closes them. -/
theorem State.closeFrozen_setCtx (s : State) (k : Nat) (c : Ctx) {w : Win} (hw : c.frozenT = some w) (h : ∀ o ∈ w.outst, ∀ y ∈ o.writes, y.isTile = false) :
    (s.setCtx k c).closeFrozen k = s.setCtx k { c with regs := c.regs.after (w.outst.flatMap Outst.writes), carried := min c.carried w.seq,
                                                       frozenT := some { w with outst := [], done := [], path := [], wrote := [] } } := by
  simp only [State.closeFrozen, State.ctx_setCtx_same, hw, State.foldl_wrs_setCtx _ _ _ _ h, State.modCtx_setCtx]

theorem State.closeFrozen_of_none (s : State) (k : Nat) (h : (s.ctx k).frozenT = none) : s.closeFrozen k = s := by
  simp only [State.closeFrozen, h]

/-- The first multiple of a period after a time. -/
theorem nextMultiple (q : Nat) {x : Nat} (hx : 0 < x) : (q / x + 1) * x % x = 0 ∧ q < (q / x + 1) * x ∧ (q / x + 1) * x ≤ q + x := by
  have hq := Nat.div_add_mod q x
  have hr := Nat.mod_lt q hx
  refine ⟨Nat.mul_mod_left _ _, ?_, ?_⟩ <;> rw [Nat.add_mul, Nat.mul_comm (q / x)] <;> omega

theorem registerEvents : Parts.RegisterEvents := by
  unfold Parts.RegisterEvents
  intro s k die x h off
  refine ⟨?_, fun hlo hhi => ?_, fun hout hx => ?_, fun w hw ht => ?_, fun hn => ?_⟩
  · rw [exec_ltsetWrite, execLtsetWrite, State.writeLtset, Nat.mod_mod]
  · have hmod : x % 2 ^ 32 = x := Nat.mod_eq_of_lt (by omega)
    have hx : exec (.ltperiodWrite die x) s = .next (s.modDie die fun y => { y with ltperiod := x, nextTick := (y.tclk / 65536 / x + 1) * x }) := by
      rw [exec_ltperiodWrite, execLtperiodWrite, hmod, State.writeLtperiod, if_pos ⟨hlo, hhi⟩]
    exact ⟨_, hx, rfl, nextMultiple _ (by omega)⟩
  · have hmod : x % 2 ^ 32 = x := Nat.mod_eq_of_lt hx
    rw [exec_ltperiodWrite, execLtperiodWrite, hmod, State.writeLtperiod, if_neg (by omega)]
  · exact congrArg Host.Outcome.next (s.closeFrozen_setCtx k _ hw ht)
  · exact congrArg Host.Outcome.next (State.closeFrozen_of_none _ k (by simpa using hn))

/-! ### Completion interrupts (R353, R354) -/

/-- A counter whose interrupt is pending for a generation of a context. -/
def Counter.pendsFor (y : Counter) (k gen : Nat) : Bool := y.uip && y.armer == k && y.armerGen == gen

/-- The counter as a context leaves it that drops what is pending for another generation. -/
def Counter.unstale (k gen : Nat) (free : Bool) (y : Counter) : Counter :=
  if y.uip && y.armer == k && (y.armerGen != gen || free) then { y with uip := false } else y

/-- What is pending for the generation that lives stays, and nothing else comes to pend for it. -/
theorem Counter.pendsFor_unstale (k gen : Nat) (y : Counter) : (y.unstale k gen false).pendsFor k gen = y.pendsFor k gen := by
  unfold Counter.unstale
  split
  · rename_i h
    simp only [Bool.or_false, Bool.and_eq_true, bne_iff_ne, ne_eq] at h
    simp [Counter.pendsFor, h.2]
  · rfl

/-- Such a counter is left as it is. -/
theorem Counter.unstale_of_pendsFor {k gen : Nat} {y : Counter} (h : y.pendsFor k gen = true) : y.unstale k gen false = y := by
  simp only [Counter.pendsFor, Bool.and_eq_true, beq_iff_eq] at h
  simp [Counter.unstale, h.2]

/-- The counters that a core has after its context has dropped what is stale. -/
theorem State.clearStale_find (s : State) (k n : Nat) : ((s.clearStale k).core (coreOf k)).counters.find n =
    ((s.core (coreOf k)).counters.find n).map (Counter.unstale k (s.ctx k).gen ((s.ctx k).state == .free)) := by
  rw [State.clearStale, State.core_modCore_same, ← Tab.find_map fun _ => Counter.unstale k (s.ctx k).gen ((s.ctx k).state == .free)]
  refine congrArg (Tab.find · n) (List.map_congr_left fun e _ => ?_)
  unfold Counter.unstale
  split <;> rfl

theorem State.pendingCounter_eq_some {s : State} {k n : Nat} (hn : n < 128) {y : Counter} (hy : (s.core (coreOf k)).counters.find n = some y)
    (hp : y.pendsFor k (s.ctx k).gen = true) (hl : ∀ m, m < n → ∀ z, (s.core (coreOf k)).counters.find m = some z → z.pendsFor k (s.ctx k).gen = false) :
    s.pendingCounter k = some n := by
  rw [State.pendingCounter, List.find?_range_eq_some]
  refine ⟨?_, List.mem_range.mpr hn, fun m hm => ?_⟩
  · rw [hy]; exact hp
  · cases hz : (s.core (coreOf k)).counters.find m with
    | none => rfl
    | some z => exact congrArg (!·) (hl m hm z hz)

/-- The interrupt of a context that waits for nothing. -/
theorem State.interrupt_idle {s : State} {k n : Nat} (hp : (s.clearStale k).pendingCounter k = some n) (ho : (s.ctx k).win.outst = [])
    (hon : bit (s.ctx k).uien.toNat 0 = true) (hoff : bit (s.ctx k).uien.toNat 1 = false) (hr : (s.ctx k).retry = false) (hm : (s.ctx k).member = false) :
    s.interrupt k = ((s.clearStale k).setCtx k (s.ctx k)).takeInterrupt k n := by
  have hctx : (s.clearStale k).ctx k = s.ctx k := State.modCore_ctx _ _ _ _
  have hwfi : (s.ctx k).wakeWfi = s.ctx k := by simp only [Ctx.wakeWfi, ho, List.map_nil]; rw [← ho]
  have hclose : ((s.clearStale k).modCtx k Ctx.wakeWfi).close k = (s.clearStale k).setCtx k (s.ctx k) := by
    simp only [State.modCtx, hctx, hwfi, State.close, State.ctx_setCtx_same, ho, List.filter_nil, List.foldl_nil, State.setCtx_setCtx]
    rw [← ho]
  have hcancel : (s.ctx k).cancel Outst.cancellable = s.ctx k := by simp only [Ctx.cancel, ho, List.find?_nil]
  simp only [State.interrupt, hp, hctx, hwfi, hclose, hcancel, State.dropLeaseWait, State.modCtx_setCtx, State.ctx_setCtx_same, ho, hon, hoff, hr, hm,
    List.filter_nil, List.any_nil, List.isEmpty_nil, Bool.not_true, Bool.or_false, Bool.false_eq_true, if_false]

section Twins

variable {s t : State} {c : Nat}

theorem State.Twin.refl (s : State) : s.Twin s := ⟨rfl, rfl, fun _ => rfl⟩

/-- A change of the completion counters of the core that the table lists first. -/
theorem State.Twin.recount (h : (s.setCore c (s.core c)).Twin t) {f : Core → Core} (hf : ∀ x, (f x).uncounted = x.uncounted) :
    (s.setCore c (s.core c)).Twin (t.modCore c f) := by
  refine ⟨?_, ?_, fun j => (State.modCore_ctx _ _ _ _).trans (h.ctx j)⟩
  · rw [h.rest]; rfl
  · rw [State.modCore_cores, Tab.uncounted_put, hf, h.cores, h.uncounted, State.core_setCore_same, State.setCore, Tab.uncounted_put, Tab.put_put_same]

theorem State.Twin.recounted (s : State) {f : Core → Core} (hf : ∀ x, (f x).uncounted = x.uncounted) : (s.setCore c (s.core c)).Twin (s.modCore c f) := by
  have h := (State.Twin.refl (s.setCore c (s.core c))).recount hf
  rwa [State.modCore, State.core_setCore_same, State.setCore_setCore] at h

/-- A context that is listed anew with the value it has. -/
theorem State.Twin.relist (h : s.Twin t) (k : Nat) : s.Twin (t.setCtx k (s.ctx k)) := by
  refine ⟨?_, h.cores, fun j => ?_⟩
  · rw [h.rest]; rfl
  · by_cases e : j = k
    · subst e; exact State.ctx_setCtx_same _ _ _
    · rw [State.ctx_setCtx_ne _ _ _ _ e, h.ctx]

end Twins

theorem State.twin_clearStale (s : State) (k : Nat) : (s.setCore (coreOf k) (s.core (coreOf k))).Twin (s.clearStale k) := by
  unfold State.clearStale
  exact .recounted s fun _ => rfl

/-- What a pending counter's interrupt leaves: an acquire of the core, the counter served, and the context at the counter's handler. -/
theorem State.takeInterrupt_taken {s u : State} {k n : Nat} (hu : (s.setCore (coreOf k) (s.core (coreOf k))).Twin u) {x : Counter}
    (hx : u.counter (coreOf k) n = x) :
    ((u.takeInterrupt k n).counter (coreOf k) n).uip = false ∧ (∀ e ∈ ((u.takeInterrupt k n).core (coreOf k)).l1, e.2.outside = false) ∧
      (u.takeInterrupt k n).mem = (s.acquire (coreOf k)).mem ∧ (∀ j, j ≠ k → (u.takeInterrupt k n).ctx j = (s.acquire (coreOf k)).ctx j) ∧
      (u.takeInterrupt k n).ctx k = { (s.acquire (coreOf k)).ctx k with
        xid := BitVec.ofNat 64 (ofBool x.err * 2 ^ 63 + x.code % 256 * 2 ^ 48 + n * 2 ^ 32 + x.tag % 2 ^ 32), uiepc := (s.ctx k).pc,
        uien := (s.ctx k).uien ||| 2, frozenU := some (s.ctx k).win, win := Win.reset, pc := x.uipc, state := .running, yielded := [],
        ltime := serialMax 24 ((s.acquire (coreOf k)).ctx k).ltime x.ccwts } := by
  let served := u.setCounter (coreOf k) n { x with uip := false }
  have htwin := (hu.recount (f := fun y => { y with counters := y.counters.put n { x with uip := false } }) fun _ => rfl).acquire (coreOf k)
  rw [State.acquire_setCore_core] at htwin
  have hcounts : (served.acquire (coreOf k)).counter (coreOf k) n = { x with uip := false } := by
    rw [State.counter, (served.coheres_acquire (coreOf k)).core]
    simp [served, State.setCounter]
  have hkept := (s.coheres_acquire (coreOf k)).ctx k
  rw [State.takeInterrupt, hx]
  refine ⟨congrArg Counter.uip hcounts, fun e he => ?_, htwin.mem, fun j hj => ?_, ?_⟩
  · have he' : e ∈ ((served.acquire (coreOf k)).core (coreOf k)).l1 := he
    rw [State.acquire, State.core_modCore_same] at he'
    simpa using (List.mem_filter.mp he').2
  · rw [State.ctx_modCtx_ne _ _ _ _ hj, State.raisePts, State.ctx_modCtx_ne _ _ _ _ hj]
    exact htwin.ctx j
  · rw [State.ctx_modCtx_same, State.raisePts, State.ctx_modCtx_same]
    have hpc : ((s.acquire (coreOf k)).ctx k).pc = (s.ctx k).pc := (congrArg Ctx.pc hkept :)
    have huien : ((s.acquire (coreOf k)).ctx k).uien = (s.ctx k).uien := (congrArg Ctx.uien hkept :)
    have hwin : ((s.acquire (coreOf k)).ctx k).win = (s.ctx k).win := (congrArg Ctx.win hkept :)
    have hctx : (served.acquire (coreOf k)).ctx k = (s.acquire (coreOf k)).ctx k := htwin.ctx k
    rw [← hpc, ← huien, ← hwin, ← hctx]

theorem completionInterrupts : Parts.CompletionInterrupts := by
  unfold Parts.CompletionInterrupts
  intro s k n hn c core x pends hp hl hfree ho hon hoff hr hm s1
  have hfree' : ((s.ctx k).state == .free) = false := by simpa using hfree
  obtain ⟨y, hy, hyp⟩ := hp
  have hpends : y.pendsFor k (s.ctx k).gen = true := by simpa [Counter.pendsFor, and_assoc] using hyp
  have hfind : ((s.clearStale k).core core).counters.find n = some y := by
    rw [State.clearStale_find, hy, hfree', Option.map_some, Counter.unstale_of_pendsFor hpends]
  have hctx : (s.clearStale k).ctx k = s.ctx k := State.modCore_ctx _ _ _ _
  have hpend : (s.clearStale k).pendingCounter k = some n := by
    refine State.pendingCounter_eq_some hn hfind (by rw [hctx]; exact hpends) fun m hm z hz => ?_
    rw [State.clearStale_find, hfree', Option.map_eq_some_iff] at hz
    obtain ⟨z', hz', rfl⟩ := hz
    rw [hctx, Counter.pendsFor_unstale, Bool.eq_false_iff]
    intro hz
    exact hl m hm ⟨z', hz', by simpa [Counter.pendsFor, and_assoc] using hz⟩
  have htwin : (s.setCore core (s.core core)).Twin ((s.clearStale k).setCtx k (s.ctx k)) := (s.twin_clearStale k).relist k
  have hx : ((s.clearStale k).setCtx k (s.ctx k)).counter core n = x := by
    rw [State.counter, State.setCtx_core, Tab.get_eq_find, hfind, show x = Tab.get _ _ n from rfl, Tab.get_eq_find, hy]
  obtain ⟨huip, hl1, hmem, hothers, hown⟩ := State.takeInterrupt_taken htwin hx
  exact ⟨_, congrArg Host.Outcome.next (State.interrupt_idle hpend ho hon hoff hr hm), huip, hl1, hmem, hothers, hown⟩

/-- Settles O52, part by part: the ends of waits, the reads of `SYNC`, the timeouts, the faults and their replies, the walks and accesses, the register
writes, and the completion interrupt. -/
theorem waitsAndFaults : Obligations.WaitsAndFaults := by
  unfold Obligations.WaitsAndFaults
  exact ⟨resultsOfWaits, syncReads, timesOfWaits, faultEvents, unitFaultReplies, walksAndAccesses, registerEvents, completionInterrupts⟩

end Sys2Proof.Machine

namespace Sys2Proof.Machine

/-! ### What a CSR reads at issue (R156, R158) -/

@[simp] theorem State.started_core (s : State) (i : Instr) (c : Nat) : (s.started i).core c = s.core c := rfl
@[simp] theorem State.started_die (s : State) (i : Instr) (d : Nat) : (s.started i).die d = s.die d := rfl

/-- Moving the PC past an instruction changes no CSR of its context. -/
theorem State.readCsr_started (s : State) (i : Instr) (n : Nat) : (s.started i).readCsr s.cur n = s.readCsr s.cur n := by
  have hhandler : (s.started i).isHandler s.cur = s.isHandler s.cur := rfl
  have hctxid : (s.started i).csrCtxid s.cur = s.csrCtxid s.cur := by simp only [State.csrCtxid, State.started_ctx, hhandler]
  have htstat (d : Nat) : (s.started i).csrTstat d = s.csrTstat d := rfl
  have hhpend (c : Nat) : (s.started i).csrHpend c = s.csrHpend c := rfl
  have hmleft : (s.started i).csrMleft s.cur = s.csrMleft s.cur := rfl
  simp only [State.readCsr, State.started_ctx, State.started_core, State.started_die, hctxid, htstat, hhpend, hmleft]

/-! ### What a write of a CSR leaves of its context (R154, R500) -/

/-- A change of a die that leaves its roots alone changes no context. -/
theorem State.ctx_modDie (s : State) (d : Nat) {f : Die → Die} (hf : ∀ x, (f x).roots = x.roots) (k : Nat) : (s.modDie d f).ctx k = s.ctx k :=
  (State.SameRoots.modDie s d hf).ctx rfl k

/-- In t context k is in the state and has the windows that it has in s: an instruction it has issued can still complete (R54, R203). -/
def State.SameIssue (s t : State) (k : Nat) : Prop := (t.ctx k).state = (s.ctx k).state ∧ (t.ctx k).win = (s.ctx k).win

section SameIssue

variable {s t u : State} {k : Nat}

theorem State.SameIssue.trans (h : s.SameIssue t k) (h' : t.SameIssue u k) : s.SameIssue u k := ⟨h'.1.trans h.1, h'.2.trans h.2⟩

theorem State.SameIssue.of_ctx (h : t.ctx k = s.ctx k) : s.SameIssue t k := ⟨congrArg (·.state) h, congrArg (·.win) h⟩

theorem State.sameIssue_modCtx (s : State) (k : Nat) {f : Ctx → Ctx} (hs : ∀ c, (f c).state = c.state) (hw : ∀ c, (f c).win = c.win) :
    s.SameIssue (s.modCtx k f) k := by
  simp only [State.SameIssue, State.ctx_modCtx_same, hs, hw, and_self]

theorem State.sameIssue_wr (s : State) (k : Nat) (w : Wr) : s.SameIssue (s.wr k w) k := by
  cases w with
  | s r x => exact s.sameIssue_modCtx k (fun _ => rfl) fun _ => rfl
  | v r x => exact s.sameIssue_modCtx k (fun _ => rfl) fun _ => rfl
  | k r x => exact s.sameIssue_modCtx k (fun _ => rfl) fun _ => rfl
  | tile n m dirty => exact .of_ctx rfl

theorem State.SameIssue.foldl {α : Type} {f : State → α → State} (hf : ∀ (s : State) x, s.SameIssue (f s x) k) (l : List α) (s : State) :
    s.SameIssue (l.foldl f s) k := by
  induction l generalizing s with
  | nil => exact .of_ctx rfl
  | cons x l ih => exact (hf s x).trans (ih _)

theorem State.sameIssue_closeFrozen (s : State) (k : Nat) : s.SameIssue (s.closeFrozen k) k := by
  unfold State.closeFrozen
  split
  · exact .of_ctx rfl
  · have hwrites (s : State) (o : Outst) : s.SameIssue (s.wrs k o.writes) k := .foldl (fun s w => s.sameIssue_wr k w) o.writes s
    exact (State.SameIssue.foldl hwrites _ s).trans (State.sameIssue_modCtx _ k (by intro; rfl) (by intro; rfl))

theorem State.sameIssue_writeEpc (s : State) (k : Nat) (sup : Bool) (x : Word) : s.SameIssue (s.writeEpc k sup x) k := by
  refine State.SameIssue.trans ?_ (State.sameIssue_closeFrozen _ k)
  cases sup
  · exact s.sameIssue_modCtx k (by intro; rfl) (by intro; rfl)
  · exact s.sameIssue_modCtx k (by intro; rfl) (by intro; rfl)

theorem State.sameIssue_writeLtperiod (s : State) (k d x : Nat) : s.SameIssue (s.writeLtperiod d x) k := by
  unfold State.writeLtperiod
  split
  · exact .of_ctx (State.ctx_modDie s d (by intro; rfl) k)
  · exact .of_ctx rfl

theorem State.sameIssue_writeLtset (s : State) (k x : Nat) : s.SameIssue (s.writeLtset k x) k := s.sameIssue_modCtx k (fun _ => rfl) fun _ => rfl

/-- No write of a CSR touches the state or the open windows of the context that writes it. -/
theorem State.sameIssue_writeCsr (s : State) (k n : Nat) (w : Word) : s.SameIssue (s.writeCsr k n w) k := by
  simp only [State.writeCsr]
  split
  -- TEPC and SEPC, which close the frozen windows
  case h_7 | h_20 => exact s.sameIssue_writeEpc k _ w
  -- PTROOT, PAGERMAP, LTPERIOD and LEASE, which a core or a die holds
  case h_22 => exact .of_ctx (State.ctx_modDie s _ (by intro; rfl) k)
  case h_23 => split <;> exact .of_ctx rfl
  case h_24 => exact s.sameIssue_writeLtperiod k _ _
  case h_25 =>
    split
    · exact .of_ctx rfl
    · exact .of_ctx (State.ctx_modDie s _ (by intro; rfl) k)
  case h_26 => exact s.sameIssue_writeLtset k _
  -- one field of the context or of its core, or no register at all
  all_goals simp [State.SameIssue]

end SameIssue

/-! ### The checks of a CSR instruction, in their order (R155) -/

section Csr

variable {s : State} {i : Instr} {d : Reg} {n : Nat} {f : Env → Word → Option Word}

/-- The second check of R155 fails in user mode on the privileged range, and only there. -/
theorem user_privileged_iff :
    ((s.env i).user (s.started i) && csrPrivileged n) = true ↔ (s.ctx s.cur).sup = false ∧ 0x100 ≤ n ∧ n ≤ 0x1FF := by
  simp only [Env.user, State.env_k, State.started_ctx, csrPrivileged, Bool.and_eq_true, Bool.not_eq_true', decide_eq_true_eq]

/-- A reserved number traps whatever else holds. -/
theorem State.csrOp_reserved (h : s.Ready) (he : (s.ctx s.cur).Enabled) (hx : exec i s = csrOp s i d n f) (hl : Csr.listed n = false) :
    s.Traps i 0x01 (BitVec.ofNat 64 i.word) := by
  refine s.issue_traps i 0 _ false 0x01 i.word h he hx ?_ nofun
  simp only [hl, Bool.not_false, if_true]
  rfl

theorem State.csrOp_privileged (h : s.Ready) (he : (s.ctx s.cur).Enabled) (hx : exec i s = csrOp s i d n f) (hl : Csr.listed n = true)
    (hp : (s.ctx s.cur).sup = false ∧ 0x100 ≤ n ∧ n ≤ 0x1FF) : s.Traps i 0x02 (BitVec.ofNat 64 i.word) := by
  refine s.issue_traps i 0 _ false 0x02 i.word h he hx ?_ nofun
  simp only [hl, user_privileged_iff.2 hp, Bool.not_true, Bool.false_eq_true, if_false, if_true]
  rfl

section Permitted

variable (hx : exec i s = csrOp s i d n f) (hl : Csr.listed n = true) (hm : (s.ctx s.cur).sup = true ∨ n < 0x100 ∨ 0x1FF < n)
include hx hl hm

/-- Past the checks of its number and its mode: the attempt only reads, or writes, or is refused its write of a read-only register. -/
theorem State.csrOp_permitted : ∃ g, exec i s = s.issue i 0 g ∧
    (f (s.env i) (s.readCsr s.cur n) = none → g (s.env i) (s.started i) = .done [.s d (s.readCsr s.cur n)] (s.started i)) ∧
    (∀ w, f (s.env i) (s.readCsr s.cur n) = some w → csrReadOnly n = false →
      g (s.env i) (s.started i) = .done [.s d (s.readCsr s.cur n)] ((s.started i).writeCsr s.cur n w)) ∧
    ∀ w, f (s.env i) (s.readCsr s.cur n) = some w → csrReadOnly n = true → g (s.env i) (s.started i) = illegal (s.env i) (s.started i) := by
  have hu : ((s.env i).user (s.started i) && csrPrivileged n) = false := by
    rw [← Bool.not_eq_true, user_privileged_iff]
    rintro ⟨hs, hlo, hhi⟩
    rcases hm with hm | hm | hm
    · rw [hs] at hm; cases hm
    · omega
    · omega
  refine ⟨_, hx, fun hf => ?_, fun w hf hr => ?_, fun w hf hr => ?_⟩
  · simp only [hl, hu, hf, State.env_k, State.readCsr_started, Bool.not_true, Bool.false_eq_true, if_false]
  · simp only [hl, hu, hf, hr, State.env_k, State.readCsr_started, Bool.not_true, Bool.false_eq_true, if_false]
  · simp only [hl, hu, hf, hr, State.env_k, State.readCsr_started, Bool.not_true, Bool.false_eq_true, if_false, if_true]

variable (h : s.Ready)
include h

theorem State.csrOp_reads (hf : f (s.env i) (s.readCsr s.cur n) = none) : s.Sets i 0 [.s d (s.readCsr s.cur n)] := by
  obtain ⟨g, hi, hreads, -, -⟩ := State.csrOp_permitted hx hl hm
  exact s.issue_sets i 0 g _ h hi (hreads hf) (by simp [Wr.isTile])

theorem State.csrOp_writes {w : Word} (hf : f (s.env i) (s.readCsr s.cur n) = some w) (hr : csrReadOnly n = false) :
    s.Gives i ((s.started i).writeCsr s.cur n w) 0 [.s d (s.readCsr s.cur n)] := by
  obtain ⟨g, hi, -, hwrites, -⟩ := State.csrOp_permitted hx hl hm
  obtain ⟨hstate, hwin⟩ := (s.started i).sameIssue_writeCsr s.cur n w
  refine s.issue_gives i 0 g _ _ h hi (hwrites w hf hr) ?_ ?_ ?_ (by simp [Wr.isTile])
  · rw [hstate, State.started_ctx]; exact h.1
  · rw [hwin, State.started_ctx]; exact h.2
  · rw [hwin, State.started_ctx]

theorem State.csrOp_readOnly {w : Word} (he : (s.ctx s.cur).Enabled) (hf : f (s.env i) (s.readCsr s.cur n) = some w) (hr : csrReadOnly n = true) :
    s.Traps i 0x01 (BitVec.ofNat 64 i.word) := by
  obtain ⟨g, hi, -, -, hrefused⟩ := State.csrOp_permitted hx hl hm
  exact s.issue_traps i 0 g false 0x01 i.word h he hi (hrefused w hf hr) nofun

end Permitted

end Csr

/-! ### The four CSR instructions (R154) -/

/-- `CSRSET` and `CSRCLR` of a register other than s0, and `CSRW` of any, write; each of the four has the mould of R154. -/
theorem State.exec_csrOp (s : State) {i : Instr} {d a : Reg} {n : BitVec 12}
    (hi : i = .csrr d n ∨ i = .csrw d a n ∨ i = .csrset d a n ∨ i = .csrclr d a n) :
    ∃ f, exec i s = csrOp s i d n.toNat f ∧ (i = .csrw d a n ∨ (a ≠ 0 ∧ i ≠ .csrr d n) → ∀ e old, ∃ w, f e old = some w) := by
  rcases hi with rfl | rfl | rfl | rfl
  · exact ⟨_, exec_csrr d n s, by simp⟩
  · exact ⟨_, exec_csrw d a n s, fun _ _ _ => ⟨_, rfl⟩⟩
  · exact ⟨_, exec_csrset d a n s, fun ha _ _ => ⟨_, if_neg (by simpa using ha)⟩⟩
  · exact ⟨_, exec_csrclr d a n s, fun ha _ _ => ⟨_, if_neg (by simpa using ha)⟩⟩

theorem csrInstructions : Parts.CsrInstructions := by
  unfold Parts.CsrInstructions
  intro s d a n h hl hm old x writes
  refine ⟨State.csrOp_reads (exec_csrr d n s) hl hm h rfl, State.csrOp_writes (exec_csrw d a n s) hl hm h rfl,
    fun ha hr => ⟨?_, ?_⟩, fun ha => ⟨?_, ?_⟩⟩
  · exact State.csrOp_writes (exec_csrset d a n s) hl hm h (if_neg ha) hr
  · exact State.csrOp_writes (exec_csrclr d a n s) hl hm h (if_neg ha) hr
  · exact State.csrOp_reads (exec_csrset d a n s) hl hm h (if_pos ha)
  · exact State.csrOp_reads (exec_csrclr d a n s) hl hm h (if_pos ha)

theorem csrChecks : Parts.CsrChecks := by
  unfold Parts.CsrChecks
  intro s i d a n h he hi
  obtain ⟨f, hx, hw⟩ := s.exec_csrOp hi
  refine ⟨State.csrOp_reserved h he hx, fun hl hs hlo hhi => State.csrOp_privileged h he hx hl ⟨hs, hlo, hhi⟩, fun hl hm hr ha => ?_⟩
  obtain ⟨w, hf⟩ := hw ha (s.env i) (s.readCsr s.cur n.toNat)
  exact State.csrOp_readOnly hx hl hm h he hf hr

/-- Settles O31: a CSR instruction's attempt is read off once its checks are decided, and no write of a CSR reaches the state or the windows of its
context, so the instruction completes. -/
theorem csrAccesses : Obligations.CsrAccesses := by
  unfold Obligations.CsrAccesses
  exact ⟨csrInstructions, csrChecks⟩

end Sys2Proof.Machine

namespace Sys2Proof.Machine

/-! ### Releases of a context that owes nothing (R281, R309) -/

/-- A core without dirty bytes writes none back. -/
theorem State.spillIf_clean {s : State} {c : Nat} (h : ∀ e ∈ (s.core c).l1, e.2.dirty = 0) (p : Nat → L1Line → Bool) : s.spillIf c p = s := by
  have hnone : (s.core c).l1.filter (fun e => e.2.dirty != 0 && p e.1 e.2) = [] := by
    rw [List.filter_eq_nil_iff]; intro e he; simp [h e he]
  simp only [State.spillIf, hnone, List.map_nil, List.foldl_nil]

theorem State.Flushed.release {s : State} {k : Nat} (h : s.Flushed k) : s.release k = s := by
  obtain ⟨hclean, howned, -, -⟩ := h
  have hnone : (s.die (dieOf (coreOf k))).owned.filter (fun e => e.2.dirty && e.2.writers.contains k) = [] := by
    rw [List.filter_eq_nil_iff]; intro e he; simpa using howned e he
  simp only [State.release, State.spillIf_clean hclean, hnone, List.map_nil, List.foldl_nil]

/-- The release of a context that owes nothing has nothing to wait for and changes nothing. -/
theorem State.Flushed.released {s : State} {k : Nat} (h : s.Flushed k) : s.released k = (true, s) := by
  have hrelease := h.release
  obtain ⟨-, -, hwriters, htokens⟩ := h
  have hheld : s.bytesHeld k = false := by
    rw [State.bytesHeld, List.any_eq_false]; intro b hb; simpa using hwriters b hb
  simp only [State.released, hrelease, htokens, hheld, List.isEmpty_nil, Bool.not_false, Bool.and_self, List.foldl_nil]

theorem State.Flushed.started {s : State} (h : s.Flushed s.cur) (i : Instr) : (s.started i).Flushed s.cur := by
  obtain ⟨hclean, howned, hheld, htokens⟩ := h
  refine ⟨hclean, howned, hheld, ?_⟩
  rw [← htokens, State.tokensDue, State.started_ctx, State.started_die]
  rfl

/-- An instruction that is a release goes on at once in a context that owes nothing. -/
theorem State.releasing_flushed {s : State} (h : s.Ready) (hf : s.Flushed s.cur) (i : Instr) (go : State → Att) :
    releasing (s.env i) (s.started i) go = go (s.started i) := by
  have hdone : (s.started i).accessedBefore s.cur (s.env i).pos = false := by
    simp only [State.accessedBefore, State.started_ctx, h.2, List.any_nil]
  simp only [releasing, State.env_k, hdone, (hf.started i).released, Bool.false_eq_true, if_false]

/-! ### The mode and the end of an instruction at its issue (R495) -/

theorem State.user_env (s : State) (i : Instr) : (s.env i).user (s.started i) = !(s.ctx s.cur).sup := by
  simp only [Env.user, State.env_k, State.started_ctx]

/-- An attempt that is done and leaves the context running with its windows as they were completes the instruction. -/
theorem State.issue_gives_of_sameIssue {s s2 : State} {i : Instr} {la : Nat} {f : Env → State → Att} {ws : List Wr} (h : s.Ready)
    (he : exec i s = s.issue i la f) (hf : f (s.env i) (s.started i) = .done ws s2) (hs : (s.started i).SameIssue s2 s.cur)
    (ht : ∀ w ∈ ws, w.isTile = false) : s.Gives i s2 la ws := by
  obtain ⟨hstate, hwin⟩ := hs
  refine s.issue_gives i la f s2 ws h he hf ?_ ?_ ?_ ht
  · rw [hstate, State.started_ctx]; exact h.1
  · rw [hwin, State.started_ctx]; exact h.2
  · rw [hwin, State.started_ctx]

/-! ### Where a message goes (R205, R206) -/

theorem dstKind_word (x : Word) : dstKind x.toNat = x.toNat / 2 ^ 62 := by unfold dstKind bits; omega

theorem dstCore_eq (d : Nat) : dstCore d = d % 2 ^ 12 := by unfold dstCore bits; omega

theorem dstKind_of_lt {d : Nat} (h : d < 2 ^ 62) : dstKind d = 0 := by unfold dstKind bits; omega

/-- A message to a core or a thread is in the network, and its core has an arrival to come. -/
theorem State.send_core (s : State) {m : Msg} (h : dstKind m.dst = 0 ∨ dstKind m.dst = 1) :
    s.send m = ({ s with net := s.net ++ [{ m with born := s.pkg.born }], pkg := { s.pkg with born := s.pkg.born + 1 } } : State).post
      (.messageArrival (dstCore m.dst)) := by
  rcases h with h | h <;> simp only [State.send, h]

/-- A message to the host is in the network, and the launch's event queue has one to come. -/
theorem State.send_host (s : State) {m : Msg} (h : dstKind m.dst = 3) :
    s.send m = ({ s with net := s.net ++ [{ m with born := s.pkg.born }], pkg := { s.pkg with born := s.pkg.born + 1 } } : State).post
      (.hostMessage (s.evqOf m.slot)) := by
  simp only [State.send, h]
  rfl

/-- A message to a die is in its distributor, where that has room. -/
theorem State.send_die_fifo (s : State) {m : Msg} {d : Nat} (h : dstKind m.dst = 2) (hd : bits m.dst 11 9 = d)
    (hroom : (s.die d).fifo.length < 64 + (s.die d).fifoQuota) :
    ((s.send m).die d).fifo = (s.die d).fifo ++ [{ m with born := s.pkg.born }] := by
  have hsend : s.send m = (({ s with pkg := { s.pkg with born := s.pkg.born + 1 } } : State).modDie d fun x =>
      { x with fifo := x.fifo ++ [{ m with born := s.pkg.born }] }).post (.distributorOffer d) := by
    simp only [State.send, h, hd]
    exact if_pos hroom
  rw [hsend, State.post_die, State.die_modDie_same]
  rfl

/-- A message of a program that is sent, or bounces at a full distributor, touches neither memory, nor contexts, nor cores. -/
theorem State.send_rest (s : State) {m : Msg} (hm : m.hsrc = false) :
    (s.send m).ctxs = s.ctxs ∧ (s.send m).cores = s.cores ∧ (s.send m).mem = s.mem ∧ s.SameRoots (s.send m) := by
  unfold State.send
  extract_lets m' s'
  split
  case h_1 =>
    split
    · exact ⟨rfl, rfl, rfl, State.SameRoots.modDie s (bits m.dst 11 9) (f := fun x => { x with fifo := x.fifo ++ [m'] }) fun _ => rfl⟩
    · rw [State.bounceMsg, if_neg (by simp [m', hm])]
      exact ⟨rfl, rfl, rfl, .refl s⟩
  case h_2 => exact ⟨rfl, rfl, rfl, .refl s⟩
  case h_3 => exact ⟨rfl, rfl, rfl, .refl s⟩

theorem State.ctx_send (s : State) {m : Msg} (hm : m.hsrc = false) (k : Nat) : (s.send m).ctx k = s.ctx k := by
  obtain ⟨hctxs, -, -, hroots⟩ := s.send_rest hm
  exact hroots.ctx hctxs k

theorem State.core_send (s : State) {m : Msg} (hm : m.hsrc = false) (c : Nat) : (s.send m).core c = s.core c := by
  obtain ⟨-, hcores, -, hroots⟩ := s.send_rest hm
  exact hroots.core hcores c

/-! ### A program's messages (R216, R217) -/

/-- What a message of context k takes from the state: the context and the slot of its core. -/
theorem State.ownMsg_congr {s t : State} {k : Nat} (hsender : (t.ctx k).gen = (s.ctx k).gen) (hpts : (t.ctx k).ltime = (s.ctx k).ltime)
    (hcore : t.core (coreOf k) = s.core (coreOf k)) (dst cls nc len x : Nat) : t.ownMsg k dst cls nc len x = s.ownMsg k dst cls nc len x := by
  simp only [State.ownMsg, State.senderBits, State.slotOf, hsender, hpts, hcore]

theorem State.ownMsg_started (s : State) (i : Instr) (dst cls nc len x : Nat) :
    (s.started i).ownMsg s.cur dst cls nc len x = s.ownMsg s.cur dst cls nc len x :=
  State.ownMsg_congr (by simp only [State.started_ctx]) (by simp only [State.started_ctx]) (s.started_core i _) dst cls nc len x

theorem State.ownMsg_send (s : State) {m : Msg} (hm : m.hsrc = false) (k dst cls nc len x : Nat) :
    (s.send m).ownMsg k dst cls nc len x = s.ownMsg k dst cls nc len x :=
  State.ownMsg_congr (congrArg Ctx.gen (s.ctx_send hm k)) (congrArg Ctx.ltime (s.ctx_send hm k)) (s.core_send hm _) dst cls nc len x

theorem State.sameIssue_sendOwn (s : State) (k dst cls nc len x : Nat) : s.SameIssue (s.send (s.ownMsg k dst cls nc len x)) k :=
  .of_ctx (s.ctx_send rfl k)

/-- The copies of a program's message to several cores, sent one after another, follow what is in the network in their order. -/
theorem State.foldl_sendOwn (k cls nc len x : Nat) (f : Nat → Nat) (l : List Nat) (s : State) (h : ∀ i ∈ l, dstKind (f i) = 0) :
    (l.foldl (fun s i => s.send (s.ownMsg k (f i) cls nc len x)) s).mem = s.mem ∧
    (l.foldl (fun s i => s.send (s.ownMsg k (f i) cls nc len x)) s).net =
      s.net ++ (List.range l.length).map fun n => { s.ownMsg k (f (l.getD n 0)) cls nc len x with born := s.pkg.born + n } := by
  induction l generalizing s with
  | nil => simp
  | cons i l ih =>
    have hsend := s.send_core (m := s.ownMsg k (f i) cls nc len x) (.inl (h i (by simp)))
    obtain ⟨hmem, hnet⟩ := ih (s.send (s.ownMsg k (f i) cls nc len x)) fun j hj => h j (by simp [hj])
    have hborn : (s.send (s.ownMsg k (f i) cls nc len x)).pkg.born = s.pkg.born + 1 := by rw [hsend]; rfl
    have hfirst : (s.send (s.ownMsg k (f i) cls nc len x)).net = s.net ++ [{ s.ownMsg k (f i) cls nc len x with born := s.pkg.born }] := by
      rw [hsend]; rfl
    simp only [s.ownMsg_send (m := s.ownMsg k (f i) cls nc len x) rfl, hborn, hfirst] at hnet
    refine ⟨hmem.trans (by rw [hsend]; rfl), hnet.trans ?_⟩
    simp [List.range_succ_eq_map, Function.comp_def, Nat.add_assoc, Nat.add_comm 1]

/-! ### The checks of a send, in their order (R216, R512) -/

theorem ctlHC_eq (c : Nat) : ctlHC c = c % 64 := by unfold ctlHC bits; omega

/-- The mould of `SEND` and `SENDM` (R216): the checks in their order, the stall while the launch is being saved, then what is sent, as a release. -/
def sendMould (multi bad : Bool) (ctl dst : Nat) (e : Env) (s : State) (go : State → Att) : Att :=
  if ctlBad multi ctl then illegal e s
  else if e.user s && decide (ctlHC ctl ≤ 3) then privileged e s
  else if bad then .trap false 0x10 dst s
  else if e.halted s then stalled s
  else releasing e s go

theorem State.trySend_issue (s : State) (a b v : Reg) :
    let g := (s.ctx s.cur).regs
    let i := Instr.send a b v
    trySend a b v (s.env i) (s.started i) =
      sendMould false (s.badDst (!(s.ctx s.cur).sup) (g.rs a).toNat) (g.rs b).toNat (g.rs a).toNat (s.env i) (s.started i) fun t =>
        .done [] (t.send (t.ownMsg s.cur (g.rs a).toNat (ctlHC (g.rs b).toNat) (ctlNC (g.rs b).toNat) (ctlLen (g.rs b).toNat) (g.rv v).toNat)) := by
  rw [← State.user_env s (.send a b v)]
  rfl

theorem State.trySendm_issue (s : State) (a b v : Reg) :
    let g := (s.ctx s.cur).regs
    let i := Instr.sendm a b v
    trySendm a b v (s.env i) (s.started i) =
      sendMould true (s.badMulti (!(s.ctx s.cur).sup) (g.rs a).toNat) (g.rs b).toNat (g.rs a).toNat (s.env i) (s.started i) fun t => .done [] <|
        ((List.range 16).filter fun n => bit (multiMask (g.rs a).toNat) n).foldl (fun t n =>
          t.send (t.ownMsg s.cur (multiCluster (g.rs a).toNat * 16 + n) (ctlHC (g.rs b).toNat) 5 (ctlLen (g.rs b).toNat) (g.rv v).toNat)) t := by
  rw [← State.user_env s (.sendm a b v)]
  rfl

section Mould

variable {s : State} {i : Instr} {multi bad : Bool} {ctl : Nat} {dst : Word} {go : State → Att}

/-- A class outside the system's, or supervisor mode: the second check passes. -/
theorem State.send_permitted (i : Instr) (hm : (s.ctx s.cur).sup = true ∨ 3 < ctl % 64) :
    ((s.env i).user (s.started i) && decide (ctlHC ctl ≤ 3)) = false := by
  rw [State.user_env, ctlHC_eq]
  rcases hm with hm | hm <;> simp [hm]

/-- Past its checks, with no save under way and nothing owed, a send sends. -/
theorem State.sendMould_sends (h : s.Ready) (hf : s.Flushed s.cur) (hsave : (s.core (coreOf s.cur)).saving = false)
    (hm : (s.ctx s.cur).sup = true ∨ 3 < ctl % 64) (hc : ctlBad multi ctl = false) (hb : bad = false) :
    sendMould multi bad ctl dst.toNat (s.env i) (s.started i) go = go (s.started i) := by
  have hhalt : (s.env i).halted (s.started i) = false := hsave
  simp only [sendMould, hc, s.send_permitted i hm, hb, hhalt, State.releasing_flushed h hf, Bool.false_eq_true, if_false]

/-- The three checks of a send. -/
theorem State.sendMould_checks {f : Env → State → Att} (h : s.Ready) (he : (s.ctx s.cur).Enabled) (hx : exec i s = s.issue i 0 f)
    (hf : f (s.env i) (s.started i) = sendMould multi bad ctl dst.toNat (s.env i) (s.started i) go) :
    (ctlBad multi ctl = true → s.Traps i 0x01 (BitVec.ofNat 64 i.word)) ∧
    (ctlBad multi ctl = false → (!(s.ctx s.cur).sup) = true → ctl % 64 ≤ 3 → s.Traps i 0x02 (BitVec.ofNat 64 i.word)) ∧
    (ctlBad multi ctl = false → ((!(s.ctx s.cur).sup) = false ∨ 3 < ctl % 64) → bad = true → s.Traps i 0x10 dst) := by
  refine ⟨fun hc => ?_, fun hc hu hcls => ?_, fun hc hm hb => ?_⟩
  · refine s.issue_traps i 0 f false 0x01 i.word h he hx (hf.trans ?_) nofun
    simp only [sendMould, hc, if_true]
    rfl
  · refine s.issue_traps i 0 f false 0x02 i.word h he hx (hf.trans ?_) nofun
    simp only [sendMould, hc, State.user_env, hu, ctlHC_eq, hcls, decide_true, Bool.and_self, Bool.false_eq_true, if_false, if_true]
    rfl
  · have hp := s.send_permitted i (ctl := ctl) (by simpa using hm)
    have htrap := s.issue_traps i 0 f false 0x10 dst.toNat h he hx
      (hf.trans (by simp only [sendMould, hc, hp, hb, Bool.false_eq_true, if_false, if_true])) nofun
    rwa [BitVec.ofNat_toNat, BitVec.setWidth_eq] at htrap

end Mould

theorem sendChecks : Parts.SendChecks := by
  unfold Parts.SendChecks
  intro s a b v h he g dst ctl user each
  exact ⟨State.sendMould_checks h he (exec_send a b v s) (s.trySend_issue a b v),
    State.sendMould_checks h he (exec_sendm a b v s) (s.trySendm_issue a b v)⟩


/-! ### The messages that a send puts on their way (R205, R206, R216, R217) -/

theorem bit_eq_testBit (x n : Nat) : bit x n = x.testBit n := by
  rw [Nat.testBit_eq_decide_div_mod_eq]; rfl

/-- The cores that the mask of a `SENDM` destination names. -/
theorem bit_multiMask (d : Nat) {i : Nat} (h : i < 16) : bit (multiMask d) i = d.testBit (24 + i) := by
  have hmask : multiMask d = d >>> 24 % 2 ^ 16 := by rw [Nat.shiftRight_eq_div_pow]; rfl
  rw [bit_eq_testBit, hmask, Nat.testBit_mod_two_pow, Nat.testBit_shiftRight, decide_eq_true h, Bool.true_and]

theorem multiCores_eq (d : Nat) :
    ((List.range 16).filter fun i => bit (multiMask d) i) = (List.range 16).filter fun i => d.testBit (24 + i) :=
  List.filter_congr fun _ hi => bit_multiMask d (List.mem_range.1 hi)

theorem dstKind_multiCore (d : Nat) {i : Nat} (h : i < 16) : dstKind (multiCluster d * 16 + i) = 0 :=
  dstKind_of_lt (by unfold multiCluster bits; omega)

/-- The message that context k sends under a control word, numbered n among those sent from now on. -/
theorem State.ownMsg_ctl (s : State) (i : Instr) (dst ctl nc x n : Nat) :
    { (s.started i).ownMsg s.cur dst (ctlHC ctl) nc (ctlLen ctl) x with born := s.pkg.born + n } =
      ({ dst := dst, cls := ctl % 64, sent := ctl % 64, nc := nc, len := ctl / 2 ^ 16 % 2 ^ 7, payload := x % 2 ^ (8 * (ctl / 2 ^ 16 % 2 ^ 7)), hsrc := false,
         sender := s.senderBits s.cur, reason := 0, slot := s.slotOf (coreOf s.cur), pts := (s.ctx s.cur).ltime, bound := none, born := s.pkg.born + n,
         spilled := false } : Msg) := by
  rw [s.ownMsg_started, ctlHC_eq]; rfl

@[simp] theorem State.evqOf_started (s : State) (i : Instr) (n : Nat) : (s.started i).evqOf n = s.evqOf n := rfl

theorem sends : Parts.Sends := by
  unfold Parts.Sends
  intro s a b v h hf hsave k g dst ctl user len msg hm
  refine ⟨fun hc hb => ?_, fun hc hb => ?_⟩
  · have hsend := (s.trySend_issue a b v).trans (State.sendMould_sends h hf hsave hm hc hb)
    have hown := s.ownMsg_ctl (.send a b v) dst ctl (ctl / 2 ^ 8 % 8) (g.rv v).toNat 0
    have hkind : dstKind dst = dst / 2 ^ 62 := dstKind_word _
    let own := (s.started (.send a b v)).ownMsg k dst (ctlHC ctl) (ctlNC ctl) (ctlLen ctl) (g.rv v).toNat
    obtain ⟨hctxs, -, hmem, -⟩ := (s.started (.send a b v)).send_rest (m := own) rfl
    refine ⟨_, State.issue_gives_of_sameIssue h (exec_send a b v s) hsend (State.sameIssue_sendOwn ..) (by simp), hctxs, hmem,
      fun hk => ?_, fun hk => ?_, fun hk hroom => ?_⟩
    · rw [State.send_core _ (hkind ▸ hk)]
      exact ⟨congrArg (fun m => s.net ++ [m]) hown, congrArg (fun c => s.agenda ++ [.messageArrival c]) (dstCore_eq dst)⟩
    · rw [State.send_host _ (hkind.trans hk)]
      exact ⟨congrArg (fun m => s.net ++ [m]) hown, congrArg (fun n => s.agenda ++ [.hostMessage n]) (s.evqOf_started _ _)⟩
    · have hfifo := (s.started (.send a b v)).send_die_fifo (m := own) (d := dst / 2 ^ 9 % 8) (hkind.trans hk) rfl
      rw [State.started_die] at hfifo
      exact (hfifo hroom).trans (congrArg (fun m => (s.die (dst / 2 ^ 9 % 8)).fifo ++ [m]) hown)
  · have hsend := (s.trySendm_issue a b v).trans (State.sendMould_sends h hf hsave hm hc hb)
    obtain ⟨hmem, hnet⟩ := State.foldl_sendOwn k (ctlHC ctl) 5 (ctlLen ctl) (g.rv v).toNat (multiCluster dst * 16 + ·) _ (s.started (.sendm a b v))
      fun i hi => dstKind_multiCore dst (List.mem_range.1 (List.mem_filter.1 hi).1)
    rw [multiCores_eq] at hsend hnet hmem
    refine ⟨_, State.issue_gives_of_sameIssue h (exec_sendm a b v s) hsend
      (State.SameIssue.foldl (fun s i => s.sameIssue_sendOwn ..) _ _) (by simp), hmem, hnet.trans ?_⟩
    exact congrArg (s.net ++ ·) (List.map_congr_left fun n _ => s.ownMsg_ctl (.sendm a b v) _ ctl 5 (g.rv v).toNat n)

/-! ### The handler table, `HMASK` and the holds (R218, R222, R224) -/

/-- A class that is not the system's, or supervisor mode: the handler table's privilege check passes. -/
theorem notSystemClass {user : Bool} {cls : Nat} (h : user = false ∨ cls = 0 ∨ 3 < cls) : (user && decide (1 ≤ cls ∧ cls ≤ 3)) = false := by
  rcases h with rfl | rfl | h
  · rfl
  · simp
  · have : ¬(1 ≤ cls ∧ cls ≤ 3) := by omega
    rw [decide_eq_false this, Bool.and_false]

/-- The reserved bits of an entry's word and of a class number are clear. -/
theorem hsetWord_ok {w : Nat} (h : w < 2 ^ 11) (h' : w / 2 ^ 6 % 4 = 0) : (bits w 63 11 != 0 || bits w 7 6 != 0) = false := by
  have h11 : bits w 63 11 = 0 := by unfold bits; omega
  have h6 : bits w 7 6 = 0 := h'
  rw [h11, h6]; rfl

theorem classWord_ok {w : Nat} (h : w < 64) : (bits w 63 6 != 0) = false := by
  have h6 : bits w 63 6 = 0 := by unfold bits; omega
  rw [h6]; rfl

/-- The classes that a hold of the current context acts on: in user mode none of the system's (R218). -/
def State.holdWord (s : State) (a : Reg) : Word :=
  (s.ctx s.cur).regs.rs a &&& ~~~(if (!(s.ctx s.cur).sup) = true then 0xE else 0 : Word)

theorem State.holdBits_env (s : State) (i : Instr) (a : Reg) : (s.env i).holdBits (s.started i) a = (s.holdWord a).toNat := by
  rw [Env.holdBits, State.user_env, State.holdWord]
  cases (s.ctx s.cur).sup
  · rfl
  · exact congrArg BitVec.toNat (BitVec.and_allOnes).symm

theorem State.SameIssue.post {s t : State} {k : Nat} (h : s.SameIssue t k) (e : Event) : s.SameIssue (t.post e) k := h

/-- A change of a context's holds gives them the value that it has for the holds it finds. -/
theorem State.modCtx_hold (s : State) (k : Nat) {f : Nat → Nat} {n : Nat} (h : f (s.ctx k).hold = n) :
    (s.modCtx k fun z => { z with hold := f z.hold }) = s.modCtx k fun z => { z with hold := n } := by
  rw [State.modCtx_eq, State.modCtx_eq, h]

theorem State.started_hold (s : State) (i : Instr) : ((s.started i).ctx s.cur).hold = (s.ctx s.cur).hold := by rw [State.started_ctx]

theorem State.hold_adds (s : State) (i : Instr) (a : Reg) (h : (s.ctx s.cur).hold < 2 ^ 64) :
    ((s.started i).modCtx s.cur fun z => { z with hold := z.hold ||| (s.env i).holdBits (s.started i) a }) =
      (s.started i).modCtx s.cur fun z => { z with hold := (BitVec.ofNat 64 (s.ctx s.cur).hold ||| s.holdWord a).toNat } := by
  refine State.modCtx_hold _ _ (f := (· ||| (s.env i).holdBits (s.started i) a)) ?_
  rw [State.started_hold, State.holdBits_env, BitVec.toNat_or, BitVec.toNat_ofNat, Nat.mod_eq_of_lt h]

theorem State.rels_removes (s : State) (i : Instr) (a : Reg) :
    ((s.started i).modCtx s.cur fun z => { z with hold := (BitVec.ofNat 64 z.hold &&& ~~~BitVec.ofNat 64 ((s.env i).holdBits (s.started i) a)).toNat }) =
      (s.started i).modCtx s.cur fun z => { z with hold := (BitVec.ofNat 64 (s.ctx s.cur).hold &&& ~~~s.holdWord a).toNat } := by
  refine State.modCtx_hold _ _ (f := fun n => (BitVec.ofNat 64 n &&& ~~~BitVec.ofNat 64 ((s.env i).holdBits (s.started i) a)).toNat) ?_
  rw [State.started_hold, State.holdBits_env, BitVec.ofNat_toNat, BitVec.setWidth_eq]

theorem handlerTable : Parts.HandlerTable := by
  unfold Parts.HandlerTable
  intro s d a b h k c g x y w user keep old new
  refine ⟨?_, fun hw hres hm hpc => ?_, fun hx hm => ?_, ?_⟩
  · refine State.issue_gives_of_sameIssue h (exec_hmask d a b s) ?_ (.of_ctx rfl) (by simp [Wr.isTile])
    rw [State.user_env]
    rfl
  · refine State.issue_gives_of_sameIssue h (exec_hset d a b s) ?_ (.of_ctx rfl) (by simp)
    have hodd : ¬(s.env (.hset d a b)).n a % 2 = 1 := by
      have : (s.env (.hset d a b)).n a = x.toNat := rfl
      omega
    have hn : (s.env (.hset d a b)).n d = w := rfl
    have hclass : (!(s.ctx s.cur).sup && decide (1 ≤ w % 64 ∧ w % 64 ≤ 3)) = false := notSystemClass hm
    simp only [State.user_env, hn, hsetWord_ok hw hres, hclass, hodd, Bool.false_eq_true, if_false]
    rfl
  · refine State.issue_gives_of_sameIssue h (exec_hclr a s) ?_ (.of_ctx rfl) (by simp)
    have hn : (s.env (.hclr a)).n a = x.toNat := rfl
    have hclass : (!(s.ctx s.cur).sup && decide (1 ≤ x.toNat ∧ x.toNat ≤ 3)) = false :=
      notSystemClass (hm.imp_right (Or.imp_left (congrArg BitVec.toNat)))
    simp only [State.user_env, hn, classWord_ok hx, hclass, Bool.false_eq_true, if_false]
    rfl
  · intro mine bits_ hhold
    have hadd := s.hold_adds (.hold d a) a hhold
    have hremove := s.rels_removes (.rels d a) a
    refine ⟨⟨_, hadd ▸ ?_, rfl⟩, _, hremove ▸ ?_, rfl⟩
    · exact State.issue_gives_of_sameIssue h (exec_hold d a s) rfl (State.sameIssue_modCtx _ k (by intro; rfl) (by intro; rfl)) (by simp [Wr.isTile])
    · exact State.issue_gives_of_sameIssue h (exec_rels d a s) rfl (.post (State.sameIssue_modCtx _ k (by intro; rfl) (by intro; rfl)) _)
        (by simp [Wr.isTile])

/-! ### Times ahead (R275) -/

theorem State.reached_now (s : State) (d : Nat) : s.reached d (s.now d) = true := by
  unfold State.reached serialGe
  generalize s.now d = n
  exact decide_eq_true (by omega)

/-- A time that lies ahead by less than half a turn of the clock has not been reached. -/
theorem State.not_reached_ahead (s : State) (d : Nat) {x : Nat} (h : 0 < x) (h' : x < 2 ^ 63) : s.reached d (s.now d + x) = false := by
  unfold State.reached serialGe
  generalize s.now d = n
  exact decide_eq_false (by omega)

theorem State.deadline_short (s : State) (d : Nat) {t : Word} (h : t ≠ BitVec.allOnes 64) (h' : t.toNat < 2 ^ 47) :
    s.deadline d t = some (s.now d + t.toNat * 65536) := by
  rw [State.deadline, if_neg h, Nat.mod_eq_of_lt (by omega)]

/-! ### The mailbox (R218) -/

section Mailbox

variable {e : Env} {s : State} {d a b : Reg}

theorem tryMbxw_takes (hn : e.n a < 64) (hh : bit (s.ctx e.k).hold (e.n a) = true) {m : Msg} (ho : s.oldest e.core (e.n a) = some m) :
    tryMbxw d a b e s = .done [.v 0 m.image, .s d (BitVec.ofNat 64 m.info)] (((s.takeMsg e.core (e.n a)).acquire e.core).raisePts e.k m.pts) := by
  have hc : (decide (64 ≤ e.n a) || !bit (s.ctx e.k).hold (e.n a)) = false := by simp [hh, hn]
  simp only [tryMbxw, hc, ho, Bool.false_eq_true, if_false]

theorem tryMbxw_parks (hn : e.n a < 64) (hh : bit (s.ctx e.k).hold (e.n a) = true) (ho : s.oldest e.core (e.n a) = none)
    (ht : s.passed e.die (e.until s (e.s b)) = false) : tryMbxw d a b e s = parked (e.until s (e.s b)) [] s := by
  have hc : (decide (64 ≤ e.n a) || !bit (s.ctx e.k).hold (e.n a)) = false := by simp [hh, hn]
  simp only [tryMbxw, hc, ho, ht, Bool.false_eq_true, if_false]

theorem tryMbxw_notHeld (h : ¬(e.n a < 64 ∧ bit (s.ctx e.k).hold (e.n a) = true)) : tryMbxw d a b e s = illegal e s := by
  have hc : (decide (64 ≤ e.n a) || !bit (s.ctx e.k).hold (e.n a)) = true := by
    by_cases hn : e.n a < 64
    · simp [not_and.1 h hn]
    · simp [Nat.le_of_not_lt hn]
  simp only [tryMbxw, hc, if_true]

end Mailbox

/-- The movement of lines leaves every context in its state, with its windows. -/
theorem State.Coheres.sameIssue {s t : State} (h : s.Coheres t) (k : Nat) : s.SameIssue t k :=
  ⟨(congrArg Ctx.state (h.ctx k) :), (congrArg Ctx.win (h.ctx k) :)⟩

/-- So does taking a message, as an acquire. -/
theorem State.sameIssue_takeMsg (s : State) (k c cls pts : Nat) : s.SameIssue (((s.takeMsg c cls).acquire c).raisePts k pts) k :=
  .trans (t := s.takeMsg c cls) (.of_ctx rfl) (((s.takeMsg c cls).coheres_acquire c).trans (State.coheres_raisePts _ k pts) |>.sameIssue k)

/-- An attempt that waits without other effect leaves the instruction waiting. -/
theorem State.issue_begins {s : State} {i : Instr} {la : Nat} {f : Env → State → Att} {w : Wait} (h : s.Ready) (he : exec i s = s.issue i la f)
    (hf : f (s.env i) (s.started i) = .wait w (s.started i)) : s.Begins i (s.started i) la w := by
  rw [State.Begins, he]
  refine s.issue_waits _ i la f w h hf ?_ ?_ ?_ ?_ <;> rw [State.started_ctx]
  · exact h.1
  · exact h.2

/-! ### The end of a handler (R225) -/

/-- A change of the context whose instruction has been issued, on its own state. -/
theorem State.modCtx_started (s : State) (i : Instr) (f : Ctx → Ctx) :
    (s.started i).modCtx s.cur f = s.setCtx s.cur (f ((s.started i).ctx s.cur)) := State.setCtx_setCtx s s.cur _ _

/-- `HRET` in a handler frees its context, and the selector and the distributor have their turns. -/
theorem State.exec_hret_handler {s : State} (h : s.Ready) (hk : s.isHandler s.cur = true) :
    exec .hret s = .next (((s.setCtx s.cur ((s.started .hret).ctx s.cur).freed).post (.handlerStart (coreOf s.cur))).post
      (.distributorOffer (dieOf (coreOf s.cur)))) := by
  have hk' : (s.started .hret).isHandler s.cur = true := hk
  rw [exec_hret, execHret, State.issue_ready _ _ _ _ h, ← State.modCtx_started]
  simp only [State.env_k, hk', Bool.not_true, Bool.false_eq_true, if_false]
  rfl

theorem mailboxes : Parts.Mailboxes := by
  unfold Parts.Mailboxes
  intro s d a b h k c g cls i held
  have hexec : exec i s = s.issue i 0 (tryMbxw d a b) := exec_mbxw d a b s
  have hbit : bit ((s.started i).ctx k).hold cls = (s.ctx k).hold.testBit cls := by rw [State.started_hold, bit_eq_testBit]
  have hcls (hheld : held) : (s.env i).n a < 64 := hheld.1
  have hhold (hheld : held) : bit ((s.started i).ctx (s.env i).k).hold ((s.env i).n a) = true := hbit.trans hheld.2
  refine ⟨fun m hheld ho => ?_, fun hheld ho => ⟨fun hb => ?_, fun hb hb0 hlt => ?_, fun hb => ?_⟩, fun hheld he => ?_, fun hk => ?_, fun hk he => ?_⟩
  · exact State.issue_gives_of_sameIssue h hexec (tryMbxw_takes (hcls hheld) (hhold hheld) ho) (State.sameIssue_takeMsg _ k c cls m.pts)
      (by simp [Wr.isTile])
  · have huntil : (s.env i).until (s.started i) (g.rs b) = none := if_pos hb
    refine State.issue_begins h hexec ((tryMbxw_parks (hcls hheld) (hhold hheld) ho ?_).trans ?_)
    · exact congrArg ((s.started i).passed (dieOf c)) huntil
    · exact congrArg (parked · [] (s.started i)) huntil
  · have huntil : (s.env i).until (s.started i) (g.rs b) = some (s.now (dieOf c) + (g.rs b).toNat * 65536) := s.deadline_short (dieOf c) hb hlt
    have hpos : 0 < (g.rs b).toNat := Nat.pos_of_ne_zero fun h0 => hb0 (BitVec.eq_of_toNat_eq h0)
    refine State.issue_begins h hexec ((tryMbxw_parks (hcls hheld) (hhold hheld) ho ?_).trans ?_)
    · exact (congrArg ((s.started i).passed (dieOf c)) huntil).trans (s.not_reached_ahead (dieOf c) (by omega) (by omega))
    · exact congrArg (parked · [] (s.started i)) huntil
  · have huntil : (s.env i).until (s.started i) (g.rs b) = some (s.now (dieOf c)) := by
      rw [hb]; exact s.deadline_short (dieOf c) (by decide) (by decide)
    refine s.issue_sets i 0 _ _ h hexec (tryMbxw_timeout (hcls hheld) (hhold hheld) ho ?_) (by simp [Wr.isTile])
    exact (congrArg ((s.started i).passed (dieOf c)) huntil).trans (s.reached_now (dieOf c))
  · have hnot : ¬((s.env i).n a < 64 ∧ bit ((s.started i).ctx (s.env i).k).hold ((s.env i).n a) = true) := fun hh =>
      hheld ⟨hh.1, hbit.symm.trans hh.2⟩
    exact s.issue_traps i 0 _ false 0x01 i.word h he hexec (tryMbxw_notHeld hnot) nofun
  · refine ⟨_, State.exec_hret_handler h hk, ?_⟩
    have hctx := State.ctx_setCtx_same s k ((s.started .hret).ctx k).freed
    have hregs : ((s.started .hret).ctx k).freed.regs = (s.ctx k).regs := s.ctx_started .hret
    simp only [State.post_ctx]
    rw [hctx]
    exact ⟨rfl, hregs, rfl, rfl, congrArg (fun l => { (s.setCtx k ((s.started .hret).ctx k).freed) with agenda := l }) (List.append_assoc ..)⟩
  · refine s.issue_traps .hret 0 _ false 0x01 Instr.hret.word h he (exec_hret s) ?_ nofun
    have hk' : (s.started .hret).isHandler s.cur = false := hk
    simp only [State.env_k, hk', Bool.not_false, if_true]
    rfl

/-- Settles O37: each attempt is read off once its checks are decided. The release of a context that owes nothing changes nothing, so that a send only puts
its message on its way; no attempt that is done touches the state or the windows of its context, so that its instruction completes. -/
theorem messageInstructions : Obligations.MessageInstructions := by
  unfold Obligations.MessageInstructions
  exact ⟨sends, sendChecks, handlerTable, mailboxes⟩

end Sys2Proof.Machine

namespace Sys2Proof.Machine

/-! ### Bytes of a line in memory (R4) -/

/-- A byte of a number written over n bytes. -/
theorem Mem.read_writeN_in (m : Mem) (a n x b : Nat) (h : a ≤ b) (h' : b < a + n) :
    Mem.read (m.writeN a n x) b = BitVec.ofNat 8 (x / 2 ^ (8 * (b - a))) := by
  induction n generalizing m a x with
  | zero => omega
  | succ n ih =>
    rw [Mem.writeN]
    by_cases hb : b = a
    · subst hb
      rw [Mem.read_writeN_ne _ _ _ _ _ (.inl (Nat.lt_succ_self b)), Mem.read_write_same, Nat.sub_self]
      simp
    · have hp : 8 * (b - a) = 8 + 8 * (b - (a + 1)) := by omega
      rw [ih _ _ _ (by omega) (by omega), Nat.div_div_eq_div_mul, hp, Nat.pow_add]

/-- A line after it has been written whole: its bytes are those of the number. -/
theorem Mem.read_writeLine (m : Mem) (l x a : Nat) :
    Mem.read (m.writeN (l * 64) 64 x) a = if a / 64 = l then BitVec.ofNat 8 (x / 2 ^ (8 * (a % 64))) else Mem.read m a := by
  by_cases h : a / 64 = l
  · rw [if_pos h, Mem.read_writeN_in _ _ _ _ _ (by omega) (by omega), show a - l * 64 = a % 64 by omega]
  · rw [if_neg h, Mem.read_writeN_ne _ _ _ _ _ (by omega)]

theorem Mem.readN_lt (m : Mem) (a n : Nat) : m.readN a n < 256 ^ n := by
  induction n generalizing a with
  | zero => exact Nat.one_pos
  | succ n ih =>
    have hbyte := (m.read a).isLt
    have hrest := ih (a + 1)
    rw [Mem.readN, Nat.pow_succ]
    omega

/-! ### What folds and changes of dies leave -/

/-- Steps that each leave something as it is leave it together. -/
theorem foldl_keeps {σ α β : Type} {f : σ → α → σ} (g : σ → β) (h : ∀ s x, g (f s x) = g s) (l : List α) (s : σ) : g (l.foldl f s) = g s := by
  induction l generalizing s with
  | nil => rfl
  | cons x l ih => exact (ih _).trans (h s x)

/-- Steps none of which changes a state change it not at all. -/
theorem foldl_of_fixed {σ α : Type} {f : σ → α → σ} {s : σ} {l : List α} (h : ∀ x ∈ l, f s x = s) : l.foldl f s = s := by
  induction l with
  | nil => rfl
  | cons x l ih => rw [List.foldl_cons, h x (by simp)]; exact ih fun y hy => h y (by simp [hy])

/-- Of the steps of a list only one changes anything. -/
theorem foldl_of_only {σ α : Type} {f : σ → α → σ} {s : σ} {l : List α} {x : α} (hl : l.Nodup) (hx : x ∈ l) (before : ∀ y ∈ l, y ≠ x → f s y = s)
    (after : ∀ y ∈ l, y ≠ x → f (f s x) y = f s x) : l.foldl f s = f s x := by
  obtain ⟨a, b, rfl⟩ := List.append_of_mem hx
  have hne : ∀ y, y ∈ a ∨ y ∈ b → y ≠ x := by
    rintro y hy rfl
    obtain ⟨-, hb, hab⟩ := List.nodup_append.mp hl
    rcases hy with hy | hy
    · exact hab y hy y (by simp) rfl
    · exact (List.nodup_cons.mp hb).1 hy
  rw [List.foldl_append, foldl_of_fixed fun y hy => before y (by simp [hy]) (hne y (.inl hy)), List.foldl_cons,
    foldl_of_fixed fun y hy => after y (by simp [hy]) (hne y (.inr hy))]

/-- What a change of one die leaves of every die stays. -/
theorem State.die_modDie_keeps {α : Type} (g : Die → α) (s : State) (d : Nat) {f : Die → Die} (h : ∀ x, g (f x) = g x) (e : Nat) :
    g ((s.modDie d f).die e) = g (s.die e) := by
  by_cases he : e = d
  · subst he; rw [State.die_modDie_same, h]
  · rw [State.die_modDie_ne _ _ _ _ he]

theorem State.foldl_modCtx_die (ks : List Nat) (f : Ctx → Ctx) (s : State) (e : Nat) : (ks.foldl (fun s k => s.modCtx k f) s).die e = s.die e :=
  foldl_keeps (f := fun s k => State.modCtx s k f) (State.die · e) (fun _ _ => rfl) ks s

theorem State.foldl_modCtx_stamps (ks : List Nat) (f : Ctx → Ctx) (s : State) : (ks.foldl (fun s k => s.modCtx k f) s).stamps = s.stamps :=
  foldl_keeps (f := fun s k => State.modCtx s k f) State.stamps (fun _ _ => rfl) ks s

/-- A change made to each of some contexts, and that its repetition does not undo, has been made to every one of them. -/
theorem State.ctx_foldl_modCtx {α : Type} (g : Ctx → α) (f : Ctx → Ctx) {v : α} (h : ∀ c, g (f c) = v) {ks : List Nat} {k : Nat} (hk : k ∈ ks) (s : State) :
    g ((ks.foldl (fun s k => s.modCtx k f) s).ctx k) = v := by
  have hlast : ∀ (ks : List Nat) (s : State), g (s.ctx k) = v → g ((ks.foldl (fun s k => s.modCtx k f) s).ctx k) = v := by
    intro ks
    induction ks with
    | nil => exact fun _ hs => hs
    | cons j ks ih =>
      intro s hs
      refine ih _ ?_
      by_cases hj : k = j
      · subst hj; rw [State.ctx_modCtx_same, h]
      · rw [State.ctx_modCtx_ne _ _ _ _ hj, hs]
  induction ks generalizing s with
  | nil => cases hk
  | cons j ks ih =>
    rcases List.mem_cons.mp hk with rfl | hk
    · exact hlast ks _ (by rw [State.ctx_modCtx_same, h])
    · exact ih hk _

/-! ### The stamps of lines (R302) -/

theorem State.lineStamps_of_listed {s : State} {l : Nat} {x : Nat × Nat} (h : s.stamps.find l = some x) : s.lineStamps l = x := by
  rw [State.lineStamps, Tab.get_eq_find, h, Option.getD_some]

theorem State.stampWrite_wts (s : State) (l p : Nat) : (s.stampWrite l p).2 = (serialMax 24 p (s.lineStamps l).2 + 1) % 2 ^ 24 := rfl

/-- A stamp that is written moves nothing of a die but its home time. -/
theorem State.stampWrite_die_keeps {α : Type} (g : Die → α) (h : ∀ (x : Die) (p : Nat), g { x with home := p } = g x) (s : State) (l p e : Nat) :
    g ((s.stampWrite l p).1.die e) = g (s.die e) :=
  State.die_modDie_keeps g _ _ (fun x => h x _) e

/-! ### Write packets and write-backs (R281, R300, R302) -/

/-- A packet that is noted moves nothing of the dies but what its own die has sent, is owed and awaits reports of. -/
theorem State.notePacket_die_keeps {α : Type} (g : Die → α) (h : ∀ (x : Die) a b c, g { x with sent := a, owing := b, reports := c } = g x)
    (s : State) (d pa cls : Nat) (ks : List Nat) (wts : Nat) (r : Bool) (e : Nat) : g ((s.notePacket d pa cls ks wts r).die e) = g (s.die e) := by
  unfold State.notePacket
  extract_lets to_ t n at_ s1
  rw [State.foldl_modCtx_die]
  exact State.die_modDie_keeps g s d (fun x => h x _ _ _) e

theorem State.notePacket_stamps (s : State) (d pa cls : Nat) (ks : List Nat) (wts : Nat) (r : Bool) : (s.notePacket d pa cls ks wts r).stamps = s.stamps := by
  unfold State.notePacket
  extract_lets to_ t n at_ s1
  exact State.foldl_modCtx_stamps ks _ s1

/-- A packet to a home of the package is the next of its stream, and its writers' write sets take it. -/
theorem State.notePacket_numbered (s : State) (d pa cls : Nat) (ks : List Nat) (wts : Nat) (r : Bool) (h : s.local_ pa = true) :
    let to_ := homeDie pa * 8 + cls
    let n := (Tab.get 0 (s.die d).sent to_ + 1) % 2 ^ 32
    Tab.get 0 ((s.notePacket d pa cls ks wts r).die d).sent to_ = n ∧ ∀ k ∈ ks, ((s.notePacket d pa cls ks wts r).ctx k).writes.find to_ = some n := by
  intro to_ n
  unfold State.notePacket
  simp only [h, if_true]
  refine ⟨?_, fun k hk => State.ctx_foldl_modCtx (fun c : Ctx => c.writes.find to_) _ (fun c => Tab.find_put_same c.writes _ _) hk _⟩
  rw [State.foldl_modCtx_die, State.die_modDie_same]
  exact Tab.get_put_same _ _ _ _

@[simp] theorem State.dropL1_die (s : State) (l : Nat) (keep : Nat → L1Line → Bool) (e : Nat) : (s.dropL1 l keep).die e = s.die e := rfl
@[simp] theorem State.dropL1_stamps (s : State) (l : Nat) (keep : Nat → L1Line → Bool) : (s.dropL1 l keep).stamps = s.stamps := rfl
@[simp] theorem State.dropL1_ctx (s : State) (l : Nat) (keep : Nat → L1Line → Bool) (k : Nat) : (s.dropL1 l keep).ctx k = s.ctx k := rfl

/-- An owned line once it has been written home. -/
def Owned.written (o : Owned) : Owned := { o with dirty := false, writers := [] }

/-- The state in which the home has the bytes of an owned line with the stamps of a write, and its die's copy is clean. -/
def State.lineHome (s : State) (d l : Nat) (o : Owned) : State :=
  ({ (s.stampWrite l o.pts).1 with mem := s.mem.writeN (l * 64) 64 o.data } : State).modDie d fun x => { x with owned := x.owned.put l o.written }

theorem State.lineHome_mem (s : State) (d l : Nat) (o : Owned) : (s.lineHome d l o).mem = s.mem.writeN (l * 64) 64 o.data := rfl

theorem State.lineHome_stamps (s : State) (d l : Nat) (o : Owned) :
    (s.lineHome d l o).stamps = s.stamps.put l ((s.stampWrite l o.pts).2, (s.stampWrite l o.pts).2) := rfl

/-- Nothing of the dies moves with it but home times and what its die owns. -/
theorem State.lineHome_die_keeps {α : Type} (g : Die → α) (h : ∀ (x : Die) p, g { x with home := p } = g x) (h' : ∀ (x : Die) a, g { x with owned := a } = g x)
    (s : State) (d l : Nat) (o : Owned) (e : Nat) : g ((s.lineHome d l o).die e) = g (s.die e) := by
  rw [State.lineHome, State.die_modDie_keeps g _ _ (fun x => h' x _)]
  exact State.stampWrite_die_keeps g h s l o.pts e

theorem State.lineHome_owned (s : State) (d l : Nat) (o : Owned) : ((s.lineHome d l o).die d).owned.find l = some o.written := by
  rw [State.lineHome, State.die_modDie_same]
  exact Tab.find_put_same _ _ _

theorem State.lineHome_owned_ne (s : State) {d e : Nat} (l : Nat) (o : Owned) (h : e ≠ d) : ((s.lineHome d l o).die e).owned = (s.die e).owned := by
  rw [State.lineHome, State.die_modDie_ne _ _ _ _ h]
  exact State.stampWrite_die_keeps Die.owned (fun _ _ => rfl) s l o.pts e

theorem State.writeBack_dirty {s : State} {d l : Nat} {o : Owned} (ho : (s.die d).owned.find l = some o) (hd : o.dirty = true) :
    s.writeBack d l = ((s.lineHome d l o).notePacket d (l * 64) 0 o.writers (s.stampWrite l o.pts).2 true).dropL1 l
      fun c y => dieOf c != homeDie (l * 64) || y.outside := by
  simp only [State.writeBack, ho, hd, if_true]
  rfl

/-- A write-back changes nothing where its die owns no dirty copy of the line. -/
theorem State.writeBack_cases (s : State) (d l : Nat) :
    s.writeBack d l = s ∨ ∃ o, (s.die d).owned.find l = some o ∧ o.dirty = true := by
  cases ho : (s.die d).owned.find l with
  | none => exact .inl (by simp only [State.writeBack, ho])
  | some o =>
    cases hd : o.dirty with
    | false => exact .inl (by simp only [State.writeBack, ho, hd, Bool.false_eq_true, if_false])
    | true => exact .inr ⟨o, rfl, hd⟩

/-- A write-back moves no clock. -/
theorem State.writeBack_tclk (s : State) (d l e : Nat) : ((s.writeBack d l).die e).tclk = (s.die e).tclk := by
  rcases s.writeBack_cases d l with h | ⟨o, ho, hd⟩
  · rw [h]
  · rw [State.writeBack_dirty ho hd, State.dropL1_die, State.notePacket_die_keeps Die.tclk fun _ _ _ _ => rfl]
    exact State.lineHome_die_keeps Die.tclk (fun _ _ => rfl) (fun _ _ => rfl) s d l o e

/-- A write-back leaves what the other dies own. -/
theorem State.writeBack_owned_ne (s : State) {d e : Nat} (l : Nat) (h : e ≠ d) : ((s.writeBack d l).die e).owned = (s.die e).owned := by
  rcases s.writeBack_cases d l with hs | ⟨o, ho, hd⟩
  · rw [hs]
  · rw [State.writeBack_dirty ho hd, State.dropL1_die, State.notePacket_die_keeps Die.owned fun _ _ _ _ => rfl, State.lineHome_owned_ne _ _ _ h]

section WriteBack

variable {s : State} {d l : Nat} {o : Owned} (ho : (s.die d).owned.find l = some o) (hd : o.dirty = true)
include ho hd

theorem State.writeBack_read (a : Nat) :
    (s.writeBack d l).mem.read a = if a / 64 = l then BitVec.ofNat 8 (o.data / 2 ^ (8 * (a % 64))) else s.mem.read a := by
  rw [State.writeBack_dirty ho hd, State.dropL1_mem, State.notePacket_mem, State.lineHome_mem, Mem.read_writeLine]

theorem State.writeBack_owned : ((s.writeBack d l).die d).owned.find l = some o.written := by
  rw [State.writeBack_dirty ho hd, State.dropL1_die, State.notePacket_die_keeps Die.owned fun _ _ _ _ => rfl, State.lineHome_owned]

theorem State.writeBack_stamps : (s.writeBack d l).lineStamps l = ((s.stampWrite l o.pts).2, (s.stampWrite l o.pts).2) := by
  apply State.lineStamps_of_listed
  rw [State.writeBack_dirty ho hd, State.dropL1_stamps, State.notePacket_stamps, State.lineHome_stamps, Tab.find_put_same]

/-- The packet of a write-back is the next of its stream to the home (R281). -/
theorem State.writeBack_numbered (hl : s.local_ (l * 64) = true) :
    let to_ := homeDie (l * 64) * 8
    let n := (Tab.get 0 (s.die d).sent to_ + 1) % 2 ^ 32
    Tab.get 0 ((s.writeBack d l).die d).sent to_ = n ∧ ∀ k ∈ o.writers, ((s.writeBack d l).ctx k).writes.find to_ = some n := by
  intro to_ n
  have hsent : ((s.lineHome d l o).die d).sent = (s.die d).sent := State.lineHome_die_keeps Die.sent (fun _ _ => rfl) (fun _ _ => rfl) s d l o d
  obtain ⟨hnext, hwriters⟩ := (s.lineHome d l o).notePacket_numbered d (l * 64) 0 o.writers (s.stampWrite l o.pts).2 true hl
  rw [hsent] at hnext hwriters
  simp only [State.writeBack_dirty ho hd, State.dropL1_die, State.dropL1_ctx]
  exact ⟨hnext, hwriters⟩

end WriteBack

/-! ### What the passing of time leaves of a die (R31, R275, R517) -/

/-- A die over a time moves its two clocks and what its servo still has to do. -/
theorem Die.ran_keeps {α : Type} (g : Die → α) (h : ∀ (x : Die) a b c e f, g { x with cyc := a, phase := b, tclk := c, offset := e, slack := f } = g x)
    (x : Die) (t r : Nat) : g (x.ran t r) = g x := by
  have hslewed (u : Nat) : g (x.slewed t u) = g x := by
    unfold Die.slewed
    extract_lets w
    split
    · exact h x x.cyc x.phase _ x.offset _
    · exact h x x.cyc x.phase _ _ _
  have hcounted (y : Die) : g (y.counted t r) = g y := h y _ _ y.tclk y.offset y.slack
  unfold Die.ran
  split
  · exact (hcounted _).trans (hslewed _)
  · exact (hcounted _).trans (hslewed _)
  · exact hslewed _
  · rfl

theorem State.runTo_die_keeps {α : Type} (g : Die → α)
    (h : ∀ (x : Die) a b c e f, g { x with cyc := a, phase := b, tclk := c, offset := e, slack := f } = g x) (s : State) (d t e : Nat) :
    g ((s.runTo d t).die e) = g (s.die e) := by
  unfold State.runTo
  extract_lets n m
  split
  · rfl
  · exact foldl_keeps (fun s : State => g (s.die e)) (fun s i => State.die_modDie_keeps g s i (fun x => Die.ran_keeps g h x m 0) e) _ s

/-! ### Recalls (R300) -/

/-- A die's L1s keep no copy of a line that they drop. -/
theorem State.dropL1_find {s : State} {l c : Nat} {keep : Nat → L1Line → Bool} (h : ∀ y, keep c y = false) : ((s.dropL1 l keep).core c).l1.find l = none := by
  have hgone (t : Tab L1Line) : Tab.find (t.filter fun x => x.1 != l || keep c x.2) l = none := by
    simp [Tab.find, h]
  simp only [State.core, State.dropL1, Tab.get_eq_find,
    Tab.find_map fun e (x : Core) => { x with l1 := x.l1.filter fun (y : Nat × L1Line) => y.1 != l || keep e y.2 }]
  cases s.cores.find c with
  | none => rfl
  | some x => exact hgone x.l1

/-- The line leaves the die that owns it: dirty bytes reach the home, and neither its slices nor its L1s keep it. -/
def State.recallFrom (s : State) (d l : Nat) : State :=
  (((s.soak d l).writeBack d l).modDie d fun x => { x with owned := x.owned.del l }).dropL1 l fun c _ => dieOf c != d

theorem State.own_owned_ne (s : State) {d e : Nat} (l : Nat) (f : Nat → Nat) (ks : List Nat) (p : Nat) (h : e ≠ d) :
    ((s.own d l f ks p).die e).owned = (s.die e).owned := by
  rw [State.own, State.die_modDie_ne _ _ _ _ h]

theorem State.holdBytes_owned (s : State) (b : HeldBytes) (e : Nat) : ((s.holdBytes b).die e).owned = (s.die e).owned := by
  rw [State.holdBytes]
  exact State.die_modDie_keeps Die.owned _ _ (by intro; rfl) e

theorem State.soak_owned_ne (s : State) {d e : Nat} (l : Nat) (h : e ≠ d) : ((s.soak d l).die e).owned = (s.die e).owned := by
  refine foldl_keeps (fun s : State => (s.die e).owned) (fun s c => ?_) _ s
  split
  · rfl
  · dsimp only
    split
    · exact State.holdBytes_owned _ _ e
    · exact State.own_owned_ne _ l _ _ _ h

theorem State.recallFrom_owned_ne (s : State) {d e : Nat} (l : Nat) (h : e ≠ d) : ((s.recallFrom d l).die e).owned = (s.die e).owned := by
  rw [State.recallFrom, State.dropL1_die, State.die_modDie_ne _ _ _ _ h, State.writeBack_owned_ne _ _ h, State.soak_owned_ne _ _ h]

theorem State.recallFrom_owned_same (s : State) (d l : Nat) : ((s.recallFrom d l).die d).owned.find l = none := by
  rw [State.recallFrom, State.dropL1_die, State.die_modDie_same]
  exact Tab.find_del_same _ _

theorem State.recallFrom_l1 (s : State) {d c : Nat} (l : Nat) (h : dieOf c = d) : ((s.recallFrom d l).core c).l1.find l = none :=
  State.dropL1_find fun _ => by simp [h]

/-- A recall of a line that one die owns alone is its recall from that die. -/
theorem State.recall_eq_recallFrom {s : State} {d l : Nat} (hd : d < 8) (ho : ((s.die d).owned.find l).isSome = true)
    (hn : ∀ e, e < 8 → e ≠ d → (s.die e).owned.find l = none) : s.recall l = s.recallFrom d l := by
  unfold State.recall
  refine (foldl_of_only (x := d) List.nodup_range (List.mem_range.mpr hd) (fun e he hne => ?_) fun e he hne => ?_).trans (if_pos ho)
  · rw [hn e (List.mem_range.mp he) hne]; rfl
  · rw [if_pos ho]
    refine if_neg ?_
    change ¬(((s.recallFrom d l).die e).owned.find l).isSome = true
    rw [State.recallFrom_owned_ne _ _ hne, hn e (List.mem_range.mp he) hne]
    simp

theorem State.recallFrom_owned {s : State} {d l : Nat} (hn : ∀ e, e < 8 → e ≠ d → (s.die e).owned.find l = none) (e : Nat) (he : e < 8) :
    ((s.recallFrom d l).die e).owned.find l = none := by
  by_cases h : e = d
  · subst h; exact s.recallFrom_owned_same e l
  · rw [State.recallFrom_owned_ne _ _ h, hn e he h]

theorem State.recallFrom_mem (s : State) (d l : Nat) : (s.recallFrom d l).mem = ((s.soak d l).writeBack d l).mem := rfl

theorem State.recallFrom_stamps (s : State) (d l : Nat) : (s.recallFrom d l).stamps = ((s.soak d l).writeBack d l).stamps := rfl

theorem State.soak_clean {s : State} {d l : Nat} (h : s.dirtyCores d l = []) : s.soak d l = s := by
  rw [State.soak, h, List.foldl_nil]

/-- The dirty bytes of the one L1 that has some are written under ownership. -/
theorem State.soak_dirty {s : State} {d l c : Nat} {x : L1Line} (h : s.dirtyCores d l = [c]) (hx : (s.core c).l1.find l = some x)
    (hp : s.linePinned d x.key x.va = false) : s.soak d l = (s.cleaned c l).own d l (mergeBytes x.dirty x.data) x.writers x.pts := by
  have hp' : (s.cleaned c l).linePinned d x.key x.va = false := hp
  simp only [State.soak, h, List.foldl_cons, List.foldl_nil, hx, hp', Bool.false_eq_true, if_false]

/-- A line written under ownership is dirty there, with the new bytes. -/
theorem State.own_owned {s : State} {d l : Nat} {o : Owned} (ho : (s.die d).owned.find l = some o) (f : Nat → Nat) (ks : List Nat) (p : Nat) :
    ∃ o', ((s.own d l f ks p).die d).owned.find l = some o' ∧ o'.dirty = true ∧ o'.data = f o.data := by
  refine ⟨_, (congrArg (fun x : Die => x.owned.find l) (State.die_modDie_same _ _ _)).trans (Tab.find_put_same _ _ _), rfl, ?_⟩
  simp only [ho, Option.getD_some]

theorem linesGoHome : Parts.LinesGoHome := by
  unfold Parts.LinesGoHome
  intro s d l o hd ho hdirty hl home w to_ n clean
  refine ⟨?_, ?_, fun hn => ?_⟩
  · obtain ⟨hnext, hwriters⟩ := State.writeBack_numbered ho hdirty hl
    exact ⟨_, rfl, State.writeBack_read ho hdirty, State.writeBack_owned ho hdirty, State.writeBack_stamps ho hdirty, hnext, hwriters⟩
  · let s1 := s.runTo d (o.since + 1000 * 65536)
    have ho1 : (s1.die d).owned.find l = some o :=
      (congrArg (Tab.find · l) (State.runTo_die_keeps Die.owned (fun _ _ _ _ _ _ => rfl) s d _ d)).trans ho
    have hmem : s1.mem = s.mem := State.runTo_mem s d _
    refine ⟨s1.writeBack d l, ?_, fun a => ?_, State.writeBack_owned ho1 hdirty, fun e => s1.writeBack_tclk d l e⟩
    · simp only [exec_ownedLineTimeout, execOwnedLineTimeout, ho, hdirty, if_true]
      rfl
    · rw [State.writeBack_read ho1 hdirty, hmem]
  · have hx : exec (.recallLine l) s = .next (s.recallFrom d l) :=
      congrArg Host.Outcome.next (State.recall_eq_recallFrom hd (by rw [ho]; rfl) hn)
    refine ⟨fun hc => ⟨_, hx, fun a => ?_, ?_, State.recallFrom_owned hn, fun c hc => s.recallFrom_l1 l hc⟩,
      fun c x hc hf hp => ⟨_, hx, fun a => ?_, State.recallFrom_owned hn, fun c hc => s.recallFrom_l1 l hc⟩⟩
    · rw [State.recallFrom_mem, State.soak_clean hc, State.writeBack_read ho hdirty]
    · apply State.lineStamps_of_listed
      rw [State.recallFrom_stamps, State.soak_clean hc, State.writeBack_dirty ho hdirty, State.dropL1_stamps, State.notePacket_stamps,
        State.lineHome_stamps, Tab.find_put_same]
      rfl
    · obtain ⟨o', ho', hdirty', hdata⟩ := State.own_owned (s := s.cleaned c l) ho (mergeBytes x.dirty x.data) x.writers x.pts
      rw [State.recallFrom_mem, State.soak_dirty hc hf hp, State.writeBack_read ho' hdirty', hdata, State.own_mem, State.cleaned_mem]

/-! ### Renewals (R302) -/

/-- A renewed copy is the line of the home, under the stamps that the home now gives it. -/
theorem State.renew_lease (s : State) (d l p : Nat) :
    let st := s.lineStamps l
    let len := (s.die d).lease
    let rts := serialMax 24 st.2 (serialMax 24 ((st.1 + len) % 2 ^ 24) ((p + len) % 2 ^ 24))
    ((s.renew d l p).1.die d).guest.find l = some { data := s.homeLine l, wts := st.1, rts := rts } ∧ (s.renew d l p).1.lineStamps l = (st.1, rts) ∧
      (s.renew d l p).2 = serialMax 24 p st.1 := by
  intro st len rts
  refine ⟨?_, State.lineStamps_of_listed (Tab.find_put_same _ _ _), rfl⟩
  exact (congrArg (fun x : Die => x.guest.find l) (State.die_modDie_same _ _ _)).trans (Tab.find_put_same _ _ _)

/-- A renewal goes ahead between two dies that work. -/
theorem exec_renewal_guest {s : State} {k pa : Nat} (hl : s.local_ pa = true) (hh : homeDie pa ≠ dieOf (coreOf k))
    (hw : s.working (dieOf (coreOf k)) = true) (hw' : s.working (homeDie pa) = true) (ho : (s.die (dieOf (coreOf k))).owned.find (pa / 64) = none)
    (hg : (s.die (dieOf (coreOf k))).guest.find (pa / 64) ≠ none) :
    exec (.renewal k pa) s = .next ((s.renew (dieOf (coreOf k)) (pa / 64) (s.ctx k).ltime).1.raisePts k (s.renew (dieOf (coreOf k)) (pa / 64) (s.ctx k).ltime).2) := by
  have hgo : ¬(!s.local_ pa || homeDie pa == dieOf (coreOf k) || !s.working (dieOf (coreOf k)) || !s.working (homeDie pa) ||
      ((s.die (dieOf (coreOf k))).guest.find (pa / 64)).isNone || ((s.die (dieOf (coreOf k))).owned.find (pa / 64)).isSome) = true := by
    simp [hl, hh, hw, hw', ho, hg]
  rw [exec_renewal]
  exact if_neg hgo

/-! ### Tokens (R281, R282) -/

theorem mem_streamsTo {home n : Nat} : n ∈ streamsTo home ↔ n / 8 = home := by
  simp only [streamsTo, List.mem_map, List.mem_range]
  constructor
  · rintro ⟨cls, h, rfl⟩; omega
  · intro h; exact ⟨n % 8, Nat.mod_lt _ (by decide), by omega⟩

theorem nodup_streamsTo (home : Nat) : (streamsTo home).Nodup :=
  List.pairwise_map.mpr (List.nodup_range.imp fun hne h => hne (Nat.add_left_cancel h))

/-- A table that is updated at different numbers, at each by what it holds there or not at all, is at each of them as its own update leaves it. -/
theorem Tab.get_foldl_of_nodup {α β : Type} {d : α} {f : Tab α → β → Tab α} {at_ : β → Nat} (hinj : ∀ a b, at_ a = at_ b → a = b) {v : α → β → α}
    (hat : ∀ t n, Tab.get d (f t n) (at_ n) = v (Tab.get d t (at_ n)) n) (hne : ∀ t n j, j ≠ at_ n → Tab.get d (f t n) j = Tab.get d t j)
    {l : List β} (hl : l.Nodup) {n : β} (hn : n ∈ l) (t : Tab α) : Tab.get d (l.foldl f t) (at_ n) = v (Tab.get d t (at_ n)) n := by
  have hrest (l : List β) (h : n ∉ l) (t : Tab α) : Tab.get d (l.foldl f t) (at_ n) = Tab.get d t (at_ n) := by
    induction l generalizing t with
    | nil => rfl
    | cons m l ih =>
      rw [List.foldl_cons, ih (List.not_mem_of_not_mem_cons h), hne _ _ _ fun e => h (List.mem_cons.mpr (.inl (hinj n m e)))]
  induction l generalizing t with
  | nil => cases hn
  | cons m l ih =>
    obtain ⟨hm, hl⟩ := List.nodup_cons.mp hl
    rw [List.foldl_cons]
    rcases List.mem_cons.mp hn with rfl | hn'
    · rw [hrest l hm, hat]
    · rw [ih hl hn', hne _ _ _ fun e => hm (hinj n m e ▸ hn')]

/-- The counts of packets performed, once their home has reported them. -/
def tokensSeen (home src : Nat) (sent seen : Tab Nat) : Tab Nat :=
  (streamsTo home).foldl (fun t n => if (sent.find n).isSome then t.put (src * 64 + n) (Tab.get 0 sent n) else t) seen

theorem tokensSeen_get (home src : Nat) (sent seen : Tab Nat) {n x : Nat} (hn : n / 8 = home) (hx : sent.find n = some x) :
    Tab.get 0 (tokensSeen home src sent seen) (src * 64 + n) = x := by
  have h := Tab.get_foldl_of_nodup (d := 0) (at_ := fun n => src * 64 + n) (v := fun old n => if (sent.find n).isSome then Tab.get 0 sent n else old)
    (f := fun t n => if (sent.find n).isSome then t.put (src * 64 + n) (Tab.get 0 sent n) else t)
    (fun a b h => Nat.add_left_cancel h) (fun t n => ?_) (fun t n j hj => ?_) (nodup_streamsTo home) (mem_streamsTo.mpr hn) seen
  · rw [tokensSeen, h, hx, Tab.get_eq_find, hx]; rfl
  · split <;> simp
  · split
    · exact Tab.get_put_ne _ _ _ _ _ hj
    · rfl

/-- A die that a home owes no more tokens, and one that has seen the packets of another. -/
def Die.settledBy (x : Die) (home : Nat) : Die := { x with owing := x.owing.del home }
def Die.sees (x : Die) (home src : Nat) (sent : Tab Nat) : Die := { x with seen := tokensSeen home src sent x.seen }

/-- The home counts as seen what the die has sent it, and the report sets out. -/
def State.tokensReturned (s : State) (home src : Nat) : State :=
  let t := s.modDie src fun x => x.settledBy home
  (if home < 8 then t.modDie home fun x => x.sees home src (s.die src).sent else t).post (.tokenArrival home src)

theorem exec_tokenReturn_d0 {s : State} {home : Nat} (src : Nat) (h : home < 8 → (s.die home).power = .d0) :
    exec (.tokenReturn home src) s = .next (s.tokensReturned home src) := by
  rw [exec_tokenReturn]
  refine if_neg ?_
  by_cases hh : home < 8
  · simp [h hh]
  · simp [hh]

theorem exec_tokenReturn_asleep {s : State} {home : Nat} (src : Nat) (hh : home < 8) (h : (s.die home).power ≠ .d0) :
    exec (.tokenReturn home src) s = .next s := by
  rw [exec_tokenReturn]
  exact if_pos (by simp [hh, h])

theorem State.SameRoots.post {s t : State} (h : s.SameRoots t) (e : Event) : s.SameRoots (t.post e) := fun d => h d

theorem State.sameRoots_tokensReturned (s : State) (home src : Nat) : s.SameRoots (s.tokensReturned home src) := by
  unfold State.tokensReturned
  refine .post (.trans (.modDie s src (f := fun x => x.settledBy home) fun _ => rfl) ?_) _
  split
  · exact .modDie _ home (by intro; rfl)
  · exact .refl _

theorem State.tokensReturned_rest (s : State) (home src : Nat) :
    s.tokensReturned home src = { s with dies := (s.tokensReturned home src).dies, agenda := s.agenda ++ [.tokenArrival home src] } := by
  unfold State.tokensReturned
  dsimp only
  split <;> rfl

theorem State.tokensReturned_owing (s : State) (home src : Nat) : ((s.tokensReturned home src).die src).owing.find home = none := by
  have hsettled : ((s.modDie src fun x => x.settledBy home).die src).owing.find home = none := by
    rw [State.die_modDie_same]; exact Tab.find_del_same _ _
  unfold State.tokensReturned
  simp only [State.post_die]
  split
  · rw [State.die_modDie_keeps Die.owing _ home (f := fun x => x.sees home src (s.die src).sent) fun _ => rfl, hsettled]
  · exact hsettled

theorem State.tokensReturned_seen (s : State) {home : Nat} (src : Nat) {n x : Nat} (hh : home < 8) (hn : n / 8 = home)
    (hx : (s.die src).sent.find n = some x) : Tab.get 0 ((s.tokensReturned home src).die home).seen (src * 64 + n) = x := by
  unfold State.tokensReturned
  simp only [hh, if_true, State.post_die, State.die_modDie_same]
  exact tokensSeen_get home src _ _ hn hx

/-- The numbers of packets that a die counts as performed, once a report of so many has come. -/
def tokensAcked (home : Nat) (seen : Nat → Nat) (acked : Tab Nat) : Tab Nat :=
  (streamsTo home).foldl (fun t n => let old := Tab.get 0 t n; if serialGe 32 old (seen n) then t else t.put n (seen n)) acked

theorem tokensAcked_get (home : Nat) (seen : Nat → Nat) (acked : Tab Nat) {n : Nat} (hn : n / 8 = home) :
    Tab.get 0 (tokensAcked home seen acked) n = if serialGe 32 (Tab.get 0 acked n) (seen n) then Tab.get 0 acked n else seen n := by
  refine Tab.get_foldl_of_nodup (d := 0) (at_ := fun n => n) (v := fun old n => if serialGe 32 old (seen n) then old else seen n)
    (fun a b h => h) (fun t n => ?_) (fun t n j hj => ?_) (nodup_streamsTo home) (mem_streamsTo.mpr hn) acked
  · dsimp only
    split
    · rfl
    · exact Tab.get_put_same _ _ _ _
  · dsimp only
    split
    · rfl
    · exact Tab.get_put_ne _ _ _ _ _ hj

/-- Reports to contexts raise the pts of each by those that are its own, in their order. -/
theorem State.foldl_raisePts_ctx (l : List Report) (s : State) (k : Nat) :
    (l.foldl (fun s r => s.raisePts r.ctx r.wts) s).ctx k =
      { s.ctx k with ltime := (l.filter fun r => r.ctx == k).foldl (fun p r => serialMax 24 p r.wts) (s.ctx k).ltime } := by
  induction l generalizing s with
  | nil => rfl
  | cons r l ih =>
    rw [List.foldl_cons, ih]
    by_cases h : r.ctx = k
    · subst h
      rw [List.filter_cons_of_pos (by simp), State.raisePts, State.ctx_modCtx_same, List.foldl_cons]
    · rw [List.filter_cons_of_neg (by simpa using h), State.raisePts, State.ctx_modCtx_ne _ _ _ _ (Ne.symm h)]

theorem State.foldl_raisePts_die (l : List Report) (s : State) (e : Nat) : (l.foldl (fun s r => s.raisePts r.ctx r.wts) s).die e = s.die e :=
  foldl_keeps (f := fun s (r : Report) => State.raisePts s r.ctx r.wts) (State.die · e) (fun _ _ => rfl) l s

/-- What has been reported to a die of a stream (R281): by a home of the package, or by another package all that it was sent. -/
def State.tokenCount (s : State) (home src n : Nat) : Nat :=
  if home < 8 then Tab.get 0 (s.die home).seen (src * 64 + n) else Tab.get 0 (s.die src).sent n

/-- The report of a packet has come with those of a home. -/
def State.tokenCovers (s : State) (home src : Nat) (r : Report) : Bool :=
  (streamsTo home).contains r.dst && serialGe 32 (s.tokenCount home src r.dst) r.no

/-- The die once it has counted what a home reports. -/
def State.tokensArrived (s : State) (home src : Nat) : State :=
  s.modDie src fun x =>
    { x with acked := tokensAcked home (s.tokenCount home src) (s.die src).acked, reports := x.reports.filter fun r => !s.tokenCovers home src r }

theorem exec_tokenArrival_counts (s : State) (home src : Nat) :
    exec (.tokenArrival home src) s =
      .next (((s.die src).reports.filter (s.tokenCovers home src)).foldl (fun s r => s.raisePts r.ctx r.wts) (s.tokensArrived home src)) := rfl

theorem State.tokenCovers_eq (s : State) (home src : Nat) (r : Report) :
    s.tokenCovers home src r = (decide (r.dst / 8 = home) && serialGe 32 (s.tokenCount home src r.dst) r.no) := by
  have h : (streamsTo home).contains r.dst = decide (r.dst / 8 = home) := by
    rw [Bool.eq_iff_iff, List.contains_iff_mem, mem_streamsTo, decide_eq_true_iff]
  rw [State.tokenCovers, h]

theorem State.ctx_tokensArrived (s : State) (home src k : Nat) : (s.tokensArrived home src).ctx k = s.ctx k :=
  State.ctx_modDie s src (by intro; rfl) k

theorem State.tokensArrived_acked (s : State) (home src : Nat) {n : Nat} (hn : n / 8 = home) :
    let old := Tab.get 0 (s.die src).acked n
    Tab.get 0 ((s.tokensArrived home src).die src).acked n = if serialGe 32 old (s.tokenCount home src n) then old else s.tokenCount home src n := by
  rw [State.tokensArrived, State.die_modDie_same]
  exact tokensAcked_get home _ _ hn

theorem State.tokensArrived_reports (s : State) (home src : Nat) {r : Report} (h : r ∈ ((s.tokensArrived home src).die src).reports)
    (hr : r.dst / 8 = home) : serialGe 32 (s.tokenCount home src r.dst) r.no = false := by
  rw [State.tokensArrived, State.die_modDie_same] at h
  have hnot := (List.mem_filter.mp h).2
  rw [State.tokenCovers_eq, decide_eq_true hr] at hnot
  simpa using hnot

theorem renewalsAndTokens : Parts.RenewalsAndTokens := by
  unfold Parts.RenewalsAndTokens
  intro s
  refine ⟨?_, fun home src hd0 => ?_, fun home src hh hp => exec_tokenReturn_asleep src hh hp, ?_⟩
  · intro k pa d l home p st len rts hl hne hp hlost hp' hlost' ho hg
    have hw : s.working d = true := by simp [State.working, hp, hlost]
    have hw' : s.working home = true := by simp [State.working, hp', hlost']
    obtain ⟨hguest, hstamps, hpts⟩ := s.renew_lease d l p
    have hctx := (s.sameLines_renew d l p 0).ctx
    refine ⟨_, exec_renewal_guest hl hne hw hw' ho hg, hguest, hstamps, ?_, fun j hj => ?_, s.renew_mem d l p⟩
    · rw [State.raisePts, State.ctx_modCtx_same, hctx, hpts]
    · rw [State.raisePts, State.ctx_modCtx_ne _ _ _ _ hj, hctx]
  · have hrest := s.tokensReturned_rest home src
    refine ⟨_, exec_tokenReturn_d0 src hd0, by rw [hrest], s.tokensReturned_owing home src, fun k => ?_, by rw [hrest], fun cls n hh hcls hx => ?_⟩
    · exact (s.sameRoots_tokensReturned home src).ctx (by rw [hrest]) k
    · rw [Nat.add_assoc]
      exact s.tokensReturned_seen src hh (by omega) hx
  · intro home src seen due
    have hdue : (s.die src).reports.filter (s.tokenCovers home src) = due := List.filter_congr fun r _ => s.tokenCovers_eq home src r
    refine ⟨_, exec_tokenArrival_counts s home src, fun cls hcls => ?_, fun r hr hdst => ?_, fun k => ?_, ?_⟩
    · rw [State.foldl_raisePts_die]
      exact s.tokensArrived_acked home src (by omega)
    · rw [State.foldl_raisePts_die] at hr
      exact s.tokensArrived_reports home src hr hdst
    · rw [State.foldl_raisePts_ctx, State.ctx_tokensArrived, hdue]
    · exact foldl_keeps (f := fun s (r : Report) => State.raisePts s r.ctx r.wts) State.mem (fun _ _ => rfl) _ (s.tokensArrived home src)

/-! ### Copies that lag (R305) -/

/-- No L1 holds a dirty byte. -/
def State.Clean (s : State) : Prop := ∀ c, ∀ e ∈ (s.core c).l1, e.2.dirty = 0

/-- A stamp lags a home time by less than 2^22. -/
def inStep (w h : Nat) : Bool := decide (stampLag w h < 2 ^ 22)

/-- A die without the guest copies that lag a home time. -/
def Die.discards (x : Die) (h : Nat) : Die := { x with guest := x.guest.filter fun e => inStep e.2.rts h }

theorem Die.discards_floor (x : Die) (h : Nat) : (x.discards h).floor = x.floor := rfl

/-- The L1 of a core without the guest copies that lag the home time of its die d. -/
def l1InStep (d h c : Nat) (t : Tab L1Line) : Tab L1Line :=
  if dieOf c = d then t.filter fun y => !(y.2.guest && decide (2 ^ 22 ≤ stampLag y.2.rts h)) else t

theorem mem_of_l1InStep {d h c : Nat} {t : Tab L1Line} {e : Nat × L1Line} (he : e ∈ l1InStep d h c t) : e ∈ t := by
  unfold l1InStep at he
  split at he
  · exact (List.mem_filter.mp he).1
  · exact he

theorem State.Clean.of_core {s t : State} (h : s.Clean) (hc : ∀ c, t.core c = s.core c) : t.Clean := fun c e he => h c e (hc c ▸ he)

theorem State.Clean.modDie {s : State} (h : s.Clean) (d : Nat) {f : Die → Die} (hf : ∀ x, (f x).roots = x.roots) : (s.modDie d f).Clean :=
  h.of_core fun c => (State.SameRoots.modDie s d hf).core rfl c

/-- With nothing to write back, a die only drops the guest copies that lag. -/
theorem State.discardGuests_clean {s : State} (h : s.Clean) (d : Nat) :
    s.discardGuests d = { s.modDie d fun x => x.discards (s.die d).home with
      cores := s.cores.map fun (e : Nat × Core) => (e.1, { e.2 with l1 := l1InStep d (s.die d).home e.1 e.2.l1 }) } := by
  unfold State.discardGuests
  extract_lets home lags s1 s2
  have hs : s1 = s := foldl_of_fixed fun c _ => State.spillIf_clean (h c) _
  have hcores : (s2.cores.map fun (e : Nat × Core) => if dieOf e.1 = d then (e.1, { e.2 with l1 := e.2.l1.filter fun y => !lags y.2 }) else e) =
      s.cores.map fun (e : Nat × Core) => (e.1, { e.2 with l1 := l1InStep d home e.1 e.2.l1 }) := by
    have h2 : s2.cores = s.cores := (congrArg State.cores hs : s1.cores = s.cores)
    rw [h2]
    refine List.map_congr_left fun e _ => ?_
    by_cases he : dieOf e.1 = d
    · rw [if_pos he, l1InStep, if_pos he]
    · rw [if_neg he, l1InStep, if_neg he]
  have h2 : s2 = s.modDie d fun x => x.discards home := congrArg (State.modDie · d fun x => x.discards home) hs
  rw [hcores, h2]

section Discard

variable {s : State} (h : s.Clean)
include h

theorem State.discardGuests_die (d e : Nat) : (s.discardGuests d).die e = if e = d then (s.die d).discards (s.die d).home else s.die e := by
  rw [State.discardGuests_clean h]
  change (s.modDie d fun x => x.discards (s.die d).home).die e = _
  by_cases he : e = d
  · subst he; rw [State.die_modDie_same, if_pos rfl]
  · rw [State.die_modDie_ne _ _ _ _ he, if_neg he]

/-- Nothing of the dies goes with them. -/
theorem State.discardGuests_die_keeps {α : Type} (g : Die → α) (hg : ∀ (x : Die) a, g { x with guest := a } = g x) (d e : Nat) :
    g ((s.discardGuests d).die e) = g (s.die e) := by
  rw [State.discardGuests_die h]
  split
  · rename_i he; rw [he]; exact hg _ _
  · rfl

theorem State.discardGuests_stamps (d : Nat) : (s.discardGuests d).stamps = s.stamps := by rw [State.discardGuests_clean h]; rfl

theorem State.discardGuests_mem (d : Nat) : (s.discardGuests d).mem = s.mem := by rw [State.discardGuests_clean h]; rfl

theorem State.discardGuests_ctxs (d : Nat) : (s.discardGuests d).ctxs = s.ctxs := by rw [State.discardGuests_clean h]; rfl

theorem State.Clean.discardGuests (d : Nat) : (s.discardGuests d).Clean := by
  have h1 : (s.modDie d fun x => x.discards (s.die d).home).Clean := h.modDie d fun _ => rfl
  rw [State.discardGuests_clean h]
  intro c e he
  rcases State.core_map (s.modDie d fun x => x.discards (s.die d).home) (fun c x => { x with l1 := l1InStep d (s.die d).home c x.l1 }) c with hc | hc
  · exact h1 c e (mem_of_l1InStep ((congrArg Core.l1 hc) ▸ he))
  · exact h1 c e ((congrArg Core.l1 hc) ▸ he)

/-- What the dies up to the n-th discard, one after the other. -/
theorem State.foldl_discardGuests (n : Nat) : ((List.range n).foldl State.discardGuests s).Clean ∧
    (∀ e, ((List.range n).foldl State.discardGuests s).die e = if e < n then (s.die e).discards (s.die e).home else s.die e) ∧
    ((List.range n).foldl State.discardGuests s).stamps = s.stamps ∧ ((List.range n).foldl State.discardGuests s).mem = s.mem := by
  induction n with
  | zero => exact ⟨h, fun _ => rfl, rfl, rfl⟩
  | succ n ih =>
    obtain ⟨hclean, hdie, hstamps, hmem⟩ := ih
    rw [List.range_succ, List.foldl_append, List.foldl_cons, List.foldl_nil]
    refine ⟨hclean.discardGuests n, fun e => ?_, ?_, ?_⟩
    · rw [State.discardGuests_die hclean]
      by_cases he : e = n
      · subst he; rw [if_pos rfl, if_pos (Nat.lt_succ_self e), hdie, if_neg (Nat.lt_irrefl e)]
      · rw [if_neg he, hdie]
        have : e < n + 1 ↔ e < n := by omega
        simp only [this]
    · exact (State.discardGuests_stamps hclean n).trans hstamps
    · exact (State.discardGuests_mem hclean n).trans hmem

end Discard

/-- The copies that a die keeps do not lag its home time. -/
theorem Die.discards_inStep (x : Die) : ∀ e ∈ (x.discards x.home).guest, stampLag e.2.rts (x.discards x.home).home < 2 ^ 22 :=
  fun _ he => of_decide_eq_true (List.mem_filter.mp he).2

/-! ### The stamps that a home visits (R305) -/

/-- Stamps after a visit at a home time. -/
def visitedAt (h : Nat) (x : Nat × Nat) : Nat × Nat := if 2 ^ 22 ≤ stampLag x.1 h then (h, h) else x

theorem State.lineStamps_congr {s t : State} (l : Nat) (hs : t.stamps = s.stamps) (hf : (t.die (homeDie (l * 64))).floor = (s.die (homeDie (l * 64))).floor) :
    t.lineStamps l = s.lineStamps l := by
  have hf' : (t.die (bits (l * 64) 38 36)).floor = (s.die (bits (l * 64) 38 36)).floor := hf
  simp only [State.lineStamps, hs, hf']

/-- The listed stamps after a home's visit. -/
def stampsVisited (d h : Nat) (t : Tab (Nat × Nat)) : Tab (Nat × Nat) :=
  t.map fun e => (e.1, if homeDie (e.1 * 64) = d then visitedAt h e.2 else e.2)

/-- The stamps that unlisted lines have after it. -/
def Die.floorVisited (x : Die) (h : Nat) : Die := { x with floor := if inStep x.floor h then x.floor else h }

theorem Die.floorVisited_floor (x : Die) (h : Nat) : ((x.floorVisited h).floor, (x.floorVisited h).floor) = visitedAt h (x.floor, x.floor) := by
  by_cases hl : 2 ^ 22 ≤ stampLag x.floor h
  · have hf : inStep x.floor h = false := decide_eq_false (Nat.not_lt.mpr hl)
    simp only [Die.floorVisited, hf, visitedAt, if_pos hl, Bool.false_eq_true, if_false]
  · have hf : inStep x.floor h = true := decide_eq_true (Nat.not_le.mp hl)
    simp only [Die.floorVisited, hf, visitedAt, if_neg hl, if_true]

theorem State.visitLines_eq (s : State) (d : Nat) :
    s.visitLines d = ({ s with stamps := stampsVisited d (s.die d).home s.stamps } : State).modDie d fun x => x.floorVisited (s.die d).home := by
  unfold State.visitLines
  extract_lets h fresh moved
  have hm : moved = stampsVisited d h s.stamps := by
    refine List.map_congr_left fun e _ => ?_
    by_cases hd : homeDie (e.1 * 64) = d
    · by_cases hl : 2 ^ 22 ≤ stampLag e.2.1 h
      · have hf : fresh e.2.1 = false := decide_eq_false (Nat.not_lt.mpr hl)
        simp only [hd, hf, visitedAt, if_pos hl, decide_true, Bool.not_false, Bool.and_self, if_true]
      · have hf : fresh e.2.1 = true := decide_eq_true (Nat.not_le.mp hl)
        simp only [hd, hf, visitedAt, if_neg hl, Bool.not_true, Bool.and_false, Bool.false_eq_true, if_false, if_true]
    · simp only [hd, decide_false, Bool.false_and, Bool.false_eq_true, if_false]
  rw [hm]
  rfl

theorem State.visitLines_mem (s : State) (d : Nat) : (s.visitLines d).mem = s.mem := by rw [State.visitLines_eq]; rfl

theorem State.visitLines_ctxs (s : State) (d : Nat) : (s.visitLines d).ctxs = s.ctxs := by rw [State.visitLines_eq]; rfl

/-- A visit of a home reaches the stamps of its lines, listed or not. -/
theorem State.visitLines_lineStamps (s : State) {d l : Nat} (h : homeDie (l * 64) = d) :
    (s.visitLines d).lineStamps l = visitedAt (s.die d).home (s.lineStamps l) := by
  have hbits : bits (l * 64) 38 36 = d := h
  have hdie : (({ s with stamps := stampsVisited d (s.die d).home s.stamps } : State).modDie d fun x => x.floorVisited (s.die d).home).die d =
      (s.die d).floorVisited (s.die d).home := State.die_modDie_same _ _ _
  have hfind : (stampsVisited d (s.die d).home s.stamps).find l = (s.stamps.find l).map (visitedAt (s.die d).home) := by
    rw [stampsVisited, Tab.find_map fun e x => if homeDie (e * 64) = d then visitedAt (s.die d).home x else x]
    simp only [h, if_true]
  rw [State.visitLines_eq]
  simp only [State.lineStamps, hbits, hdie, State.modDie_stamps, Tab.get_eq_find, hfind]
  cases s.stamps.find l with
  | some x => rfl
  | none => exact (s.die d).floorVisited_floor (s.die d).home

theorem State.visitLines_die_keeps {α : Type} (g : Die → α) (h : ∀ (x : Die) a, g { x with floor := a } = g x) (s : State) (d e : Nat) :
    g ((s.visitLines d).die e) = g (s.die e) := by
  rw [State.visitLines_eq]
  exact State.die_modDie_keeps g _ d (fun x => h x _) e

theorem State.Clean.visitLines {s : State} (h : s.Clean) (d : Nat) : (s.visitLines d).Clean := by
  rw [State.visitLines_eq]
  exact State.Clean.modDie (s := { s with stamps := stampsVisited d (s.die d).home s.stamps }) h d fun _ => rfl

theorem State.ctx_of_find {s : State} {k : Nat} {c : Ctx} (h : s.ctxs.find k = some c) : s.ctx k = c := by
  rw [State.ctx, Tab.get_eq_find, h, Option.getD_some]

/-! ### Ticks (R303, R305) -/

/-- A die after a tick. -/
def Die.ticked (x : Die) (h n : Nat) : Die := { x with home := h, nextTick := n }

/-- A context of a die at which the home time becomes h. -/
def Ctx.ticked (c : Ctx) (h : Nat) : Ctx := { c with ltime := tickPts h c.ltime }

/-- Every pts of a die moves on as its home time becomes h. -/
def State.tickCtxs (s : State) (die h : Nat) : State :=
  { s with ctxs := s.ctxs.map fun e => (e.1, if dieOf (coreOf e.1) = die then e.2.ticked h else e.2) }

/-- The clock runs to a die's tick at time t, and its home time, which becomes h, and every pts of it move on; the next tick is due at n. -/
def State.ticked (s : State) (die t h n : Nat) : State := ((s.runTo die t).modDie die fun x => x.ticked h n).tickCtxs die h

theorem State.tickCtxs_die (s : State) (die h e : Nat) : (s.tickCtxs die h).die e = s.die e := rfl

theorem State.runTo_ctxs (s : State) (d t : Nat) : (s.runTo d t).ctxs = s.ctxs := by rw [State.runTo_rest]

theorem State.runTo_stamps (s : State) (d t : Nat) : (s.runTo d t).stamps = s.stamps := by rw [State.runTo_rest]

section Tick

variable (s : State) (die t h n : Nat)

theorem State.ticked_die : (s.ticked die t h n).die die = ((s.runTo die t).die die).ticked h n := by
  rw [State.ticked, State.tickCtxs_die, State.die_modDie_same]

theorem State.ticked_die_keeps {α : Type} (g : Die → α) (hg : ∀ (x : Die) a b, g { x with home := a, nextTick := b } = g x) (e : Nat) :
    g ((s.ticked die t h n).die e) = g ((s.runTo die t).die e) := by
  rw [State.ticked, State.tickCtxs_die]
  exact State.die_modDie_keeps g _ die (fun x => hg x _ _) e

theorem State.ticked_mem : (s.ticked die t h n).mem = s.mem := s.runTo_mem die t

theorem State.ticked_lineStamps (l : Nat) : (s.ticked die t h n).lineStamps l = s.lineStamps l := by
  refine State.lineStamps_congr l (s.runTo_stamps die t) ?_
  rw [State.ticked_die_keeps s die t h n Die.floor fun _ _ _ => rfl]
  exact State.runTo_die_keeps Die.floor (fun _ _ _ _ _ _ => rfl) s die _ _

theorem State.ticked_ctxs (k : Nat) :
    (s.ticked die t h n).ctxs.find k = (s.ctxs.find k).map fun c => if dieOf (coreOf k) = die then c.ticked h else c := by
  rw [← s.runTo_ctxs die t]
  exact Tab.find_map (fun e (c : Ctx) => if dieOf (coreOf e) = die then c.ticked h else c) _ k

theorem State.Clean.ticked {s : State} (hs : s.Clean) (die t h n : Nat) : (s.ticked die t h n).Clean := by
  have hrun : (s.runTo die t).Clean := hs.of_core (s.runTo_core die t)
  exact hrun.modDie die (f := fun x => x.ticked h n) fun _ => rfl

/-- The die after a tick: its home has visited its lines and shards, and the copies that lag are gone. -/
def State.afterTick (s : State) (die t h n : Nat) : State := (((s.ticked die t h n).visitLines die).visitShards die).discardGuests die

end Tick

section AfterTick

variable {s : State} (hs : s.Clean) (die t h n : Nat)
include hs

theorem State.Clean.visited : (((s.ticked die t h n).visitLines die).visitShards die).Clean := (hs.ticked die t h n).visitLines die

theorem State.afterTick_die_keeps {α : Type} (g : Die → α) (hg : ∀ (x : Die) a, g { x with guest := a } = g x)
    (hf : ∀ (x : Die) a, g { x with floor := a } = g x) (e : Nat) : g ((s.afterTick die t h n).die e) = g ((s.ticked die t h n).die e) :=
  (State.discardGuests_die_keeps (hs.visited die t h n) g hg die e).trans (State.visitLines_die_keeps g hf (s.ticked die t h n) die e)

theorem State.afterTick_inStep : ∀ e ∈ ((s.afterTick die t h n).die die).guest, stampLag e.2.rts ((s.afterTick die t h n).die die).home < 2 ^ 22 := by
  intro e he
  rw [State.afterTick, State.discardGuests_die (hs.visited die t h n), if_pos rfl] at he ⊢
  exact Die.discards_inStep _ e he

theorem State.afterTick_mem : (s.afterTick die t h n).mem = s.mem :=
  (State.discardGuests_mem (hs.visited die t h n) die).trans ((State.visitLines_mem _ die).trans (s.ticked_mem die t h n))

theorem State.afterTick_lineStamps {l : Nat} (hl : homeDie (l * 64) = die) : (s.afterTick die t h n).lineStamps l = visitedAt h (s.lineStamps l) := by
  have hstamps : (s.afterTick die t h n).lineStamps l = ((s.ticked die t h n).visitLines die).lineStamps l :=
    State.lineStamps_congr l (State.discardGuests_stamps (hs.visited die t h n) die)
      (State.discardGuests_die_keeps (hs.visited die t h n) Die.floor (fun _ _ => rfl) die _)
  rw [hstamps, State.visitLines_lineStamps _ hl, State.ticked_lineStamps, State.ticked_die]
  rfl

theorem State.afterTick_ctx {k : Nat} {c : Ctx} (hc : s.ctxs.find k = some c) :
    (s.afterTick die t h n).ctx k = if dieOf (coreOf k) = die then c.ticked h else c := by
  have hctxs : (s.afterTick die t h n).ctxs = (s.ticked die t h n).ctxs :=
    (State.discardGuests_ctxs (hs.visited die t h n) die).trans (State.visitLines_ctxs _ die)
  apply State.ctx_of_find
  rw [hctxs, State.ticked_ctxs, hc]
  rfl

end AfterTick

theorem exec_ltimeTick_runs {s : State} {die : Nat} (hp : (s.die die).power ≠ .d3) (hl : (s.die die).lost = false) :
    exec (.ltimeTick die) s = .next (s.afterTick die ((s.die die).nextTick * 65536) (((s.die die).home + 1) % 2 ^ 24)
      ((s.die die).nextTick + (s.die die).ltperiod)) := by
  rw [exec_ltimeTick, execLtimeTick]
  refine (if_neg (by simp [hp, hl])).trans ?_
  have hctx (h : Nat) (t : Tab Ctx) : (t.map fun (e : Nat × Ctx) => if dieOf (coreOf e.1) = die then (e.1, { e.2 with ltime := tickPts h e.2.ltime }) else e) =
      t.map fun e => (e.1, if dieOf (coreOf e.1) = die then e.2.ticked h else e.2) := by
    refine List.map_congr_left fun e _ => ?_
    split <;> rfl
  simp only [hctx]
  generalize (s.die die).nextTick * 65536 = t, ((s.die die).home + 1) % 2 ^ 24 = h, (s.die die).nextTick + (s.die die).ltperiod = n
  rfl

/-- A home visits one line. -/
def State.lineVisited (s : State) (line h : Nat) : State :=
  if 2 ^ 22 ≤ stampLag (s.lineStamps line).1 h then { s with stamps := s.stamps.put line (h, h) } else s

theorem State.lineVisited_mem (s : State) (line h : Nat) : (s.lineVisited line h).mem = s.mem := by
  unfold State.lineVisited
  split <;> rfl

theorem State.lineVisited_lineStamps (s : State) (line h : Nat) : (s.lineVisited line h).lineStamps line = visitedAt h (s.lineStamps line) := by
  unfold State.lineVisited visitedAt
  split
  · exact State.lineStamps_of_listed (Tab.find_put_same _ _ _)
  · rfl

theorem State.Clean.lineVisited {s : State} (hs : s.Clean) (line h : Nat) : (s.lineVisited line h).Clean := by
  unfold State.lineVisited
  split
  · exact hs
  · exact hs

theorem logicalTime : Parts.LogicalTime := by
  unfold Parts.LogicalTime
  intro s die line hd fresh visited hall
  have hclean : s.Clean := hall
  refine ⟨fun hp hlost => ?_, fun hl => ?_⟩
  · intro h
    let t := (s.die die).nextTick * 65536
    let n := (s.die die).nextTick + (s.die die).ltperiod
    have hdie := s.ticked_die die t h n
    refine ⟨s.afterTick die t h n, exec_ltimeTick_runs hp hlost, ?_, ?_, fun e => ?_, State.afterTick_inStep hclean die t h n,
      State.afterTick_mem hclean die t h n, fun l hl => State.afterTick_lineStamps hclean die t h n hl, fun k c hc => State.afterTick_ctx hclean die t h n hc⟩
    · exact (State.afterTick_die_keeps hclean die t h n Die.home (fun _ _ => rfl) (fun _ _ => rfl) die).trans (congrArg Die.home hdie)
    · exact (State.afterTick_die_keeps hclean die t h n Die.nextTick (fun _ _ => rfl) (fun _ _ => rfl) die).trans (congrArg Die.nextTick hdie)
    · exact (State.afterTick_die_keeps hclean die t h n Die.tclk (fun _ _ => rfl) (fun _ _ => rfl) e).trans
        (s.ticked_die_keeps die t h n Die.tclk (fun _ _ _ => rfl) e)
  · intro h st
    obtain ⟨-, hdie, hstamps, hmem⟩ := State.foldl_discardGuests (hclean.lineVisited line h) 8
    refine ⟨(List.range 8).foldl State.discardGuests (s.lineVisited line h), ?_, fun d hd => ?_, hmem.trans (s.lineVisited_mem line h), ?_⟩
    · rw [exec_lineTimestampVisit, execLineTimestampVisit]
      exact if_neg (by simp [hl])
    · intro e he
      rw [hdie, if_pos hd] at he ⊢
      exact Die.discards_inStep _ e he
    · refine (State.lineStamps_congr line hstamps ?_).trans (s.lineVisited_lineStamps line h)
      rw [hdie]
      split
      · exact Die.discards_floor _ _
      · rfl

/-! ### The order of SC operations (R315) -/

theorem State.foldl_post_agenda {α : Type} (f : α → Event) (l : List α) (s : State) :
    (l.foldl (fun s x => s.post (f x)) s).agenda = s.agenda ++ l.map f := by
  induction l generalizing s with
  | nil => simp
  | cons x l ih => rw [List.foldl_cons, ih]; simp

theorem State.foldl_post_die {α : Type} (f : α → Event) (l : List α) (s : State) (d : Nat) : (l.foldl (fun s x => s.post (f x)) s).die d = s.die d :=
  foldl_keeps (f := fun s x => State.post s (f x)) (State.die · d) (fun _ _ => rfl) l s

/-- An operation of the package stands before one with a key: it is stamped, and its key is less. -/
theorem stampedBefore_iff (s : State) (key : List Nat) :
    ((((List.range 8).flatMap fun d => (s.die d).scq).filter fun o => o.stamp.isSome).any fun x => keyLt x.key key) = true ↔
      ∃ d, d < 8 ∧ ∃ x ∈ (s.die d).scq, x.stamp.isSome = true ∧ keyLt x.key key = true := by
  simp only [List.any_eq_true, List.mem_filter, List.mem_flatMap, List.mem_range]
  constructor
  · rintro ⟨x, ⟨⟨d, hd, hx⟩, hs⟩, hk⟩
    exact ⟨d, hd, x, hx, hs, hk⟩
  · rintro ⟨d, hd, x, hx, hs, hk⟩
    exact ⟨x, ⟨⟨d, hd, hx⟩, hs⟩, hk⟩

theorem sequentialOrder : Parts.SequentialOrder := by
  unfold Parts.SequentialOrder
  intro s die k hk
  refine ⟨?_, fun o stamp w ho hstamp => ?_⟩
  · intro d fresh
    refine ⟨_, rfl, ?_, ?_⟩
    · exact (State.foldl_post_die (fun o : ScOp => .scCompletion o.ctx) fresh _ die).trans (s.die_modDie_same die _)
    · exact State.foldl_post_agenda (fun o : ScOp => .scCompletion o.ctx) fresh _
  · intro before
    have hany := stampedBefore_iff s o.key
    rw [exec_scCompletion, execScCompletion]
    simp only [ho, hstamp, Option.map_some, Option.getD_some]
    refine ⟨fun hb => if_pos (hany.mpr hb), fun hn => ?_⟩
    refine if_neg fun hb => ?_
    obtain ⟨d, hd, x, hx, hbefore⟩ := hany.mp hb
    exact hn d hd x hx hbefore

/-! ### Requests that enter inboxes (R335) -/

theorem State.inboxOf_congr {s t : State} (h : ∀ e, (t.die e).inbox = (s.die e).inbox) (d u : Nat) : t.inboxOf d u = s.inboxOf d u := by
  simp only [State.inboxOf, h]

/-- A request enters its own inbox or none. -/
theorem State.inject_inboxOf (s : State) (d u : Nat) (r : Req) (e v : Nat) :
    (s.inject d u r).inboxOf e v = s.inboxOf e v ∨ (s.inject d u r).inboxOf e v = s.inboxOf e v ++ [r] := by
  unfold State.inject
  extract_lets l
  split
  · exact .inl rfl
  · simp only [State.inboxOf, State.post_die]
    by_cases he : e = d
    · subst he
      rw [State.die_modDie_same]
      by_cases hv : v = u
      · subst hv; exact .inr (Tab.get_put_same _ _ _ _)
      · exact .inl (Tab.get_put_ne _ _ _ _ _ hv)
    · rw [State.die_modDie_ne _ _ _ _ he]; exact .inl rfl

/-- A request is accepted by an inbox that has room in hardware. -/
theorem State.inject_room {s : State} {d u : Nat} (r : Req) (h : (s.inboxOf d u).length < 32) : (s.inject d u r).inboxOf d u = s.inboxOf d u ++ [r] := by
  have hroom : ¬inboxDepth + (s.die d).inboxQuota ≤ (Tab.get [] (s.die d).inbox u).length := by
    have h' : (Tab.get [] (s.die d).inbox u).length < 32 := h
    unfold inboxDepth; omega
  unfold State.inject
  simp only [if_neg hroom, State.inboxOf, State.post_die, State.die_modDie_same]
  exact Tab.get_put_same _ _ _ _

theorem State.inject_die_keeps {α : Type} (g : Die → α) (hg : ∀ (x : Die) a, g { x with inbox := a } = g x) (s : State) (d u : Nat) (r : Req) (e : Nat) :
    g ((s.inject d u r).die e) = g (s.die e) := by
  unfold State.inject
  extract_lets l
  split
  · rfl
  · rw [State.post_die]
    exact State.die_modDie_keeps g _ _ (fun x => hg x _) e

theorem State.injectAll_die_keeps {α : Type} (g : Die → α) (hg : ∀ (x : Die) a, g { x with inbox := a } = g x) (rs : List (Nat × Req)) (s : State) (e : Nat) :
    g ((s.injectAll rs).die e) = g (s.die e) :=
  foldl_keeps (f := fun s (r : Nat × Req) => State.inject s (r.1 / 64) (r.1 % 64) r.2) (fun s : State => g (s.die e))
    (fun s _ => s.inject_die_keeps g hg _ _ _ e) rs s

theorem State.mem_inboxOf_injectAll {s : State} {d u : Nat} {x : Req} (hx : x ∈ s.inboxOf d u) (rs : List (Nat × Req)) : x ∈ (s.injectAll rs).inboxOf d u := by
  induction rs generalizing s with
  | nil => exact hx
  | cons r rs ih =>
    refine ih (s := s.inject (r.1 / 64) (r.1 % 64) r.2) ?_
    rcases s.inject_inboxOf (r.1 / 64) (r.1 % 64) r.2 d u with h | h <;> rw [h]
    · exact hx
    · exact List.mem_append_left _ hx

/-- Requests whose inboxes have room for all of them are all accepted. -/
theorem State.injectAll_room {s : State} {rs : List (Nat × Req)} (h : ∀ r ∈ rs, (s.inboxOf (r.1 / 64) (r.1 % 64)).length + rs.length ≤ 32) :
    ∀ r ∈ rs, r.2 ∈ (s.injectAll rs).inboxOf (r.1 / 64) (r.1 % 64) := by
  induction rs generalizing s with
  | nil => exact fun _ hr => nomatch hr
  | cons r rs ih =>
    have hroom (x : Nat × Req) (hx : x ∈ r :: rs) : (s.inboxOf (x.1 / 64) (x.1 % 64)).length + rs.length + 1 ≤ 32 := h x hx
    intro x hx
    rcases List.mem_cons.mp hx with rfl | hx
    · refine State.mem_inboxOf_injectAll (s := s.inject (x.1 / 64) (x.1 % 64) x.2) ?_ rs
      rw [State.inject_room _ (by have := hroom x (by simp); omega)]
      exact List.mem_append_right _ (by simp)
    · refine ih (s := s.inject (r.1 / 64) (r.1 % 64) r.2) (fun y hy => ?_) x hx
      have := hroom y (by simp [hy])
      rcases s.inject_inboxOf (r.1 / 64) (r.1 % 64) r.2 (y.1 / 64) (y.1 % 64) with h | h <;> rw [h]
      · omega
      · rw [List.length_append, List.length_singleton]; omega

/-! ### Grants of range locks (R340, R358) -/

/-- A transfer that has its ranges has its counter's UIPC and TAG in place. -/
def State.registered (s : State) (q : LockReq) : State := match (s.core q.core).xfers.find q.xfer with
  | some x => s.register q.core x.cc x.uipc x.tag
  | none => s

theorem State.registered_die (s : State) (q : LockReq) (e : Nat) : (s.registered q).die e = s.die e := by
  unfold State.registered
  split
  · unfold State.register
    split <;> rfl
  · rfl

theorem State.sendXfer_eq (s : State) (q : LockReq) : s.sendXfer q = (s.registered q).injectAll q.reqs := rfl

/-- A die whose table takes the registration that alone waits for it. -/
def Die.takesLocks (x : Die) (q : LockReq) : Die := { x with locks := x.locks ++ q.locks, lockQ := [] }

/-- The registration that alone waits for a die's table has been granted. -/
def State.granted (s : State) (d : Nat) (q : LockReq) : State := ((s.modDie d fun x => x.takesLocks q).latency d 7 0).sendXfer q

theorem State.granted_die_keeps {α : Type} (g : Die → α) (hi : ∀ (x : Die) a, g { x with inbox := a } = g x) (hm : ∀ (x : Die) a, g { x with monitors := a } = g x)
    (s : State) (d : Nat) (q : LockReq) (e : Nat) : g ((s.granted d q).die e) = g ((s.modDie d fun x => x.takesLocks q).die e) := by
  rw [State.granted, State.sendXfer_eq, State.injectAll_die_keeps g hi, State.registered_die, State.latency_die, hm]

theorem State.granted_locks (s : State) (d : Nat) (q : LockReq) : ((s.granted d q).die d).locks = (s.die d).locks ++ q.locks := by
  rw [State.granted_die_keeps Die.locks (fun _ _ => rfl) fun _ _ => rfl, State.die_modDie_same]
  rfl

theorem State.granted_lockQ (s : State) (d : Nat) (q : LockReq) : ((s.granted d q).die d).lockQ = [] := by
  rw [State.granted_die_keeps Die.lockQ (fun _ _ => rfl) fun _ _ => rfl, State.die_modDie_same]
  rfl

theorem State.granted_issuing (s : State) (d : Nat) (q : LockReq) : ((s.granted d q).die d).issuing = (s.die d).issuing := by
  rw [State.granted_die_keeps Die.issuing (fun _ _ => rfl) fun _ _ => rfl, State.die_modDie_same]
  rfl

/-- Its requests are in their inboxes, where those have room. -/
theorem State.granted_reqs {s : State} (d : Nat) {q : LockReq} (h : ∀ r ∈ q.reqs, (s.inboxOf (r.1 / 64) (r.1 % 64)).length + q.reqs.length ≤ 32) :
    ∀ r ∈ q.reqs, r.2 ∈ (s.granted d q).inboxOf (r.1 / 64) (r.1 % 64) := by
  have hinbox (e u : Nat) : (((s.modDie d fun x => x.takesLocks q).latency d 7 0).registered q).inboxOf e u = s.inboxOf e u := by
    refine State.inboxOf_congr (fun e => ?_) e u
    rw [State.registered_die, State.latency_die]
    exact State.die_modDie_keeps Die.inbox s d (f := fun x => x.takesLocks q) (fun _ => rfl) e
  rw [State.granted, State.sendXfer_eq]
  refine State.injectAll_room fun r hr => ?_
  rw [hinbox]
  exact h r hr

theorem State.grantLocks_empty {s : State} {d : Nat} (h : (s.die d).lockQ = []) (fuel : Nat) : s.grantLocks d fuel = s := by
  cases fuel with
  | zero => rfl
  | succ n => simp only [State.grantLocks, h]

theorem State.grantLocks_alone {s : State} {d : Nat} {q : LockReq} (h : (s.die d).lockQ = [q]) (hx : q.xfer < 1024)
    (hg : grantable (s.die d).locks (s.die d).scatters q = true) (fuel : Nat) : s.grantLocks d (fuel + 1) = s.granted d q := by
  rw [State.grantLocks]
  simp only [h, hg, if_true, if_neg (Nat.not_le.mpr hx)]
  exact State.grantLocks_empty (s.granted_lockQ d q) fuel

theorem State.grantLocks_refused {s : State} {d : Nat} {q : LockReq} {qs : List LockReq} (h : (s.die d).lockQ = q :: qs)
    (hg : grantable (s.die d).locks (s.die d).scatters q = false) (fuel : Nat) : s.grantLocks d fuel = s := by
  cases fuel with
  | zero => rfl
  | succ n => simp only [State.grantLocks, h, hg, Bool.false_eq_true, if_false]

/-- A die that holds no dirty bytes frees none. -/
theorem State.freeHeld_none {s : State} {d : Nat} (h : (s.die d).held = []) : s.freeHeld d = s.setDie d (s.die d) := by
  have hsame : { s.die d with held := [] } = s.die d := by rw [← h]
  simp only [State.freeHeld, State.modDie, h, List.filter_nil, List.foldl_nil, hsame]

theorem State.die_setDie_self (s : State) (d e : Nat) : (s.setDie d (s.die d)).die e = s.die e := by
  by_cases h : e = d
  · subst h; rw [State.die_setDie_same]
  · rw [State.die_setDie_ne _ _ _ _ h]

/-- A grant once the transfers that can have asked for their ranges, on a die that holds no dirty bytes. -/
theorem exec_rangeLockGrant_letIn {s s1 : State} {d : Nat} (h1 : s.letIn d [] (s.die d).issuing = s1) (hh : (s1.die d).held = []) :
    exec (.rangeLockGrant d) s = .next ((s1.setDie d (s1.die d)).grantLocks d ((s1.die d).lockQ.length + 1)) := by
  simp only [exec_rangeLockGrant, execRangeLockGrant, h1, State.freeHeld_none hh, State.die_setDie_same]

/-- What a grant leaves: the entries in the table, and the requests in their inboxes. -/
theorem exec_rangeLockGrant_granted {s s1 : State} {d : Nat} {q : LockReq} (h1 : s.letIn d [] (s.die d).issuing = s1) (hh : (s1.die d).held = [])
    (hq : (s1.die d).lockQ = [q]) (hi : (s1.die d).issuing = []) (hx : q.xfer < 1024) (hg : grantable (s1.die d).locks (s1.die d).scatters q = true)
    (hroom : ∀ r ∈ q.reqs, (s1.inboxOf (r.1 / 64) (r.1 % 64)).length + q.reqs.length ≤ 32) :
    ∃ t, exec (.rangeLockGrant d) s = .next t ∧ (t.die d).locks = (s1.die d).locks ++ q.locks ∧ (t.die d).lockQ = [] ∧ (t.die d).issuing = [] ∧
      ∀ r ∈ q.reqs, r.2 ∈ t.inboxOf (r.1 / 64) (r.1 % 64) := by
  let s2 := s1.setDie d (s1.die d)
  have hdie (e : Nat) : s2.die e = s1.die e := s1.die_setDie_self d e
  have hgrant : s2.grantLocks d ((s1.die d).lockQ.length + 1) = s2.granted d q :=
    State.grantLocks_alone (by rw [hdie]; exact hq) hx (by rw [hdie]; exact hg) _
  refine ⟨_, (exec_rangeLockGrant_letIn h1 hh).trans (congrArg Host.Outcome.next hgrant), ?_, s2.granted_lockQ d q, ?_, State.granted_reqs d fun r hr => ?_⟩
  · rw [State.granted_locks, hdie]
  · rw [State.granted_issuing, hdie, hi]
  · rw [State.inboxOf_congr (s := s1) fun e => congrArg Die.inbox (hdie e)]
    exact hroom r hr

/-- A die whose only transfer yet to register has asked for its ranges. -/
def Die.asks (x : Die) (q : LockReq) : Die := { x with issuing := [], lockQ := [q] }

/-- The one transfer of a die, its context with nothing to wait for, asks for its ranges. -/
theorem State.letIn_asks {s : State} {d : Nat} {y : Issuing} (hi : (s.die d).issuing = [y]) (hq : (s.die d).lockQ = []) (hr : y.req.ranges ≠ [])
    (hg : (s.ctx y.ctx).gen = y.gen) (hs : (s.ctx y.ctx).state ≠ .free) (ha : s.accessedBefore y.ctx y.pos = false) (hf : s.Flushed y.ctx) (e : Nat) :
    (s.letIn d [] (s.die d).issuing).die e = if e = d then (s.die d).asks y.req else s.die e := by
  have hgo : s.mayRegister y = (true, s) := by
    have hrun : ((s.ctx y.ctx).gen != y.gen || (s.ctx y.ctx).state == .free) = false := by simp [hg, hs]
    simp only [State.mayRegister, hrun, ha, hf.released, Bool.false_eq_true, if_false]
  have hlet : s.letIn d [] (s.die d).issuing = s.startXfer d y := by
    simp only [hi, State.letIn, hgo, List.contains_nil, Bool.false_eq_true, if_false]
  have hempty : y.req.ranges.isEmpty = false := by simpa using hr
  rw [hlet]
  simp only [State.startXfer, hempty, Bool.false_eq_true, if_false, State.askLocks, State.post_die]
  by_cases he : e = d
  · subst he
    simp only [if_true, State.die_modDie_same, State.modCore_die, hi, hq]
    simp [Die.asks]
  · rw [if_neg he, State.die_modDie_ne _ _ _ _ he, State.modCore_die, State.die_modDie_ne _ _ _ _ he]

/-! ### Accesses of the host (R318, R479) -/

/-- A home that is not lost performs what it is asked for, or lets it wait while it sleeps. -/
theorem State.homeState_eq {s : State} {pa : Nat} (hl : s.local_ pa = true) (hn : (s.die (homeDie pa)).lost = false) :
    ((s.die (homeDie pa)).power = .d0 → s.homeState pa = .ok pa 0) ∧
      ((s.die (homeDie pa)).power = .d1 ∨ (s.die (homeDie pa)).power = .d2 → s.homeState pa = .stall) := by
  have hhost : hostMem pa = false := by
    have h := (Bool.and_eq_true_iff.mp hl).1
    simpa [hostMem] using h
  refine ⟨fun hp => ?_, fun hp => ?_⟩
  · simp only [State.homeState, hhost, hl, hn, hp, Bool.false_eq_true, if_false, if_true]
  · rcases hp with hp | hp <;> simp only [State.homeState, hhost, hl, hn, hp, Bool.false_eq_true, if_false, if_true]

/-- The byte of a line is cut from as many bits as the line has. -/
theorem ofNat_lineByte (x a : Nat) : BitVec.ofNat 8 (x % 2 ^ 512 / 2 ^ (8 * (a % 64))) = BitVec.ofNat 8 (x / 2 ^ (8 * (a % 64))) := by
  have hn : 8 * (a % 64) + 8 ≤ 512 := by omega
  generalize 8 * (a % 64) = n at hn
  have hsplit : 2 ^ 512 = 2 ^ n * 2 ^ (512 - n) := by rw [← Nat.pow_add, Nat.add_sub_cancel' (by omega)]
  apply BitVec.eq_of_toNat_eq
  rw [BitVec.toNat_ofNat, BitVec.toNat_ofNat, hsplit, Nat.mod_mul_right_div_self, Nat.mod_mod_of_dvd]
  exact Nat.pow_dvd_pow 2 (by omega)

/-- The host's write of a line whose owner has been recalled. -/
def State.hostStore (s : State) (l h x : Nat) : State :=
  ({ (s.stampWrite l h).1 with mem := s.mem.writeN (l * 64) 64 x } : State).dropL1 l fun _ y => y.outside

theorem State.hostStore_read (s : State) (l h x a : Nat) :
    (s.hostStore l h x).mem.read a = if a / 64 = l then BitVec.ofNat 8 (x / 2 ^ (8 * (a % 64))) else s.mem.read a := by
  rw [State.hostStore, State.dropL1_mem, Mem.read_writeLine]

theorem State.hostStore_stamps (s : State) (l h x : Nat) : (s.hostStore l h x).lineStamps l = ((s.stampWrite l h).2, (s.stampWrite l h).2) := by
  apply State.lineStamps_of_listed
  rw [State.hostStore, State.dropL1_stamps]
  exact Tab.find_put_same _ _ _

theorem State.stampRead_stamps (s : State) (l p : Nat) : (s.stampRead l p).1.lineStamps l = ((s.lineStamps l).1, serialMax 24 (s.lineStamps l).2 p) :=
  State.lineStamps_of_listed (Tab.find_put_same _ _ _)

section HostAccess

variable {s : State} {pa : Nat} (hl : s.local_ pa = true) (hb : pa % 2 ^ 36 < Config.hbmBytes) (hn : (s.die (homeDie pa)).lost = false)
  (hf : ∀ f ∈ s.flips, inPage f.base f.size (pa / 64) = false) (data : Nat)
include hl hb hf

/-- Neither its address nor a flip keeps an access of the host from the home. -/
theorem hostAccess_reaches : (!s.local_ pa || decide (Config.hbmBytes ≤ bits pa 35 0)) = false ∧ (s.flips.any fun f => inPage f.base f.size (pa / 64)) = false := by
  have hbits : bits pa 35 0 = pa % 2 ^ 36 := by unfold bits; omega
  refine ⟨?_, List.any_eq_false.mpr fun f hm => by rw [hf f hm]; exact Bool.false_ne_true⟩
  rw [hl, hbits, decide_eq_false (Nat.not_le.mpr hb)]
  rfl

include hn

theorem exec_hostCxlAccess_store (hp : (s.die (homeDie pa)).power = .d0) :
    exec (.hostCxlAccess true pa data) s =
      .next ((s.recall (pa / 64)).hostStore (pa / 64) ((s.recall (pa / 64)).die (homeDie pa)).home (data % 2 ^ 512)) := by
  obtain ⟨haddr, hflip⟩ := hostAccess_reaches hl hb hf
  rw [exec_hostCxlAccess]
  simp only [execHostCxlAccess, haddr, hflip, (State.homeState_eq hl hn).1 hp, Bool.false_eq_true, if_false, if_true,
    State.stampWrite_mem, State.hostStore]

theorem exec_hostCxlAccess_load (hp : (s.die (homeDie pa)).power = .d0) (hc : (s.recall (pa / 64)).poisoned pa = false) :
    exec (.hostCxlAccess false pa data) s =
      .next ((s.recall (pa / 64)).stampRead (pa / 64) ((s.recall (pa / 64)).die (homeDie pa)).home).1 := by
  obtain ⟨haddr, hflip⟩ := hostAccess_reaches hl hb hf
  rw [exec_hostCxlAccess]
  simp only [execHostCxlAccess, haddr, hflip, (State.homeState_eq hl hn).1 hp, hc, Bool.false_eq_true, if_false]

theorem exec_hostCxlAccess_asleep (hp : (s.die (homeDie pa)).power = .d1 ∨ (s.die (homeDie pa)).power = .d2) (store : Bool) :
    exec (.hostCxlAccess store pa data) s = .next (s.post (.hostCxlAccess store pa data)) := by
  obtain ⟨haddr, hflip⟩ := hostAccess_reaches hl hb hf
  rw [exec_hostCxlAccess]
  simp only [execHostCxlAccess, haddr, hflip, (State.homeState_eq hl hn).2 hp, Bool.false_eq_true, if_false]

end HostAccess

/-! ### Flips to device bias (R319) -/

/-- A number with one bit cleared is no greater. -/
theorem setBits_clear_le (x l n : Nat) : setBits x l n 0 ≤ x := by
  unfold setBits
  rw [Nat.zero_mod, Nat.zero_mul, Nat.add_zero]
  exact Nat.sub_le _ _

theorem State.dropTlb_die (s : State) (p : Tlb → Bool) (d : Nat) :
    (s.dropTlb p).die d = if d < 8 then { s.die d with tlb := (s.die d).tlb.filter fun t => !p t } else s.die d :=
  s.die_foldl_modDie (fun x => { x with tlb := x.tlb.filter fun t => !p t }) 8 d

theorem State.dropTlb_mem (s : State) (p : Tlb → Bool) : (s.dropTlb p).mem = s.mem :=
  foldl_keeps (f := fun s d => State.modDie s d fun x => { x with tlb := x.tlb.filter fun t => !p t }) State.mem (fun _ _ => rfl) (List.range 8) s

/-- The state in which a leaf is that word, and no L1 holds its line. -/
def State.leafWritten (s : State) (at_ pte : Nat) : State :=
  ({ (if s.local_ at_ then (s.stampWrite (at_ / 64) 0).1 else s) with mem := s.mem.writeN at_ 8 pte } : State).dropL1 (at_ / 64) fun _ _ => false

theorem State.writeBias_eq (s : State) (at_ : Nat) (host : Bool) :
    let s1 := if s.local_ at_ then s.recall (at_ / 64) else s
    s.writeBias at_ host = (s1.leafWritten at_ (setBits (s1.mem.readN at_ 8) 6 1 (ofBool host))).dropTlb fun t => t.pteAt == at_ := by
  intro s1
  have hmem : (if s1.local_ at_ then (s1.stampWrite (at_ / 64) 0).1 else s1).mem = s1.mem := by split <;> rfl
  unfold State.writeBias State.leafWritten
  simp only [hmem, s1]

/-- The leaf reads as it did with its bias cleared. -/
theorem State.writeBias_device (s : State) (at_ : Nat) :
    (s.writeBias at_ false).mem.readN at_ 8 = setBits ((if s.local_ at_ then s.recall (at_ / 64) else s).mem.readN at_ 8) 6 1 0 := by
  rw [State.writeBias_eq, State.dropTlb_mem, State.leafWritten, State.dropL1_mem, Mem.readN_writeN_same]
  exact Nat.mod_eq_of_lt (Nat.lt_of_le_of_lt (setBits_clear_le _ _ _) (Mem.readN_lt _ _ _))

/-- No slice of the package translates by that leaf any longer. -/
theorem State.writeBias_tlb (s : State) (at_ : Nat) (host : Bool) {d : Nat} (hd : d < 8) : ∀ x ∈ ((s.writeBias at_ host).die d).tlb, x.pteAt ≠ at_ := by
  intro x hx
  rw [State.writeBias_eq, State.dropTlb_die, if_pos hd] at hx
  simpa using (List.mem_filter.mp hx).2

/-- R319, R340, R358: transfers and registrations of a die that holds no dirty bytes. -/
theorem rangeLockGrants (s : State) (d : Nat) (q : LockReq) (hheld : (s.die d).held = []) :
    let x := s.die d
    let room := q.xfer < 1024 ∧ ∀ r ∈ q.reqs, (s.inboxOf (r.1 / 64) (r.1 % 64)).length + q.reqs.length ≤ 32
    let granted := ∃ t, exec (.rangeLockGrant d) s = .next t ∧ (t.die d).locks = x.locks ++ q.locks ∧ (t.die d).lockQ = [] ∧ (t.die d).issuing = [] ∧
      ∀ r ∈ q.reqs, r.2 ∈ t.inboxOf (r.1 / 64) (r.1 % 64)
    (x.lockQ = [q] → x.issuing = [] → grantable x.locks x.scatters q = true → room → granted) ∧
    (x.lockQ = [q] → x.issuing = [] → grantable x.locks x.scatters q = false →
      ∃ t, exec (.rangeLockGrant d) s = .next t ∧ t = { s with dies := t.dies } ∧ ∀ e, t.die e = s.die e) ∧
    (∀ y : Issuing, x.lockQ = [] → x.issuing = [y] → y.req = q → q.ranges ≠ [] → (s.ctx y.ctx).gen = y.gen → (s.ctx y.ctx).state ≠ .free →
      s.accessedBefore y.ctx y.pos = false → s.Flushed y.ctx → grantable x.locks x.scatters q = true → room → granted) := by
  intro x room granted
  have hnone (hi : x.issuing = []) : s.letIn d [] (s.die d).issuing = s := by
    have hi' : (s.die d).issuing = [] := hi
    rw [hi', State.letIn]
  refine ⟨fun hq hi hg hroom => ?_, fun hq hi hg => ?_, fun y hq hi hy hr hgen hst hacc hfl hg hroom => ?_⟩
  · exact exec_rangeLockGrant_granted (hnone hi) hheld hq hi hroom.1 hg hroom.2
  · have hdie (e : Nat) : (s.setDie d (s.die d)).die e = s.die e := s.die_setDie_self d e
    have hrefused := State.grantLocks_refused (s := s.setDie d (s.die d)) (d := d) ((congrArg Die.lockQ (hdie d)).trans hq) (by rw [hdie]; exact hg)
      ((s.die d).lockQ.length + 1)
    exact ⟨_, (exec_rangeLockGrant_letIn (hnone hi) hheld).trans (congrArg Host.Outcome.next hrefused), rfl, hdie⟩
  · subst hy
    have hdie := State.letIn_asks hi hq hr hgen hst hacc hfl
    generalize h1 : s.letIn d [] (s.die d).issuing = s1 at hdie
    have hd : s1.die d = (s.die d).asks y.req := (hdie d).trans (if_pos rfl)
    have hinbox (e : Nat) : (s1.die e).inbox = (s.die e).inbox := by
      rw [hdie]
      split
      · rename_i he; rw [he]; rfl
      · rfl
    obtain ⟨t, hx, hlocks, hrest⟩ := exec_rangeLockGrant_granted h1 (q := y.req) (by rw [hd]; exact hheld) (by rw [hd]; rfl) (by rw [hd]; rfl) hroom.1
      (by rw [hd]; exact hg) fun r hr => by rw [State.inboxOf_congr hinbox]; exact hroom.2 r hr
    exact ⟨t, hx, hlocks.trans (by rw [hd]; rfl), hrest⟩

theorem locksAndTheHost : Parts.LocksAndTheHost := by
  unfold Parts.LocksAndTheHost
  intro s
  refine ⟨fun d q hheld => rangeLockGrants s d q hheld, ?_, fun page f hfind => ⟨fun k hk => ?_, fun hk => ?_⟩⟩
  · intro store pa data l s1 h st w hl hb hn hf
    refine ⟨fun hp hs => ?_, fun hp hs hc => ?_, fun hp => exec_hostCxlAccess_asleep hl hb hn hf data hp store⟩
    · subst hs
      have hx : exec (.hostCxlAccess true pa data) s = .next (s1.hostStore l h (data % 2 ^ 512)) := exec_hostCxlAccess_store hl hb hn hf data hp
      have hbyte := ofNat_lineByte data
      generalize data % 2 ^ 512 = bytes at hx hbyte
      have hstamps : (s1.hostStore l h bytes).lineStamps l = (w, w) := by
        rw [State.hostStore_stamps, State.stampWrite_wts]
      exact ⟨s1.hostStore l h bytes, hx, hstamps, fun a => by rw [State.hostStore_read, hbyte]⟩
    · subst hs
      have hx : exec (.hostCxlAccess false pa data) s = .next (s1.stampRead l h).1 := exec_hostCxlAccess_load hl hb hn hf data hp hc
      have hstamps : (s1.stampRead l h).1.lineStamps l = (st.1, serialMax 24 st.2 h) := s1.stampRead_stamps l h
      have hmem : (s1.stampRead l h).1.mem = s1.mem := s1.stampRead_mem l h
      exact ⟨(s1.stampRead l h).1, hx, hstamps, hmem⟩
  · simp only [exec_hostWritebackCompletion, execHostWritebackCompletion, hfind, hk]
  · refine ⟨s.flipDone f.pteAt false, ?_, fun x hx => ?_, fun d hd => s.writeBias_tlb f.pteAt false hd, s.writeBias_device f.pteAt⟩
    · simp only [exec_hostWritebackCompletion, execHostWritebackCompletion, hfind, hk]
    · simpa using (List.mem_filter.mp hx).2

/-- Settles O53. A dirty owned line is followed home through the stamp, the bytes, the clean copy and the packet; a recall is that on the one die which owns
the line. Of the steps that fold over dies, streams or requests each touches a number of its own, so that what one has done stands at the end. With clean
L1s nothing is written back as copies that lag go, so that a tick moves times and stamps alone. -/
theorem memorySystemEvents : Obligations.MemorySystemEvents := by
  unfold Obligations.MemorySystemEvents
  exact ⟨linesGoHome, renewalsAndTokens, logicalTime, sequentialOrder, locksAndTheHost⟩

end Sys2Proof.Machine
